-- ==== Sys2Proof/Word.lean ====
section
/-! DEFINITION. The word types of the XA-4024 and their plainest arithmetic. -/

namespace Sys2Proof

/-- One byte. -/
abbrev Byte := BitVec 8
/-- A move: 32 bytes, bits [31:0] its header (R149). -/
abbrev MoveWord := BitVec 256
/-- A scalar register (R131). -/
abbrev Reg := BitVec 64

/-- Module tile index, 0 to 3,071 (R10). -/
abbrev TileIx := Fin 3072
/-- Compute die C0 to C5. -/
abbrev DieIx := Fin 6
/-- Stack M0 to M23. -/
abbrev StackIx := Fin 24
/-- Fabric port F0 to F15. -/
abbrev PortIx := Fin 16
/-- Virtual channel of a port (R295). -/
abbrev VcIx := Fin 12
/-- Wavelength lane of a port (R327). -/
abbrev LaneIx := Fin 9
/-- Cartridge bay B0 to B10 (R358). -/
abbrev BayIx := Fin 11
/-- Host port H0 to H3 (R407). -/
abbrev HostIx := Fin 4
/-- Host interface index 4n + i (R436). -/
abbrev IfIx := Fin 16
/-- PPE transform slot (R175). -/
abbrev SlotIx := Fin 8
/-- Array quadrant Q0 to Q3. -/
abbrev QuadIx := Fin 4

/-- The compute die of a tile (R10). -/
def TileIx.die (t : TileIx) : Nat := t.val / 512
/-- The logical row of a tile within its die (R10). -/
def TileIx.row (t : TileIx) : Nat := t.val % 512 / 32
/-- The logical column of a tile (R10). -/
def TileIx.col (t : TileIx) : Nat := t.val % 32
/-- The voltage region of a tile: 16 d + r (R41, R481). -/
def TileIx.region (t : TileIx) : Nat := t.die * 16 + t.row

/-- Round up a division. -/
def ceilDiv (a b : Nat) : Nat := (a + b - 1) / b

end Sys2Proof
end

