-- ==== Sys2Proof/Syntax.lean ====
section
/-! DEFINITION. The commands of the block: one constructor for each row of spec/opcode_table.json.
Moves carry the tile and the 256-bit move word (R149); ZCP commands carry the request and typed parameters;
events carry what the outside shows. -/

namespace Sys2Proof

/-- What power-up finds in the hardware (R458, R460): the model takes the outcomes of the self-tests from outside. -/
structure BootResult where
  railsOk : Bool := true
  /-- Physical tiles that fail the tile self-test: die, row and place in the row of 33 (R9, R36). -/
  failedTiles : List (DieIx × Fin 16 × Fin 33) := []
  /-- Stacks that fail training or have no spare left (R37, R209). -/
  offlineStacks : List StackIx := []
  /-- Stacks whose spare pseudo-channel was placed (R209). -/
  sparedStacks : List StackIx := []
  /-- Durations in ns of steps 5 to 7 (R480). -/
  hbmNs : Nat := 0
  selftestNs : Nat := 0
  cartridgeNs : Nat := 0
  deriving DecidableEq, Repr

/-- Array fault causes an attempt can meet (R60). -/
inductive ArrayCause where
  | stationaryParity | poison | accUncorrectable | ledgerOverflow
  deriving DecidableEq, Repr

/-- The header and transport block of a REQUEST packet (R298, R300), with its payload. -/
structure Request where
  dst : BitVec 16
  src : BitVec 16
  cls : BitVec 2
  job : BitVec 12
  op : BitVec 4
  aop : BitVec 4 := 0
  ord : Bool := false
  last : Bool := false
  ce : Bool := false
  epoch : BitVec 8 := 0
  seq : BitVec 24
  len : BitVec 9
  opv : Bool := false
  oprev : BitVec 24 := 0
  rten : Bool := false
  rtal : BitVec 6 := 0
  rtile : BitVec 12 := 0
  waddr : BitVec 48
  payload : List Byte := []
  deriving DecidableEq, Repr

/-- One RECEIPT entry (R279). -/
structure ReceiptEntry where
  base : BitVec 24
  mask : BitVec 32
  ce : Bool := false
  deriving DecidableEq, Repr

/-- The key of a collective on a switch (R398). -/
structure EscrowKey where
  job : BitVec 12
  group : BitVec 16
  seq : BitVec 32
  deriving DecidableEq, Repr

/-- The identity record of R350. -/
structure Identity where
  serial : List Byte := []
  kind : BitVec 8 := 0
  port : BitVec 8 := 0
  revMax : BitVec 8 := 0x12
  revMin : BitVec 8 := 0x10
  caps : BitVec 32 := 7
  fid : BitVec 16 := 0xFFFF
  planId : BitVec 32 := 0
  deriving DecidableEq, Repr

/-- Direction of a port's lanes. -/
inductive Dir where
  | tx | rx
  deriving DecidableEq, Repr

/-- Why a lane failed (R340). -/
inductive LaneCause where
  | lossOfSignal | alignment | uncorrectable | ber | tone | heater | laser
  deriving DecidableEq, Repr

/-- The outcome of a ring lock attempt (R330). -/
inductive RingResult where
  | verified | mislock | toneAbsent
  deriving DecidableEq, Repr

/-- DOWN reasons with their PORT_STATUS codes in order (R349). -/
inductive DownReason where
  | none | disabled | noLaser | noPeer | trainTimeout | tooFewLanes | revMismatch
  | retryExhausted | creditError | alignmentLost | command
  deriving DecidableEq, Repr

/-- A lane block as it crosses the fibre (R332, R334): the data and check symbols of its codeword, and its overhead. -/
structure LaneBlock where
  data : BitVec 2560
  check : BitVec 160
  ovh : BitVec 170
  deriving DecidableEq, Repr

/-- What a lane shows at identity in training: the wavelength index that the transmitter wrote, and its skew (R331, R335). -/
structure LaneIdent where
  wave : BitVec 4
  skewNs : Nat := 0
  deriving DecidableEq, Repr

/-- The SWAP link-control flit (R337). -/
structure SwapMsg where
  op : BitVec 8
  slot : BitVec 8
  from_ : BitVec 8
  to_ : BitVec 8
  at_ : BitVec 16
  deriving DecidableEq, Repr

/-- The FREEZE link-control flit (R508). -/
structure FreezeFlit where
  originFid : BitVec 16
  originNo : BitVec 32
  originT : BitVec 64
  cause : BitVec 8
  hops : BitVec 8
  tag : BitVec 32
  deriving DecidableEq, Repr

/-- What a cartridge presents at authentication (R361, R366). Signatures are judged by Config. -/
structure CartId where
  kind : BitVec 8
  lasers : BitVec 8
  vendor : BitVec 32 := 0
  serial : List Byte := []
  /-- IDENT, certificate, challenge signature and ledger as bytes. -/
  ident : List Byte := []
  cert : List Byte := []
  sig : List Byte := []
  ledger : List Byte := []
  deriving DecidableEq, Repr

/-- One laser's readings (R363, R370): powers in 0.01 dBm, currents in 0.1 mA. -/
structure LaserReading where
  d : Int
  bias : Nat
  biasMax : Nat
  failed : Bool := false
  deriving DecidableEq, Repr

/-- The source of a ZCP request (R433). -/
inductive ZcpSrc where
  | udp (iface : IfIx) (ip : BitVec 128) (port : BitVec 16)
  | mfp (port : PortIx) (src : BitVec 16)
  | linkLocal (port : PortIx)
  deriving DecidableEq, Repr

/-- A ZCP request as the control processor sees it (R435). -/
structure ZcpReq where
  src : ZcpSrc
  seq : BitVec 32
  ver2 : Bool := true
  tag : BitVec 32 := 0
  /-- MAXREPLY and RFRAG of a version 2 request (R439, R443). -/
  maxReply : Nat := 0
  rfrag : Nat := 0
  /-- The parameter bytes, as R475 extends the configuration measurement by them. -/
  bytes : List Byte := []
  deriving DecidableEq, Repr

/-- The IP header of a frame (R409, R412): its version, whether it is a fragment or has options or extension headers, its
protocol, and the port that UDP names. -/
structure IpHdr where
  v6 : Bool := false
  fragment : Bool := false
  options : Bool := false
  proto : BitVec 8
  dstPort : BitVec 16 := 0
  deriving DecidableEq, Repr

/-- An arriving Ethernet frame (R409): its EtherType, the opcode of a MAC control frame, its VLAN tags, and what UDP
carries. -/
structure Frame where
  bytes : Nat
  fcsOk : Bool := true
  /-- Its priority (PCP), and what the FEC found in its codewords (R426, R432). -/
  prio : Fin 8 := 0
  fecCorrected : Nat := 0
  fecUncorrectable : Nat := 0
  etherType : BitVec 16
  macOp : BitVec 16 := 0
  tags : Nat := 0
  ip : Option IpHdr := none
  src : ZcpSrc
  data : List Byte := []
  deriving DecidableEq, Repr

/-- Inbound RoCEv2 operation (R414). -/
inductive RoceOp where
  | write | writeImm | send | read | atomic
  deriving DecidableEq, Repr

/-- An inbound RoCEv2 request (R417). -/
structure RoceReq where
  qpn : Nat
  psn : BitVec 24
  op : RoceOp
  rkey : BitVec 32 := 0
  va : BitVec 64 := 0
  len : Nat := 0
  imm : BitVec 32 := 0
  ce : Bool := false
  payload : List Byte := []
  deriving DecidableEq, Repr

/-- What a requester's peer answers (R423). -/
inductive RoceAnswer where
  | ack (psn : BitVec 24) (rttNs : Nat) | readData (psn : BitVec 24) (bytes : List Byte)
  | nakSeq (psn : BitVec 24) (mask : BitVec 256) | nakRnr (psn : BitVec 24)
  | nakAccess | nakInvalid | nakOperational
  deriving DecidableEq, Repr

/-- Port modes of R407, in order. -/
inductive HostMode where
  | m1x800 | m2x400 | m4x200 | m4x100
  deriving DecidableEq, Repr

/-- Parameters of JOB_LOAD in the row order of R241. -/
structure JobParams where
  priority : Nat := 0
  dieMask : BitVec 6 := 1
  row0 : Nat := 0
  nrows : Nat := 1
  col0 : Nat := 0
  ncols : Nat := 1
  image : BitVec 48 := 0
  imageMoves : Nat := 1
  pbase : Nat := 0
  entry : Nat := 0
  periodEntry : Nat := 0
  root : Nat := 0
  rootLen : Nat := 1
  poolBase : Nat := 0
  poolSize : Nat := 65536
  /-- Four bases for each compute die C0 to C5 (R235). -/
  saveBases : List (List Nat) := []
  seed : BitVec 64 := 0
  /-- 0 HOLD, 1 HOLD_TIMED, 2 END (R227). -/
  policy : Nat := 0
  holdMs : Nat := 1
  traceBase : BitVec 48 := 0
  traceLen : Nat := 0
  urgent : Bool := false
  periodic : Bool := false
  period : Nat := 100000
  phase : BitVec 64 := 0
  deadline : Nat := 10000
  finish : Bool := false
  lend : Bool := false
  leadUs : Nat := 0
  reportBase : BitVec 48 := 0
  reportCount : Nat := 16
  staleWords : List (BitVec 48) := []
  deriving DecidableEq, Repr

/-- JOB_RESUME actions (R233). -/
inductive ResumeAction where
  | retry | skip | entry (ix : Nat)
  deriving DecidableEq, Repr

/-- Parameters of QP_CREATE in the row order of R415. -/
structure QpParams where
  iface : IfIx := 0
  addrIx : Nat := 0
  dstIp : BitVec 128 := 0
  dstQpn : BitVec 24 := 0
  sqPsn : BitVec 24 := 0
  rqPsn : BitVec 24 := 0
  mtu : Nat := 1024
  sqBase : BitVec 48 := 0
  rqBase : BitVec 48 := 0
  cqBase : BitVec 48 := 0
  sqDepth : Nat := 16
  rqDepth : Nat := 0
  doorbell : BitVec 48 := 0
  poll : Bool := false
  cten : Bool := false
  ctile : Nat := 0
  ctal : BitVec 6 := 0
  retry : BitVec 3 := 0
  rnrRetry : BitVec 3 := 0
  timeout : BitVec 5 := 0
  dscp : BitVec 6 := 0
  pcp : BitVec 3 := 0
  sr : Bool := false
  reads : Nat := 1
  deriving DecidableEq, Repr

/-- Queue pair states of the InfiniBand Architecture Specification (R415). -/
inductive QpState where
  | reset | init | rtr | rts | error
  deriving DecidableEq, Repr

/-- HOST_CONFIG parameters; absent ones are not changed (R407, R410, R425, R426, R428, R429). -/
structure HostCfg where
  mode : Option HostMode := none
  ipv4 : Option (List (BitVec 32)) := none
  ipv6 : Option (List (BitVec 128)) := none
  persist : Bool := false
  mgmtPort : Option Nat := none
  pfc : Option (List (Fin 8)) := none
  watchdogMs : Option Nat := none
  ptpOneStep : Option Bool := none
  /-- g as 1/n, RAI in 0.1 % of line rate, T_HIGH and T_LOW in µs (R425). -/
  gInv : Option Nat := none
  rai : Option Nat := none
  tHigh : Option Nat := none
  tLow : Option Nat := none
  deriving DecidableEq, Repr

/-- FABRIC_CONFIG parameters; absent ones are not changed (R450 row 0x0404). -/
structure FabCfg where
  vcSplit : Option (List Nat) := none
  portDim : Option (BitVec 2) := none
  wclass : Option (List Nat) := none
  win : Option (List Nat) := none
  /-- STALL in ns (R315). -/
  stallNs : Option Nat := none
  ceThresh : Option Nat := none
  /-- RTO in ns (R282). -/
  rtoNs : Option Nat := none
  transit : Option Bool := none
  collector : Option (BitVec 16) := none
  enable : Option Bool := none
  /-- Forced lane rate: 0 none, 1 100 Gb/s, 2 200 Gb/s (R329). -/
  laneRate : Option (Fin 3) := none
  deriving DecidableEq, Repr

/-- An entry of the source filter (R449). -/
inductive FilterEntry where
  | ip (prefix_ : BitVec 128) (len : Nat)
  | fid (lo hi : BitVec 16)
  | port (p : PortIx)
  deriving DecidableEq, Repr

/-- An event listener (R450 row 0x0010). -/
inductive Listener where
  | udp (ip : BitVec 128) (port : BitVec 16)
  | fid (f : BitVec 16)
  deriving DecidableEq, Repr

/-- The TARGET of a request: KIND and INDEX (R436). -/
structure Target where
  kind : BitVec 8 := 0
  index : BitVec 24 := 0
  deriving DecidableEq, Repr

/-- Parameters of PPE_SLOT_LOAD (R177). -/
structure SlotParams where
  /-- 0 MATRIX, 1 SEEDED; others are reserved. -/
  kind : Nat
  owner : BitVec 12
  shared : Bool := false
  matrix : BitVec 48 := 0
  seed : BitVec 64 := 0
  gains : BitVec 48 := 0
  /-- 0 AUTO, 1 FIXED; others are reserved. -/
  smode : Nat := 0
  fscale : BitVec 16 := 0x3C00
  deriving DecidableEq, Repr

/-- Time sources (R496). -/
inductive TimeSource where
  | mfp (mask : BitVec 16) | ptp (iface : IfIx) | freeRunning
  deriving DecidableEq, Repr

/-- The four 32-bit terms of FREEZE_TRIGGER (R505). -/
structure TriggerCfg where
  counter : Nat
  /-- 0 GE, 1 LE, 2 DELTA, 3 DISARM; others are reserved. -/
  cmp : Nat
  value : BitVec 64
  index : Option Nat := none
  snapshot : Bool := false
  deriving DecidableEq, Repr

/-- DUMP_CONFIG parameters (R506, R514). -/
structure DumpCfg where
  base : Nat
  size : Nat
  accs : Bool
  sram : Bool
  propagate : Option Nat := none
  faultMask : Option (BitVec 32) := none
  accept : Option Bool := none
  deriving DecidableEq, Repr

/-- A collective's group record as GROUP_DEFINE carries it: 128 bytes (R380). -/
abbrev GroupRecord := BitVec 1024

/-- The unit that walks a job map: C0 to C5, or the hub (R219). -/
abbrev WalkUnit := Fin 7

/-- The causes of a freeze by their codes (R503). -/
inductive FreezeCause where
  | command | trigger | fault | pin | break_ | peer
  deriving DecidableEq, Repr

/-- Thermal regions (R481). -/
inductive Region where
  | compute (d : DieIx) (r : Fin 16) | stack (m : StackIx) | hub (k : Fin 4)
  | pic (k : Fin 4) | eic (k : Fin 4) | ppe
  deriving DecidableEq, Repr

/-- The commands of the block, one for each row of spec/opcode_table.json. -/
inductive Instr where
  -- power, pins and the test port
  | powerUp (mv : Nat) (b : BootResult)
  | inputUndervoltage (mv : Nat)
  | inputOvervoltage (mv : Nat)
  | railFault
  | resetNAssert
  | resetNRelease (b : BootResult)
  | bootWatchdog (b : BootResult)
  | ready
  | freezeInNFall
  | jtagBypass
  | jtagIdcode
  | jtagSamplePreload (preload : BitVec 37)
  | jtagExtest
  -- sequencer moves and events
  | jump (t : TileIx) (w : MoveWord)
  | branch (t : TileIx) (w : MoveWord)
  | loop (t : TileIx) (w : MoveWord)
  | call (t : TileIx) (w : MoveWord)
  | return_ (t : TileIx) (w : MoveWord)
  | halt (t : TileIx) (w : MoveWord)
  | parkWake (t : TileIx)
  | waitTally (t : TileIx) (w : MoveWord)
  | waitSatisfied (t : TileIx)
  | waitTimeout (t : TileIx)
  | waitEpoch (t : TileIx) (w : MoveWord)
  | yield_ (t : TileIx) (w : MoveWord)
  | salu (t : TileIx) (w : MoveWord)
  | tset (t : TileIx) (w : MoveWord)
  | tadd (t : TileIx) (w : MoveWord)
  | scmp (t : TileIx) (w : MoveWord)
  | sldi (t : TileIx) (w : MoveWord)
  | sld (t : TileIx) (w : MoveWord)
  | sst (t : TileIx) (w : MoveWord)
  | sread (t : TileIx) (w : MoveWord)
  | moveReservedOpcode (t : TileIx) (w : MoveWord)
  -- array moves and events
  | loadStationary (t : TileIx) (w : MoveWord)
  | loadStallEnd (t : TileIx)
  | pass (t : TileIx) (w : MoveWord)
  | passSplit (t : TileIx) (w : MoveWord)
  | passStart (t : TileIx)
  | attemptOverflow (t : TileIx) (q : Option QuadIx)
  | arrayFault (t : TileIx) (cause : ArrayCause) (q : QuadIx) (rook : Bool)
  | handshakeTimeout (t : TileIx) (q : QuadIx) (rook : Bool)
  | passCommit (t : TileIx)
  | quadrantCommit (t : TileIx) (q : QuadIx)
  | drain (t : TileIx) (w : MoveWord)
  | clear (t : TileIx) (w : MoveWord)
  | castle (t : TileIx) (w : MoveWord)
  | uncastle (t : TileIx) (w : MoveWord)
  -- MV unit, vector unit, copy engine
  | mvPass (t : TileIx) (w : MoveWord)
  | vop (t : TileIx) (w : MoveWord)
  | reduce (t : TileIx) (w : MoveWord)
  | copy (t : TileIx) (w : MoveWord)
  | put (t : TileIx) (w : MoveWord)
  | get (t : TileIx) (w : MoveWord)
  | atomic (t : TileIx) (w : MoveWord)
  | signal (t : TileIx) (w : MoveWord)
  | fence (t : TileIx) (w : MoveWord)
  | project (t : TileIx) (w : MoveWord)
  | collIssue (t : TileIx) (w : MoveWord)
  | periodMark (t : TileIx) (w : MoveWord)
  | trace (t : TileIx) (w : MoveWord)
  | break_ (t : TileIx) (w : MoveWord)
  | moveCompletion (t : TileIx) (id : Nat)
  /-- `errs`: lines this granule's reads find in error, with their number of symbols in error (R207). -/
  | granuleWritten (t : TileIx) (id : Nat) (errs : List (Nat × Nat))
  -- translation and memory
  | walkComplete (u : WalkUnit) (job : BitVec 12) (addr : BitVec 48) (write : Bool) (mv : Option (TileIx × Nat))
  | holdTimeout (t : TileIx) (id : Nat)
  | wcbAgeFlush (m : StackIx)
  | bankRefresh (m : StackIx) (bank : Nat)
  | eccCorrectedWriteback (m : StackIx) (line : Nat)
  | rowRepair (m : StackIx) (bank row : Nat)
  -- jobs and periods
  | tilePrepared (t : TileIx)
  | saveComplete (job : BitVec 12)
  | restoreComplete (job : BitVec 12)
  | periodStart (job : BitVec 12)
  | check (job : BitVec 12)
  | flagFall (job : BitVec 12)
  | lend (job : BitVec 12)
  | reclaim (job : BitVec 12)
  -- fabric endpoint
  | requestPut (p : Option PortIx) (q : Request)
  | requestGet (p : Option PortIx) (q : Request)
  | requestAtomic (p : Option PortIx) (q : Request)
  | requestSignal (p : Option PortIx) (q : Request)
  | getData (seq : BitVec 24) (ce : Bool) (payload : List Byte)
  | atomicReply (seq : BitVec 24) (ce : Bool) (old : BitVec 64)
  | receipt (entries : List ReceiptEntry)
  | nak (src : BitVec 16) (entries : List (BitVec 24 × BitVec 8))
  | lost (reporter : BitVec 16) (rport : BitVec 4) (seqs : List (BitVec 24))
  | lowMark (src : BitVec 16) (low : BitVec 24)
  | control (p : PortIx) (src dst : BitVec 16) (pkt : List Byte)
  | congMap (src : BitVec 16) (record : List Byte)
  -- escrow
  | grant (p : PortIx) (key : EscrowKey) (slots : Nat) (ordered : Bool)
  | refuse (p : PortIx) (key : EscrowKey) (reason : BitVec 8)
  | result (p : PortIx) (key : EscrowKey) (round : BitVec 8) (offset : Nat) (payload : List Byte)
  | released (p : PortIx) (key : EscrowKey)
  -- router and links
  | headFlit (p : Option PortIx) (vc : VcIx) (head : BitVec 256) (payload : List (BitVec 256))
  | vcAllocation (p : Option PortIx) (vc : VcIx)
  | credit (p : PortIx) (freed : Vector (BitVec 16) 12)
  | creditInit (p : PortIx) (sizes : Vector (BitVec 16) 12)
  | freezeFlit (p : PortIx) (f : FreezeFlit)
  | reservedLinkControl (p : PortIx) (kind : BitVec 8)
  | ack (p : PortIx) (fsn : BitVec 16)
  | retry (p : PortIx) (fsn : BitVec 16)
  | swap (p : PortIx) (m : SwapMsg)
  | swapAck (p : PortIx) (m : SwapMsg)
  | swapAt (p : PortIx) (d : Dir)
  | laneBlock (p : PortIx) (lane : LaneIx) (b : LaneBlock)
  | retryRepeat (p : PortIx)
  | ackTimer (p : PortIx)
  | creditTimer (p : PortIx)
  | laneFailure (p : PortIx) (d : Dir) (lane : LaneIx) (cause : LaneCause)
  | toneRecheck (p : PortIx) (d : Dir) (lane : LaneIx) (r : RingResult)
  | laneRecovery (p : PortIx) (d : Dir) (lane : LaneIx)
  | peerPresent (p : PortIx) (waves : BitVec 9)
  | ringLock (p : PortIx) (d : Dir) (lane : LaneIx) (r : RingResult)
  | trainTimeout (p : PortIx)
  | peerRetrain (p : PortIx)
  | portDown (p : PortIx) (reason : DownReason)
  | stalemate (p : Option PortIx) (vc : VcIx)
  | ceWait (p : Option PortIx) (vc : VcIx)
  | occupancyUpdate
  | histogramSample
  | congMapSend
  | receiptFlush (src : BitVec 16)
  | retransmitTimeout (seq : BitVec 24)
  | backoffExpiry (seq : BitVec 24)
  | abandon (seq : BitVec 24)
  | lowMarkTimer (dst : BitVec 16)
  | rateRaise (dst : BitVec 16)
  -- laser cartridges
  | hotJoin (b : BayIx)
  | i3cPoll (b : BayIx) (status : Option (BitVec 32))
  | wdogWrite
  | authentication (b : BayIx) (c : CartId)
  | authTimeout (b : BayIx)
  | rampingEnd (b : BayIx) (lasers : List LaserReading)
  | commissioning (b : BayIx)
  | fadeSample (b : BayIx) (lasers : List LaserReading) (temp : Int)
  | failureSample (b : BayIx) (j : Fin 9) (d : Int)
  | ledgerCommit (b : BayIx) (busy : Bool)
  | drainComplete (b : BayIx)
  -- projection engine
  | batchStart
  | batchComplete (dark : List Nat)
  | slotTurn
  | reprogramDone
  | slotLoadDone (slot : SlotIx)
  | driftUpdate (est : Nat)
  | calibrationDone (pass : Bool) (dead : List (Fin 128))
  | switchover
  | switchoverLight
  -- collectives
  | collComplete (group : BitVec 16) (seq : BitVec 32)
  | collTimeout (group : BitVec 16) (seq : BitVec 32)
  | escWaitExpiry (p : PortIx) (key : EscrowKey)
  | escrowBackoff (p : PortIx) (key : EscrowKey)
  | escTimeout (p : PortIx) (key : EscrowKey)
  -- host Ethernet
  | frameReceived (i : IfIx) (f : Frame)
  | ptpMessage (i : IfIx) (stamp : BitVec 64)
  | controlFrame (i : IfIx) (dhcp : Option (BitVec 32))
  | roceRequest (i : IfIx) (q : RoceReq)
  | roceAck (qpn : Nat) (a : RoceAnswer)
  | cnp (qpn : Nat)
  | pfcFrame (h : HostIx) (pause : BitVec 8)
  | pfcWatchdog (h : HostIx) (prio : Fin 8)
  | doorbellPoll (qpn : Nat)
  | localAckTimeout (qpn : Nat)
  | rnrTimer (qpn : Nat)
  | rateTimer (qpn : Nat)
  | addressChange (i : IfIx) (ix : Fin 8) (addr : Option (BitVec 128))
  -- temperature, power, time
  | sensorSample (r : Region) (readings : List (Option Int))
  | thermalLimitStep (d : DieIx) (r : Fin 16)
  | hubThrottleStep
  | opticalRetrainStep (e : Fin 4)
  | powerSample (mw : Nat) (mv : Nat)
  | overcurrent
  | overcurrentRelease
  | voltageStepDone (d : DieIx) (r : Fin 16)
  | timeExchange
  | pingReply (t1 t2 : BitVec 64) (state : BitVec 8) (stratum : BitVec 8)
  | missedExchange
  | ptpSync (offset : Int)
  -- freeze and counters
  | triggerFire (ix : Fin 8)
  | freezeStart (cause : FreezeCause) (tag : BitVec 32)
  | scanOutComplete
  | releaseTest
  -- ZCP transport
  | zcpFragment (src : ZcpSrc) (pkt : List Byte)
  | reassemblyTimeout (src : ZcpSrc) (seq : BitVec 32)
  | interimReply (src : ZcpSrc) (seq : BitVec 32)
  | lockExpiry
  -- ZCP commands
  | deviceInfo (r : ZcpReq)
  | capRead (r : ZcpReq) (offset len : Nat)
  | ping (r : ZcpReq) (data : List Byte) (stamp : BitVec 64)
  | eventRegister (r : ZcpReq) (l : Listener) (mask : BitVec 32)
  | eventDeregister (r : ZcpReq) (ix : Nat)
  | eventRead (r : ZcpReq) (first : BitVec 32) (count : Nat)
  | hostConfig (r : ZcpReq) (i : IfIx) (c : HostCfg)
  | hostStatus (r : ZcpReq) (i : IfIx)
  | mgmtLock (r : ZcpReq) (lease : Nat)
  | mgmtUnlock (r : ZcpReq) (force : Bool)
  | sourceFilter (r : ZcpReq) (es : List FilterEntry)
  | sourceFilterRead (r : ZcpReq)
  | jobLoad (r : ZcpReq) (job : BitVec 12) (p : JobParams)
  | jobStart (r : ZcpReq) (job : BitVec 12)
  | jobStop (r : ZcpReq) (job : BitVec 12)
  | jobUnload (r : ZcpReq) (job : BitVec 12)
  | jobResume (r : ZcpReq) (job : BitVec 12) (a : ResumeAction) (tile : Option TileIx)
  | jobPreempt (r : ZcpReq) (job : BitVec 12) (urgent : Bool) (prio : Option Nat)
  | jobStatus (r : ZcpReq) (job : BitVec 12)
  | faultRead (r : ZcpReq) (job : BitVec 12) (count : Nat)
  | periodReportRead (r : ZcpReq) (job : BitVec 12) (first : Nat) (count : Nat)
  | breakArm (r : ZcpReq) (job : BitVec 12) (armed : Bool)
  | mapRange (r : ZcpReq) (job : BitVec 12) (addr : Nat) (len : Nat) (phys : Nat) (page : Nat) (rd wr : Bool)
  | unmapRange (r : ZcpReq) (job : BitVec 12) (addr : Nat) (len : Nat)
  | protectRange (r : ZcpReq) (job : BitVec 12) (addr : Nat) (len : Nat) (rd wr : Bool)
  | mapRead (r : ZcpReq) (job : BitVec 12) (addr : BitVec 48)
  | memFlush (r : ZcpReq) (m : StackIx) (range : Option (Nat × Nat))
  | memStatus (r : ZcpReq) (m : StackIx)
  | mrRegister (r : ZcpReq) (job : BitVec 12) (base : Nat) (len : Nat) (rights : BitVec 3)
  | mrDeregister (r : ZcpReq) (job : BitVec 12) (rkey : BitVec 32)
  | qpCreate (r : ZcpReq) (job : BitVec 12) (p : QpParams)
  | qpModify (r : ZcpReq) (qpn : Nat) (st : QpState) (attr : Option QpParams)
  | qpDestroy (r : ZcpReq) (qpn : Nat)
  | qpDoorbell (r : ZcpReq) (qpn : Nat)
  | qpQuery (r : ZcpReq) (qpn : Nat)
  | planLoad (r : ZcpReq) (plan : List Byte)
  | planRead (r : ZcpReq)
  | planAccept (r : ZcpReq) (p : PortIx)
  | fabricConfig (r : ZcpReq) (p : Option PortIx) (c : FabCfg)
  | portStatus (r : ZcpReq) (p : PortIx)
  | portRetrain (r : ZcpReq) (p : PortIx)
  | routeWrite (r : ZcpReq) (first : Nat) (es : List (BitVec 64))
  | routeRead (r : ZcpReq) (first count : Nat)
  | windowOpen (r : ZcpReq) (ix : Nat) (e : BitVec 256)
  | windowClose (r : ZcpReq) (ix : Nat)
  | windowRead (r : ZcpReq) (ix : Nat)
  | fabricCongRead (r : ZcpReq)
  | topoLoad (r : ZcpReq) (job : BitVec 12) (naxes : Nat) (sizes : List Nat) (first : Nat) (fids : List (BitVec 16))
  | groupDefine (r : ZcpReq) (g : GroupRecord)
  | groupDelete (r : ZcpReq) (g : BitVec 16)
  | groupRead (r : ZcpReq) (g : BitVec 16)
  | collStatus (r : ZcpReq) (g : Option (BitVec 16)) (count : Nat)
  | cartStatus (r : ZcpReq) (b : BayIx)
  | cartLedgerRead (r : ZcpReq) (b : BayIx)
  | cartDrain (r : ZcpReq) (b : BayIx)
  | cartResume (r : ZcpReq) (b : BayIx)
  | cartReauth (r : ZcpReq) (b : BayIx)
  | ppeSlotLoad (r : ZcpReq) (slot : Nat) (p : SlotParams)
  | ppeSlotClear (r : ZcpReq) (slot : SlotIx)
  | ppeStatus (r : ZcpReq) (slot : Option SlotIx)
  | ppeCalibrate (r : ZcpReq)
  | thermalStatus (r : ZcpReq) (tgt : Target)
  | powerStatus (r : ZcpReq)
  | powerCapSet (r : ZcpReq) (cap : Nat) (setpoints : Option (Vector (BitVec 8) 6))
  | timeRead (r : ZcpReq)
  | timeConfig (r : ZcpReq) (src : TimeSource) (initial : Option (BitVec 64))
  | freeze (r : ZcpReq) (tag : BitVec 32)
  | thaw (r : ZcpReq) (at_ : Option (BitVec 64))
  | freezeTrigger (r : ZcpReq) (c : TriggerCfg)
  | dumpConfig (r : ZcpReq) (c : DumpCfg)
  | dumpRead (r : ZcpReq) (offset len : Nat)
  | counterCatalogue (r : ZcpReq) (first count : Nat)
  | counterRead (r : ZcpReq) (first count : Nat)
  | counterSnapshot (r : ZcpReq)
  | snapshotRead (r : ZcpReq) (first count : Nat)
  | flagRead (r : ZcpReq)
  | flagClear (r : ZcpReq) (tgt : Target) (flag : BitVec 16)
  | audit (r : ZcpReq) (p : PortIx) (vc : Nat)
  | attest (r : ZcpReq) (nonce : List Byte) (ids : List Nat)
  | certRead (r : ZcpReq)
  | measureRead (r : ZcpReq)
  | fwStatus (r : ZcpReq)
  | fwWrite (r : ZcpReq) (offset : Nat) (data : List Byte)
  | fwVerify (r : ZcpReq)
  | fwActivate (r : ZcpReq)
  | moduleRestart (r : ZcpReq)
  | zcpUnknownOpcode (r : ZcpReq) (op : BitVec 16)
  -- further events
  | inputBackInRange (mv : Nat) (b : BootResult)
  | slotIdChange (pins : BitVec 4)
  | trainingSequence (p : PortIx) (step : Nat) (id : Identity) (idents : Vector LaneIdent 9) (roundTrip : Nat)
  | equaliseComplete (p : PortIx) (pass200 pass100 : BitVec 9) (peerRate100 : Bool)
  | trainingRetry (p : PortIx)
  | hostLinkChange (i : IfIx) (up : Bool)
  deriving DecidableEq, Repr

end Sys2Proof
end

