-- ==== Sys2Proof/Machine/Names.lean ====
section
/-! DEFINITION. The names the spec gives to codes: statuses, flags, events, NAK reasons, freeze causes, and every
counter of the counter catalogue with its dotted name, kind and unit (R451, R455, R457, R290, R522, R523). -/

namespace Sys2Proof.Machine

/-- Status values of replies and fault records (R451). -/
inductive Status where
  | success | inProgress | malformed | versionUnsupported | opcodeUnknown | paramMissing | paramUnknown
  | reservedValue | lengthRange | alignment | busy | locked | notReady | frozen | freezeHeld | replayEvicted
  | filterSelf | listenerLimit | formatUnsupported | blockMismatch | accOverlap | accKindMismatch
  | accPoisoned | stationaryMismatch | ringUnsupported | castleInvalid | rookBusy | castled | targetRange
  | callDepth | loopDepth | programEnd | notPeriodJob | groupRange | stationaryParity | accUncorrectable
  | handshakeTimeout | ledgerOverflow | notMapped | permission | poison | physRange | stackOffline
  | tileOffline | mapAlign | mapOverlap | tableFull | saveAreaRange | jobUnknown | jobExists | jobLimit
  | jobBusy | groupConflict | periodLimit | periodRange | timeUnsync | jobFaulted | faultTimeout | noFabricId
  | noWindow | windowRange | permDenied | orderDenied | tallyDenied | misaligned | transportTimeout
  | windowExists | windowOwner | windowOverlap | vcSplitRange | portState | topoInvalid | groupInvalid
  | groupExists | groupLimit | groupBusy | groupUnknown | notMember | rootRange | collDuplicate | collLimit
  | collTimeout | qpLimit | mrLimit | qpState | qpUnknown | mrUnknown | bayEmpty | bayState | ppeOffline
  | ppeSlotDenied | ppeSlotBusy | ppeParamRange | notOrthogonal | fwInvalid | fwRollback | fwNotVerified
  | capRange
  deriving DecidableEq, Repr

/-- The 16-bit code of a status (R451). -/
def Status.code : Status → BitVec 16
  | .success => 0x0000
  | .inProgress => 0x0001
  | .malformed => 0x0002
  | .versionUnsupported => 0x0003
  | .opcodeUnknown => 0x0004
  | .paramMissing => 0x0005
  | .paramUnknown => 0x0006
  | .reservedValue => 0x0007
  | .lengthRange => 0x0008
  | .alignment => 0x0009
  | .busy => 0x000A
  | .locked => 0x000B
  | .notReady => 0x000C
  | .frozen => 0x000D
  | .freezeHeld => 0x000E
  | .replayEvicted => 0x000F
  | .filterSelf => 0x0010
  | .listenerLimit => 0x0011
  | .formatUnsupported => 0x0020
  | .blockMismatch => 0x0021
  | .accOverlap => 0x0022
  | .accKindMismatch => 0x0023
  | .accPoisoned => 0x0024
  | .stationaryMismatch => 0x0025
  | .ringUnsupported => 0x0026
  | .castleInvalid => 0x0027
  | .rookBusy => 0x0028
  | .castled => 0x0029
  | .targetRange => 0x002A
  | .callDepth => 0x002B
  | .loopDepth => 0x002C
  | .programEnd => 0x002D
  | .notPeriodJob => 0x002E
  | .groupRange => 0x002F
  | .stationaryParity => 0x0040
  | .accUncorrectable => 0x0041
  | .handshakeTimeout => 0x0042
  | .ledgerOverflow => 0x0043
  | .notMapped => 0x0050
  | .permission => 0x0051
  | .poison => 0x0052
  | .physRange => 0x0053
  | .stackOffline => 0x0054
  | .tileOffline => 0x0055
  | .mapAlign => 0x0056
  | .mapOverlap => 0x0057
  | .tableFull => 0x0058
  | .saveAreaRange => 0x0059
  | .jobUnknown => 0x0060
  | .jobExists => 0x0061
  | .jobLimit => 0x0062
  | .jobBusy => 0x0063
  | .groupConflict => 0x0064
  | .periodLimit => 0x0065
  | .periodRange => 0x0066
  | .timeUnsync => 0x0067
  | .jobFaulted => 0x0068
  | .faultTimeout => 0x0069
  | .noFabricId => 0x0080
  | .noWindow => 0x0081
  | .windowRange => 0x0082
  | .permDenied => 0x0083
  | .orderDenied => 0x0084
  | .tallyDenied => 0x0085
  | .misaligned => 0x0086
  | .transportTimeout => 0x0087
  | .windowExists => 0x0088
  | .windowOwner => 0x0089
  | .windowOverlap => 0x008A
  | .vcSplitRange => 0x008B
  | .portState => 0x008C
  | .topoInvalid => 0x00A0
  | .groupInvalid => 0x00A1
  | .groupExists => 0x00A2
  | .groupLimit => 0x00A3
  | .groupBusy => 0x00A4
  | .groupUnknown => 0x00A5
  | .notMember => 0x00A6
  | .rootRange => 0x00A7
  | .collDuplicate => 0x00A8
  | .collLimit => 0x00A9
  | .collTimeout => 0x00AA
  | .qpLimit => 0x00C0
  | .mrLimit => 0x00C1
  | .qpState => 0x00C2
  | .qpUnknown => 0x00C3
  | .mrUnknown => 0x00C4
  | .bayEmpty => 0x00D0
  | .bayState => 0x00D1
  | .ppeOffline => 0x00D2
  | .ppeSlotDenied => 0x00D3
  | .ppeSlotBusy => 0x00D4
  | .ppeParamRange => 0x00D5
  | .notOrthogonal => 0x00D6
  | .fwInvalid => 0x00E0
  | .fwRollback => 0x00E1
  | .fwNotVerified => 0x00E2
  | .capRange => 0x00F0

/-- Status flags (R455). -/
inductive FlagId where
  | lockForced | hostPfcStorm | memPcFailed | fabSpareLost | fabCabling | collNondet | cartAuthFailed | cartFadeWarn | thermWarning | thermThrottle | sensorSuspect | powerCapped | timeUnsync | freezeOccurred | faultQueueOverflow | fwFallback
  deriving DecidableEq, Repr

/-- The ID of a flag (R455). -/
def FlagId.code : FlagId → BitVec 16
  | .lockForced => 0x0101
  | .hostPfcStorm => 0x0102
  | .memPcFailed => 0x0301
  | .fabSpareLost => 0x0401
  | .fabCabling => 0x0402
  | .collNondet => 0x0403
  | .cartAuthFailed => 0x0501
  | .cartFadeWarn => 0x0502
  | .thermWarning => 0x0601
  | .thermThrottle => 0x0602
  | .sensorSuspect => 0x0603
  | .powerCapped => 0x0604
  | .timeUnsync => 0x0605
  | .freezeOccurred => 0x0701
  | .faultQueueOverflow => 0x0702
  | .fwFallback => 0x0901

/-- The flag of an ID (R455). -/
def FlagId.ofCode (c : BitVec 16) : Option FlagId :=
  [.lockForced, .hostPfcStorm, .memPcFailed, .fabSpareLost, .fabCabling, .collNondet, .cartAuthFailed, .cartFadeWarn, .thermWarning, .thermThrottle, .sensorSuspect, .powerCapped, .timeUnsync, .freezeOccurred, .faultQueueOverflow, .fwFallback].find? (fun f => f.code == c)

/-- Instance KINDs a flag uses (R436, R455). -/
def FlagId.kinds : FlagId → List Nat
  | .hostPfcStorm => [5]
  | .memPcFailed => [3]
  | .fabSpareLost | .fabCabling => [4]
  | .cartAuthFailed | .cartFadeWarn => [6]
  | .thermWarning | .thermThrottle => [0, 1, 3]
  | .lockForced | .collNondet | .sensorSuspect | .powerCapped | .timeUnsync | .freezeOccurred
  | .faultQueueOverflow | .fwFallback => [0]

/-- Event codes (R457). -/
inductive EventCode where
  | ready | fault | check | flagFall | jobDone | cabling | cartridge | flag | freeze | thaw | thermal | lock
  deriving DecidableEq, Repr

/-- The CODE of an event (R457). -/
def EventCode.code : EventCode → Nat
  | .ready => 1
  | .fault => 2
  | .check => 3
  | .flagFall => 4
  | .jobDone => 5
  | .cabling => 6
  | .cartridge => 7
  | .flag => 8
  | .freeze => 9
  | .thaw => 10
  | .thermal => 11
  | .lock => 12

/-- Reasons of refusals and drops on the fabric (R290). -/
inductive Reason where
  | malformed | noWindow | windowRange | permDenied | orderDenied | tallyDenied | misaligned | notMapped | permission | poison
  | notPeriodJob | retry | outOfOrder | noRoute | hopBudget | epochExpired | duplicate | lateResponse | malformedUnreadable
  deriving DecidableEq, Repr

/-- The code of a reason (R290). -/
def Reason.code : Reason → BitVec 8
  | .malformed => 0x01
  | .noWindow => 0x02
  | .windowRange => 0x03
  | .permDenied => 0x04
  | .orderDenied => 0x05
  | .tallyDenied => 0x06
  | .misaligned => 0x07
  | .notMapped => 0x08
  | .permission => 0x09
  | .poison => 0x0A
  | .notPeriodJob => 0x0B
  | .retry => 0x10
  | .outOfOrder => 0x11
  | .noRoute => 0x12
  | .hopBudget => 0x13
  | .epochExpired => 0x20
  | .duplicate => 0x21
  | .lateResponse => 0x22
  | .malformedUnreadable => 0x23

/-- The reason of a code; other codes are reserved (R290). -/
def Reason.ofCode (c : BitVec 8) : Option Reason :=
  [.malformed, .noWindow, .windowRange, .permDenied, .orderDenied, .tallyDenied, .misaligned, .notMapped, .permission, .poison,
   .notPeriodJob, .retry, .outOfOrder, .noRoute, .hopBudget, .epochExpired, .duplicate, .lateResponse, .malformedUnreadable].find? (fun f => f.code == c)

/-- A reason in lower case (R290). -/
def Reason.name : Reason → String
  | .malformed => "malformed"
  | .noWindow => "no_window"
  | .windowRange => "window_range"
  | .permDenied => "perm_denied"
  | .orderDenied => "order_denied"
  | .tallyDenied => "tally_denied"
  | .misaligned => "misaligned"
  | .notMapped => "not_mapped"
  | .permission => "permission"
  | .poison => "poison"
  | .notPeriodJob => "not_period_job"
  | .retry => "retry"
  | .outOfOrder => "out_of_order"
  | .noRoute => "no_route"
  | .hopBudget => "hop_budget"
  | .epochExpired => "epoch_expired"
  | .duplicate => "duplicate"
  | .lateResponse => "late_response"
  | .malformedUnreadable => "malformed_unreadable"

/-- The code of a freeze cause (R503). -/
def freezeCode : FreezeCause → Nat
  | .command => 0 | .trigger => 1 | .fault => 2 | .pin => 3 | .break_ => 4 | .peer => 5

/-- A freeze cause in lower case (R503), by its code. -/
def freezeName (k : Nat) : String :=
  ["command", "trigger", "fault", "pin", "break", "peer"].getD k ""

/-- The class and channel of a VC, as counters name it (R295, R319). -/
def vcName (v : Nat) : String :=
  ["req", "rsp", "col", "per"].getD (v / 3) "" ++ "." ++ ["a", "e0", "e1"].getD (v % 3) ""

/-- The dotted name of a thermal region by its index (R481, R502): 16 d + r, then stacks, hub quadrants, PICs, EICs, PPE. -/
def regionName (k : Nat) : String :=
  if k < 96 then "c" ++ toString (k / 16) ++ ".r" ++ toString (k % 16)
  else if k < 120 then "m" ++ toString (k - 96)
  else if k < 124 then "hub.q" ++ toString (k - 120)
  else if k < 128 then "e" ++ toString (k - 124) ++ ".pic"
  else if k < 132 then "e" ++ toString (k - 128) ++ ".eic"
  else "ppe"

/-- The translation unit, C0 to C5 or the hub (R239). -/
def unitName (u : Nat) : String := if u < 6 then "c" ++ toString u else "hub"

/-- Ring links by index, named as in R14; the one that R19 gives as its example is written as there (log 39). -/
def ringName (k : Nat) : String := ["c0_c1", "c1_c2", "c2_c5", "c5_c4", "c4_c3", "c0_c3"].getD k ""

/-- Training steps with a limit (R346) by their number, as train_fail names them. -/
def stepName (k : Nat) : String :=
  ["down", "light", "lock", "equalise", "identity", "peer", "plan", "fec", "credit", "active"].getD k ""

/-- The counters that the spec names, without their instance numbers (R522, R523). -/
inductive CtrId where
  | tileArrayPasses | tileArrayBusySteps | tileArrayLoadSteps | tileArrayStarveSteps | tileArrayRefused
  | tileArrayAbandoned | tileArrayRescaleRepeats | tileArrayA32Fallbacks | tileArrayRingNotAbandoned
  | tileQuadPasses | tileQuadFaults | tileQuadRescaleRepeats | tileQuadA32Fallbacks | tileCastleEvents
  | tileCastleRefused | tileMvWeights | tileMvStarveSteps | tileVecOps | tileSramWaitSteps | tileSramCorrected
  | tileSramUncorrectable | tileCvtSaturated | tileCvtNanLost | tileCvtPa6Invalid | tileCvtAx96Invalid
  | tileT2InvalidCode | tileBlockNanScale | tileAccEscalated | tileAccPrescaleRounded | tileAccA32Overflow
  | tileAccInt32Wrapped | tileAccRefusedAtStart | tileAccPoisonDrained | tileLedgerAnchorRepeats
  | tileLedgerDustEvents | tileLedgerCeilingExceeded | tileLedgerOverflowFaults | tileSeqMoves | tileSeqRefused
  | tileSeqQueueFullSteps | tileSeqWaitSteps | tileSeqWaitTimeouts | tileSeqFlagFallRestarts
  | tileSeqBreakIgnored | tileSeqTraceDropped | tileTallySaturated | tileTallySets | tileTallyAdded
  | tileTallyConsumed | tileTallyReset | tileTallySaved | tileTallyRestored | tileTallySum
  | boardFreezeInEvents | boardSlotIdChanged | bootHbmNs | bootSelftestNs | bootCartridgeNs | bootEthernetNs
  | bootFabricNs | bootTotalNs | fwBytes | fwVerifyFailed | fwWrites | secAttestWaitNs | secAttests
  | secConfigExtends | ctlWriteToRo | cartFadeWarnings | cartAuthFailures | cartI3cErrors | cartInsertions
  | cartLedgerCommits | cartLedgerErrors | cartRemovalsUndrained | cartSpareIns | cartWdogTrips | cartInputHigh
  | cartLowInput | collIssued | collCompleted | collRefused | collGroupRefused | collAdmitted
  | collAdmitRefused | collAdmitNoGroup | collStagingFull | collFrameWaitNs | collDefMismatch | collAlgoSwitch
  | collAlgoDoubling | collAlgoHalving | collAlgoTree | collAlgoPairwise | collTxBytes | collRxBytes
  | collEscRequests | collEscGrants | collEscRefusals | collEscPartialGrants | collEscUnordered
  | collEscFallbacks | collEscWaitNs | collEscTimeouts | collEscStale | collEscGrantedBook | collEscHeldBook
  | collEscRequestedBook | collNondet | collTimeouts | collFlagFallDiscarded | collAx96Invalid | ctxRestoreNs
  | ctxRestores | ctxSaveNs | ctxSaves | d2dBytes | d2dOccupancy | dbgFreezes | dbgFreezeIgnored
  | dbgFreezeFlitsIgnored | dbgTriggersFired | dbgScanoutNs | dbgScanoutSkipped | dbgThawRefused
  | dbgThawNotFrozen | dbgSnapshots | fabAtomicBackpressureNs | fabAtomicCas | fabAtomicCombined | fabAtomicOps
  | fabConfigRefused | fabCongRateCuts | fabDedupFull | fabDedupOccupancy | fabDrop | fabEpStalemateForced
  | fabLowMarks | fabNak | fabNakRx | fabOrtAbandoned | fabOrtFullNs | fabOrtIssued | fabOrtLive
  | fabOrtReceipted | fabRCongMaps | fabRLostNamed | fabRRspMalformed | fabRRspUnroutable | fabRTransitRefused
  | fabRxBytes | fabRxPackets | fabRxReceiptStale | fabTxBytes | fabTxPackets | fabTxRetransmitBackoff
  | fabTxRetransmitLost | fabTxRetransmitOrder | fabTxRetransmitTimeout | fabTxSeqWindowNs
  | fabWindowOpenRefused | fabPortAdaptive | fabPortAuditFail | fabPortAudits | fabPortCeMarked
  | fabPortCrcErrors | fabPortCreditError | fabPortCreditStallNs | fabPortDegradedNs | fabPortDown
  | fabPortEscape | fabPortFecCorrected | fabPortFreezeNotSent | fabPortHeld | fabPortHeldDiscarded
  | fabPortLcReserved | fabPortLostResponses | fabPortRetries | fabPortRetryFullNs | fabPortRevBelowMax
  | fabPortRxFlits | fabPortRxTruncated | fabPortStalemateForced | fabPortSwaps | fabPortTrainFail
  | fabPortTrainings | fabPortTxFlits | fabPortVcOccupancy | fabPortLaneFailures | fabPortLaneFecCorrected
  | fabPortLaneFecUncorrectable | fabPortLaneMislock | fabPortLaneToneAbsent | fabPortLanePreFecBer
  | faultNotMapped | faultPermission | faultPoison | faultQueueDropped | faultRefaults | faultTimeouts
  | hostFecCorrected | hostFecUncorrectable | hostPfcRxXoff | hostPfcTxXoff | hostPfcWatchdog | hostRxBytes
  | hostRxControl | hostRxControlLimited | hostRxFcsErrors | hostRxFragment | hostRxFrames
  | hostRxFreezeDropped | hostRxOversize | hostRxPauseDiscarded | hostRxPtp | hostRxRoce | hostRxUnclaimed
  | hostRxZcp | hostTxBytes | hostTxFrames | hostTxLaserGapFrames | jobLoadRefused | jobLoads | jobPreemptLate
  | jobPreemptions | jobPreemptionsUrgent | memEccCorrected | memEccPoisonReads | memEccUncorrectable
  | memOccupancy | memPcSpared | memPcWritesDiscarded | memReadBytes | memWriteBytes | memRefreshDoubledNs
  | memRepairExhausted | memRepairRows | memRfm | memThrottleNs | memWcbFlushAge | memWcbFlushEvict
  | memWcbFlushFence | memWcbFlushFull | memWcbHits | memWcbMerges | memWcbRmw | memWcbRmwPoisoned
  | memMapRefused | periodChecks | periodEpoch | periodFlagFalls | periodLate | periodLateStarts | periodLends
  | periodMovesDiscarded | periodWritesDiscarded | ppeCalibrationFailures | ppeCalibrations | ppeClipped
  | ppeDeadOutputs | ppeDriftExceeded | ppeDriftUpdates | ppeEpochDiscarded | ppeErrEstimate
  | ppeFlagFallDropped | ppeInvalidDark | ppeInvalidInput | ppeInvalidState | ppePilots | ppeQueueFullNs
  | ppeReprograms | ppeScaleSaturated | ppeSlotRefused | ppeSwitchovers | ppeVectors | pwrCapActs | pwrCappedNs
  | pwrEnergyMj | pwrHoldNs | pwrInputHighNs | pwrInputLowNs | pwrOvercurrentHolds | rdmaCnpRx | rdmaCnpTx
  | rdmaCompletions | rdmaInboundAtomic | rdmaNakAccess | rdmaNakInvalid | rdmaNakOperational | rdmaNakRnr
  | rdmaQpErrors | rdmaRefused | rdmaReorderFull | rdmaRetransmits | thermHoldNs | thermRorTrips
  | thermThrottleNs | thermThrottles | thermSensorFailed | thermSensorSuspect | timeExchanges | timeHoldoverNs
  | timeMissed | timeOffset | timeSteps | xlatHits | xlatMisses | xlatWalkReads | xlatWalkWaitNs | xlatWalks
  | xlatMalformed | xlatShootdowns | zcpBusy | zcpEventDropped | zcpFiltered | zcpRefused | zcpReplayDuplicates
  | zcpReplaySourceEvicted | zcpRxBadMagic | zcpRxReassemblyTimeout | zcpRxUnexpected
  deriving DecidableEq, Repr

/-- A counter ID's meaning: the counter, its first and second instance number, and the bin of a histogram. -/
structure CtrKey where
  id : CtrId
  i : Nat := 0
  j : Nat := 0
  bin : Nat := 0
  deriving DecidableEq, Repr

/-- The name of a reason by its code. -/
def reasonName (k : Nat) : String := ((Reason.ofCode (BitVec.ofNat 8 k)).map Reason.name).getD ""

/-- The dotted name of a counter, under the name the spec gives it (R522, R523). -/
def CtrId.name (i j : Nat) : CtrId → String
  | .tileArrayPasses => "tile.c" ++ toString i ++ ".array.passes"
  | .tileArrayBusySteps => "tile.c" ++ toString i ++ ".array.busy_steps"
  | .tileArrayLoadSteps => "tile.c" ++ toString i ++ ".array.load_steps"
  | .tileArrayStarveSteps => "tile.c" ++ toString i ++ ".array.starve_steps"
  | .tileArrayRefused => "tile.c" ++ toString i ++ ".array.refused"
  | .tileArrayAbandoned => "tile.c" ++ toString i ++ ".array.abandoned"
  | .tileArrayRescaleRepeats => "tile.c" ++ toString i ++ ".array.rescale_repeats"
  | .tileArrayA32Fallbacks => "tile.c" ++ toString i ++ ".array.a32_fallbacks"
  | .tileArrayRingNotAbandoned => "tile.c" ++ toString i ++ ".array.ring_not_abandoned"
  | .tileQuadPasses => "tile.c" ++ toString i ++ ".q" ++ toString j ++ ".passes"
  | .tileQuadFaults => "tile.c" ++ toString i ++ ".q" ++ toString j ++ ".faults"
  | .tileQuadRescaleRepeats => "tile.c" ++ toString i ++ ".q" ++ toString j ++ ".rescale_repeats"
  | .tileQuadA32Fallbacks => "tile.c" ++ toString i ++ ".q" ++ toString j ++ ".a32_fallbacks"
  | .tileCastleEvents => "tile.c" ++ toString i ++ ".castle.events"
  | .tileCastleRefused => "tile.c" ++ toString i ++ ".castle.refused"
  | .tileMvWeights => "tile.c" ++ toString i ++ ".mv.weights"
  | .tileMvStarveSteps => "tile.c" ++ toString i ++ ".mv.starve_steps"
  | .tileVecOps => "tile.c" ++ toString i ++ ".vec.ops"
  | .tileSramWaitSteps => "tile.c" ++ toString i ++ ".sram_wait_steps"
  | .tileSramCorrected => "tile.c" ++ toString i ++ ".sram.corrected"
  | .tileSramUncorrectable => "tile.c" ++ toString i ++ ".sram.uncorrectable"
  | .tileCvtSaturated => "tile.c" ++ toString i ++ ".cvt.saturated"
  | .tileCvtNanLost => "tile.c" ++ toString i ++ ".cvt.nan_lost"
  | .tileCvtPa6Invalid => "tile.c" ++ toString i ++ ".cvt.pa6_invalid"
  | .tileCvtAx96Invalid => "tile.c" ++ toString i ++ ".cvt.ax96_invalid"
  | .tileT2InvalidCode => "tile.c" ++ toString i ++ ".t2.invalid_code"
  | .tileBlockNanScale => "tile.c" ++ toString i ++ ".block.nan_scale"
  | .tileAccEscalated => "tile.c" ++ toString i ++ ".acc.escalated"
  | .tileAccPrescaleRounded => "tile.c" ++ toString i ++ ".acc.prescale_rounded"
  | .tileAccA32Overflow => "tile.c" ++ toString i ++ ".acc.a32_overflow"
  | .tileAccInt32Wrapped => "tile.c" ++ toString i ++ ".acc.int32_wrapped"
  | .tileAccRefusedAtStart => "tile.c" ++ toString i ++ ".acc.refused_at_start"
  | .tileAccPoisonDrained => "tile.c" ++ toString i ++ ".acc.poison_drained"
  | .tileLedgerAnchorRepeats => "tile.c" ++ toString i ++ ".ledger.anchor_repeats"
  | .tileLedgerDustEvents => "tile.c" ++ toString i ++ ".ledger.dust_events"
  | .tileLedgerCeilingExceeded => "tile.c" ++ toString i ++ ".ledger.ceiling_exceeded"
  | .tileLedgerOverflowFaults => "tile.c" ++ toString i ++ ".ledger.overflow_faults"
  | .tileSeqMoves => "tile.c" ++ toString i ++ ".seq.moves"
  | .tileSeqRefused => "tile.c" ++ toString i ++ ".seq.refused"
  | .tileSeqQueueFullSteps => "tile.c" ++ toString i ++ ".seq.queue_full_steps"
  | .tileSeqWaitSteps => "tile.c" ++ toString i ++ ".seq.wait_steps"
  | .tileSeqWaitTimeouts => "tile.c" ++ toString i ++ ".seq.wait_timeouts"
  | .tileSeqFlagFallRestarts => "tile.c" ++ toString i ++ ".seq.flag_fall_restarts"
  | .tileSeqBreakIgnored => "tile.c" ++ toString i ++ ".seq.break_ignored"
  | .tileSeqTraceDropped => "tile.c" ++ toString i ++ ".seq.trace_dropped"
  | .tileTallySaturated => "tile.c" ++ toString i ++ ".tally.saturated"
  | .tileTallySets => "tile.c" ++ toString i ++ ".tally.sets"
  | .tileTallyAdded => "tile.c" ++ toString i ++ ".tally.added"
  | .tileTallyConsumed => "tile.c" ++ toString i ++ ".tally.consumed"
  | .tileTallyReset => "tile.c" ++ toString i ++ ".tally.reset"
  | .tileTallySaved => "tile.c" ++ toString i ++ ".tally.saved"
  | .tileTallyRestored => "tile.c" ++ toString i ++ ".tally.restored"
  | .tileTallySum => "tile.c" ++ toString i ++ ".tally.sum"
  | .boardFreezeInEvents => "board.freeze_in.events"
  | .boardSlotIdChanged => "board.slot_id_changed"
  | .bootHbmNs => "boot.hbm_ns"
  | .bootSelftestNs => "boot.selftest_ns"
  | .bootCartridgeNs => "boot.cartridge_ns"
  | .bootEthernetNs => "boot.ethernet_ns"
  | .bootFabricNs => "boot.fabric_ns"
  | .bootTotalNs => "boot.total_ns"
  | .fwBytes => "fw.bytes"
  | .fwVerifyFailed => "fw.verify_failed"
  | .fwWrites => "fw.writes"
  | .secAttestWaitNs => "sec.attest_wait_ns"
  | .secAttests => "sec.attests"
  | .secConfigExtends => "sec.config_extends"
  | .ctlWriteToRo => "ctl.write_to_ro"
  | .cartFadeWarnings => "cart.b" ++ toString i ++ ".fade_warnings"
  | .cartAuthFailures => "cart.b" ++ toString i ++ ".auth_failures"
  | .cartI3cErrors => "cart.b" ++ toString i ++ ".i3c_errors"
  | .cartInsertions => "cart.b" ++ toString i ++ ".insertions"
  | .cartLedgerCommits => "cart.b" ++ toString i ++ ".ledger_commits"
  | .cartLedgerErrors => "cart.b" ++ toString i ++ ".ledger_errors"
  | .cartRemovalsUndrained => "cart.b" ++ toString i ++ ".removals_undrained"
  | .cartSpareIns => "cart.b" ++ toString i ++ ".spare_ins"
  | .cartWdogTrips => "cart.b" ++ toString i ++ ".wdog_trips"
  | .cartInputHigh => "cart.b" ++ toString i ++ ".input_high"
  | .cartLowInput => "cart.b" ++ toString i ++ ".low_input"
  | .collIssued => "coll.issued"
  | .collCompleted => "coll.completed"
  | .collRefused => "coll.refused"
  | .collGroupRefused => "coll.group_refused"
  | .collAdmitted => "coll.admitted"
  | .collAdmitRefused => "coll.admit_refused"
  | .collAdmitNoGroup => "coll.admit_no_group"
  | .collStagingFull => "coll.staging_full"
  | .collFrameWaitNs => "coll.frame_wait_ns"
  | .collDefMismatch => "coll.def_mismatch"
  | .collAlgoSwitch => "coll.algo.switch"
  | .collAlgoDoubling => "coll.algo.doubling"
  | .collAlgoHalving => "coll.algo.halving"
  | .collAlgoTree => "coll.algo.tree"
  | .collAlgoPairwise => "coll.algo.pairwise"
  | .collTxBytes => "coll.tx.bytes"
  | .collRxBytes => "coll.rx.bytes"
  | .collEscRequests => "coll.esc.requests"
  | .collEscGrants => "coll.esc.grants"
  | .collEscRefusals => "coll.esc.refusals"
  | .collEscPartialGrants => "coll.esc.partial_grants"
  | .collEscUnordered => "coll.esc.unordered"
  | .collEscFallbacks => "coll.esc.fallbacks"
  | .collEscWaitNs => "coll.esc.wait_ns"
  | .collEscTimeouts => "coll.esc.timeouts"
  | .collEscStale => "coll.esc.stale"
  | .collEscGrantedBook => "coll.esc.p" ++ toString i ++ ".granted"
  | .collEscHeldBook => "coll.esc.p" ++ toString i ++ ".held"
  | .collEscRequestedBook => "coll.esc.p" ++ toString i ++ ".requested"
  | .collNondet => "coll.nondet"
  | .collTimeouts => "coll.timeouts"
  | .collFlagFallDiscarded => "coll.flag_fall_discarded"
  | .collAx96Invalid => "coll.ax96_invalid"
  | .ctxRestoreNs => "ctx.restore_ns"
  | .ctxRestores => "ctx.restores"
  | .ctxSaveNs => "ctx.save_ns"
  | .ctxSaves => "ctx.saves"
  | .d2dBytes => "d2d." ++ ringName i ++ "." ++ ["cw", "acw"].getD j "" ++ ".bytes"
  | .d2dOccupancy => "d2d." ++ ringName i ++ "." ++ ["cw", "acw"].getD j "" ++ ".occupancy"
  | .dbgFreezes => "dbg.freezes." ++ freezeName i
  | .dbgFreezeIgnored => "dbg.freeze_ignored"
  | .dbgFreezeFlitsIgnored => "dbg.freeze_flits_ignored"
  | .dbgTriggersFired => "dbg.triggers_fired"
  | .dbgScanoutNs => "dbg.scanout_ns"
  | .dbgScanoutSkipped => "dbg.scanout_skipped"
  | .dbgThawRefused => "dbg.thaw_refused"
  | .dbgThawNotFrozen => "dbg.thaw_not_frozen"
  | .dbgSnapshots => "dbg.snapshots"
  | .fabAtomicBackpressureNs => "fab.atomic.backpressure_ns"
  | .fabAtomicCas => "fab.atomic.cas"
  | .fabAtomicCombined => "fab.atomic.combined"
  | .fabAtomicOps => "fab.atomic.ops"
  | .fabConfigRefused => "fab.config_refused"
  | .fabCongRateCuts => "fab.cong.rate_cuts"
  | .fabDedupFull => "fab.dedup.full"
  | .fabDedupOccupancy => "fab.dedup.occupancy"
  | .fabDrop => "fab.drop." ++ reasonName i
  | .fabEpStalemateForced => "fab.ep.stalemate_forced"
  | .fabLowMarks => "fab.low_marks"
  | .fabNak => "fab.nak." ++ reasonName i
  | .fabNakRx => "fab.nak_rx." ++ reasonName i
  | .fabOrtAbandoned => "fab.ort.abandoned"
  | .fabOrtFullNs => "fab.ort.full_ns"
  | .fabOrtIssued => "fab.ort.issued"
  | .fabOrtLive => "fab.ort.live"
  | .fabOrtReceipted => "fab.ort.receipted"
  | .fabRCongMaps => "fab.r.cong_maps"
  | .fabRLostNamed => "fab.r.lost_named"
  | .fabRRspMalformed => "fab.r.rsp_malformed"
  | .fabRRspUnroutable => "fab.r.rsp_unroutable"
  | .fabRTransitRefused => "fab.r.transit_refused"
  | .fabRxBytes => "fab.rx.bytes"
  | .fabRxPackets => "fab.rx.packets"
  | .fabRxReceiptStale => "fab.rx.receipt_stale"
  | .fabTxBytes => "fab.tx.bytes"
  | .fabTxPackets => "fab.tx.packets"
  | .fabTxRetransmitBackoff => "fab.tx.retransmit_backoff"
  | .fabTxRetransmitLost => "fab.tx.retransmit_lost"
  | .fabTxRetransmitOrder => "fab.tx.retransmit_order"
  | .fabTxRetransmitTimeout => "fab.tx.retransmit_timeout"
  | .fabTxSeqWindowNs => "fab.tx.seq_window_ns"
  | .fabWindowOpenRefused => "fab.window.open_refused"
  | .fabPortAdaptive => "fab.f" ++ toString i ++ ".adaptive"
  | .fabPortAuditFail => "fab.f" ++ toString i ++ ".audit_fail"
  | .fabPortAudits => "fab.f" ++ toString i ++ ".audits"
  | .fabPortCeMarked => "fab.f" ++ toString i ++ ".ce_marked"
  | .fabPortCrcErrors => "fab.f" ++ toString i ++ ".crc_errors"
  | .fabPortCreditError => "fab.f" ++ toString i ++ ".credit_error"
  | .fabPortCreditStallNs => "fab.f" ++ toString i ++ ".credit_stall_ns"
  | .fabPortDegradedNs => "fab.f" ++ toString i ++ ".degraded_ns"
  | .fabPortDown => "fab.f" ++ toString i ++ ".down"
  | .fabPortEscape => "fab.f" ++ toString i ++ ".escape"
  | .fabPortFecCorrected => "fab.f" ++ toString i ++ ".fec.corrected"
  | .fabPortFreezeNotSent => "fab.f" ++ toString i ++ ".freeze_not_sent"
  | .fabPortHeld => "fab.f" ++ toString i ++ ".held"
  | .fabPortHeldDiscarded => "fab.f" ++ toString i ++ ".held_discarded"
  | .fabPortLcReserved => "fab.f" ++ toString i ++ ".lc_reserved"
  | .fabPortLostResponses => "fab.f" ++ toString i ++ ".lost_responses"
  | .fabPortRetries => "fab.f" ++ toString i ++ ".retries"
  | .fabPortRetryFullNs => "fab.f" ++ toString i ++ ".retry_full_ns"
  | .fabPortRevBelowMax => "fab.f" ++ toString i ++ ".rev_below_max"
  | .fabPortRxFlits => "fab.f" ++ toString i ++ ".rx.flits"
  | .fabPortRxTruncated => "fab.f" ++ toString i ++ ".rx.truncated"
  | .fabPortStalemateForced => "fab.f" ++ toString i ++ ".stalemate_forced"
  | .fabPortSwaps => "fab.f" ++ toString i ++ ".swaps"
  | .fabPortTrainFail => "fab.f" ++ toString i ++ ".train_fail." ++ stepName j
  | .fabPortTrainings => "fab.f" ++ toString i ++ ".trainings"
  | .fabPortTxFlits => "fab.f" ++ toString i ++ ".tx.flits"
  | .fabPortVcOccupancy => "fab.f" ++ toString i ++ "." ++ vcName j ++ ".occupancy"
  | .fabPortLaneFailures => "fab.f" ++ toString i ++ ".l" ++ toString j ++ ".failures"
  | .fabPortLaneFecCorrected => "fab.f" ++ toString i ++ ".l" ++ toString j ++ ".fec.corrected"
  | .fabPortLaneFecUncorrectable => "fab.f" ++ toString i ++ ".l" ++ toString j ++ ".fec.uncorrectable"
  | .fabPortLaneMislock => "fab.f" ++ toString i ++ ".l" ++ toString j ++ ".mislock"
  | .fabPortLaneToneAbsent => "fab.f" ++ toString i ++ ".l" ++ toString j ++ ".tone_absent"
  | .fabPortLanePreFecBer => "fab.f" ++ toString i ++ ".l" ++ toString j ++ ".pre_fec_ber"
  | .faultNotMapped => "fault.not_mapped"
  | .faultPermission => "fault.permission"
  | .faultPoison => "fault.poison"
  | .faultQueueDropped => "fault.queue_dropped"
  | .faultRefaults => "fault.refaults"
  | .faultTimeouts => "fault.timeouts"
  | .hostFecCorrected => "host.h" ++ toString i ++ ".fec.corrected"
  | .hostFecUncorrectable => "host.h" ++ toString i ++ ".fec.uncorrectable"
  | .hostPfcRxXoff => "host.h" ++ toString i ++ ".pfc.rx_xoff"
  | .hostPfcTxXoff => "host.h" ++ toString i ++ ".pfc.tx_xoff"
  | .hostPfcWatchdog => "host.h" ++ toString i ++ ".pfc.watchdog"
  | .hostRxBytes => "host.h" ++ toString i ++ ".rx.bytes"
  | .hostRxControl => "host.h" ++ toString i ++ ".rx.control"
  | .hostRxControlLimited => "host.h" ++ toString i ++ ".rx.control_limited"
  | .hostRxFcsErrors => "host.h" ++ toString i ++ ".rx.fcs_errors"
  | .hostRxFragment => "host.h" ++ toString i ++ ".rx.fragment"
  | .hostRxFrames => "host.h" ++ toString i ++ ".rx.frames"
  | .hostRxFreezeDropped => "host.h" ++ toString i ++ ".rx.freeze_dropped"
  | .hostRxOversize => "host.h" ++ toString i ++ ".rx.oversize"
  | .hostRxPauseDiscarded => "host.h" ++ toString i ++ ".rx.pause_discarded"
  | .hostRxPtp => "host.h" ++ toString i ++ ".rx.ptp"
  | .hostRxRoce => "host.h" ++ toString i ++ ".rx.roce"
  | .hostRxUnclaimed => "host.h" ++ toString i ++ ".rx.unclaimed"
  | .hostRxZcp => "host.h" ++ toString i ++ ".rx.zcp"
  | .hostTxBytes => "host.h" ++ toString i ++ ".tx.bytes"
  | .hostTxFrames => "host.h" ++ toString i ++ ".tx.frames"
  | .hostTxLaserGapFrames => "host.h" ++ toString i ++ ".tx.laser_gap_frames"
  | .jobLoadRefused => "job.load_refused"
  | .jobLoads => "job.loads"
  | .jobPreemptLate => "job.preempt_late"
  | .jobPreemptions => "job.preemptions"
  | .jobPreemptionsUrgent => "job.preemptions_urgent"
  | .memEccCorrected => "mem.m" ++ toString i ++ ".ecc.corrected"
  | .memEccPoisonReads => "mem.m" ++ toString i ++ ".ecc.poison_reads"
  | .memEccUncorrectable => "mem.m" ++ toString i ++ ".ecc.uncorrectable"
  | .memOccupancy => "mem.m" ++ toString i ++ ".occupancy"
  | .memPcSpared => "mem.m" ++ toString i ++ ".pc.spared"
  | .memPcWritesDiscarded => "mem.m" ++ toString i ++ ".pc.writes_discarded"
  | .memReadBytes => "mem.m" ++ toString i ++ ".read_bytes"
  | .memWriteBytes => "mem.m" ++ toString i ++ ".write_bytes"
  | .memRefreshDoubledNs => "mem.m" ++ toString i ++ ".refresh_doubled_ns"
  | .memRepairExhausted => "mem.m" ++ toString i ++ ".repair.exhausted"
  | .memRepairRows => "mem.m" ++ toString i ++ ".repair.rows"
  | .memRfm => "mem.m" ++ toString i ++ ".rfm"
  | .memThrottleNs => "mem.m" ++ toString i ++ ".throttle_ns"
  | .memWcbFlushAge => "mem.m" ++ toString i ++ ".wcb.flush_age"
  | .memWcbFlushEvict => "mem.m" ++ toString i ++ ".wcb.flush_evict"
  | .memWcbFlushFence => "mem.m" ++ toString i ++ ".wcb.flush_fence"
  | .memWcbFlushFull => "mem.m" ++ toString i ++ ".wcb.flush_full"
  | .memWcbHits => "mem.m" ++ toString i ++ ".wcb.hits"
  | .memWcbMerges => "mem.m" ++ toString i ++ ".wcb.merges"
  | .memWcbRmw => "mem.m" ++ toString i ++ ".wcb.rmw"
  | .memWcbRmwPoisoned => "mem.m" ++ toString i ++ ".wcb.rmw_poisoned"
  | .memMapRefused => "mem.map_refused"
  | .periodChecks => "period.s" ++ toString i ++ ".checks"
  | .periodEpoch => "period.s" ++ toString i ++ ".epoch"
  | .periodFlagFalls => "period.s" ++ toString i ++ ".flag_falls"
  | .periodLate => "period.s" ++ toString i ++ ".late"
  | .periodLateStarts => "period.s" ++ toString i ++ ".late_starts"
  | .periodLends => "period.s" ++ toString i ++ ".lends"
  | .periodMovesDiscarded => "period.s" ++ toString i ++ ".moves_discarded"
  | .periodWritesDiscarded => "period.s" ++ toString i ++ ".writes_discarded"
  | .ppeCalibrationFailures => "ppe.calibration_failures"
  | .ppeCalibrations => "ppe.calibrations"
  | .ppeClipped => "ppe.clipped"
  | .ppeDeadOutputs => "ppe.dead_outputs"
  | .ppeDriftExceeded => "ppe.drift_exceeded"
  | .ppeDriftUpdates => "ppe.drift_updates"
  | .ppeEpochDiscarded => "ppe.epoch_discarded"
  | .ppeErrEstimate => "ppe.err_estimate"
  | .ppeFlagFallDropped => "ppe.flag_fall_dropped"
  | .ppeInvalidDark => "ppe.invalid.dark"
  | .ppeInvalidInput => "ppe.invalid.input"
  | .ppeInvalidState => "ppe.invalid.state"
  | .ppePilots => "ppe.pilots"
  | .ppeQueueFullNs => "ppe.queue_full_ns"
  | .ppeReprograms => "ppe.reprograms"
  | .ppeScaleSaturated => "ppe.scale_saturated"
  | .ppeSlotRefused => "ppe.slot_refused"
  | .ppeSwitchovers => "ppe.switchovers"
  | .ppeVectors => "ppe.vectors"
  | .pwrCapActs => "pwr.cap_acts"
  | .pwrCappedNs => "pwr.capped_ns"
  | .pwrEnergyMj => "pwr.energy_mj"
  | .pwrHoldNs => "pwr.hold_ns"
  | .pwrInputHighNs => "pwr.input_high_ns"
  | .pwrInputLowNs => "pwr.input_low_ns"
  | .pwrOvercurrentHolds => "pwr.overcurrent_holds"
  | .rdmaCnpRx => "rdma.cnp_rx"
  | .rdmaCnpTx => "rdma.cnp_tx"
  | .rdmaCompletions => "rdma.completions"
  | .rdmaInboundAtomic => "rdma.inbound_atomic"
  | .rdmaNakAccess => "rdma.nak.access"
  | .rdmaNakInvalid => "rdma.nak.invalid"
  | .rdmaNakOperational => "rdma.nak.operational"
  | .rdmaNakRnr => "rdma.nak.rnr"
  | .rdmaQpErrors => "rdma.qp_errors"
  | .rdmaRefused => "rdma.refused"
  | .rdmaReorderFull => "rdma.reorder_full"
  | .rdmaRetransmits => "rdma.retransmits"
  | .thermHoldNs => "therm." ++ regionName i ++ ".hold_ns"
  | .thermRorTrips => "therm." ++ regionName i ++ ".ror_trips"
  | .thermThrottleNs => "therm." ++ regionName i ++ ".throttle_ns"
  | .thermThrottles => "therm." ++ regionName i ++ ".throttles"
  | .thermSensorFailed => "therm.sensor.failed"
  | .thermSensorSuspect => "therm.sensor.suspect"
  | .timeExchanges => "time.exchanges"
  | .timeHoldoverNs => "time.holdover_ns"
  | .timeMissed => "time.missed"
  | .timeOffset => "time.offset"
  | .timeSteps => "time.steps"
  | .xlatHits => "xlat." ++ unitName i ++ ".hits"
  | .xlatMisses => "xlat." ++ unitName i ++ ".misses"
  | .xlatWalkReads => "xlat." ++ unitName i ++ ".walk_reads"
  | .xlatWalkWaitNs => "xlat." ++ unitName i ++ ".walk_wait_ns"
  | .xlatWalks => "xlat." ++ unitName i ++ ".walks"
  | .xlatMalformed => "xlat.malformed"
  | .xlatShootdowns => "xlat.shootdowns"
  | .zcpBusy => "zcp.busy"
  | .zcpEventDropped => "zcp.event_dropped"
  | .zcpFiltered => "zcp.filtered"
  | .zcpRefused => "zcp.refused"
  | .zcpReplayDuplicates => "zcp.replay.duplicates"
  | .zcpReplaySourceEvicted => "zcp.replay.source_evicted"
  | .zcpRxBadMagic => "zcp.rx.bad_magic"
  | .zcpRxReassemblyTimeout => "zcp.rx.reassembly_timeout"
  | .zcpRxUnexpected => "zcp.rx.unexpected"

/-- KIND of a catalogue record: 0 COUNT, 1 HISTOGRAM bin, 2 LEVEL, 3 GAUGE (R522, R523). -/
def CtrId.kind : CtrId → Nat
  | .ppeErrEstimate | .fabPortLanePreFecBer | .timeOffset => 3
  | .tileTallySum | .bootHbmNs | .bootSelftestNs | .bootCartridgeNs | .bootEthernetNs | .bootFabricNs | .bootTotalNs | .collEscGrantedBook | .collEscHeldBook | .collEscRequestedBook | .fabOrtLive | .periodEpoch | .ppeDeadOutputs => 2
  | .d2dOccupancy | .fabDedupOccupancy | .fabPortVcOccupancy | .memOccupancy => 1
  | _ => 0

/-- UNIT of a catalogue record: 0 events, 1 bytes, 2 ns, 3 steps, 4 flits, 5 other (R522). -/
def CtrId.unit : CtrId → Nat
  | .fwBytes | .collTxBytes | .collRxBytes | .d2dBytes | .fabRxBytes | .fabTxBytes | .hostRxBytes | .hostTxBytes | .memReadBytes | .memWriteBytes => 1
  | .bootHbmNs | .bootSelftestNs | .bootCartridgeNs | .bootEthernetNs | .bootFabricNs | .bootTotalNs | .secAttestWaitNs | .collFrameWaitNs | .collEscWaitNs | .ctxRestoreNs | .ctxSaveNs | .dbgScanoutNs | .fabAtomicBackpressureNs | .fabOrtFullNs | .fabTxSeqWindowNs | .fabPortCreditStallNs | .fabPortDegradedNs | .fabPortRetryFullNs | .memRefreshDoubledNs | .memThrottleNs | .ppeQueueFullNs | .pwrCappedNs | .pwrHoldNs | .pwrInputHighNs | .pwrInputLowNs | .thermHoldNs | .thermThrottleNs | .timeHoldoverNs | .xlatWalkWaitNs => 2
  | .tileArrayBusySteps | .tileArrayLoadSteps | .tileArrayStarveSteps | .tileMvStarveSteps | .tileSramWaitSteps | .tileSeqQueueFullSteps | .tileSeqWaitSteps => 3
  | .fabPortRxFlits | .fabPortTxFlits => 4
  | .fabPortLanePreFecBer | .ppeErrEstimate | .pwrEnergyMj | .timeOffset => 5
  | _ => 0

/-- The instances of a counter: its first and second instance number (R523). -/
def instances (is js : List Nat) : List (Nat × Nat) := is.flatMap fun i => js.map fun j => (i, j)

/-- Every counter that the spec names, with every instance of it (R523), by the numbers of its instances. -/
def namedCounters : List (CtrId × Nat × Nat) :=
  ((instances (List.range 6) [0]).flatMap fun p => (
    [.tileArrayPasses, .tileArrayBusySteps, .tileArrayLoadSteps, .tileArrayStarveSteps, .tileArrayRefused,
     .tileArrayAbandoned, .tileArrayRescaleRepeats, .tileArrayA32Fallbacks, .tileArrayRingNotAbandoned, .tileCastleEvents,
     .tileCastleRefused, .tileMvWeights, .tileMvStarveSteps, .tileVecOps, .tileSramWaitSteps, .tileSramCorrected,
     .tileSramUncorrectable, .tileCvtSaturated, .tileCvtNanLost, .tileCvtPa6Invalid, .tileCvtAx96Invalid, .tileT2InvalidCode,
     .tileBlockNanScale, .tileAccEscalated, .tileAccPrescaleRounded, .tileAccA32Overflow, .tileAccInt32Wrapped,
     .tileAccRefusedAtStart, .tileAccPoisonDrained, .tileLedgerAnchorRepeats, .tileLedgerDustEvents,
     .tileLedgerCeilingExceeded, .tileLedgerOverflowFaults, .tileSeqMoves, .tileSeqRefused, .tileSeqQueueFullSteps,
     .tileSeqWaitSteps, .tileSeqWaitTimeouts, .tileSeqFlagFallRestarts, .tileSeqBreakIgnored, .tileSeqTraceDropped,
     .tileTallySaturated, .tileTallySets, .tileTallyAdded, .tileTallyConsumed, .tileTallyReset, .tileTallySaved,
     .tileTallyRestored, .tileTallySum, .dbgFreezes] : List CtrId).map fun c => (c, p)) ++
  ((instances (List.range 6) (List.range 4)).flatMap fun p => (
    [.tileQuadPasses, .tileQuadFaults, .tileQuadRescaleRepeats, .tileQuadA32Fallbacks] : List CtrId).map fun c => (c, p)) ++
  ((instances [0] [0]).flatMap fun p => (
    [.boardFreezeInEvents, .boardSlotIdChanged, .bootHbmNs, .bootSelftestNs, .bootCartridgeNs, .bootEthernetNs,
     .bootFabricNs, .bootTotalNs, .fwBytes, .fwVerifyFailed, .fwWrites, .secAttestWaitNs, .secAttests, .secConfigExtends,
     .ctlWriteToRo, .collIssued, .collCompleted, .collRefused, .collGroupRefused, .collAdmitted, .collAdmitRefused,
     .collAdmitNoGroup, .collStagingFull, .collFrameWaitNs, .collDefMismatch, .collAlgoSwitch, .collAlgoDoubling,
     .collAlgoHalving, .collAlgoTree, .collAlgoPairwise, .collTxBytes, .collRxBytes, .collEscRequests, .collEscGrants,
     .collEscRefusals, .collEscPartialGrants, .collEscUnordered, .collEscFallbacks, .collEscWaitNs, .collEscTimeouts,
     .collEscStale, .collNondet, .collTimeouts, .collFlagFallDiscarded, .collAx96Invalid, .ctxRestoreNs, .ctxRestores,
     .ctxSaveNs, .ctxSaves, .dbgFreezeIgnored, .dbgFreezeFlitsIgnored, .dbgTriggersFired, .dbgScanoutNs, .dbgScanoutSkipped,
     .dbgThawRefused, .dbgThawNotFrozen, .dbgSnapshots, .fabAtomicBackpressureNs, .fabAtomicCas, .fabAtomicCombined,
     .fabAtomicOps, .fabConfigRefused, .fabCongRateCuts, .fabDedupFull, .fabDedupOccupancy, .fabEpStalemateForced,
     .fabLowMarks, .fabOrtAbandoned, .fabOrtFullNs, .fabOrtIssued, .fabOrtLive, .fabOrtReceipted, .fabRCongMaps,
     .fabRLostNamed, .fabRRspMalformed, .fabRRspUnroutable, .fabRTransitRefused, .fabRxBytes, .fabRxPackets,
     .fabRxReceiptStale, .fabTxBytes, .fabTxPackets, .fabTxRetransmitBackoff, .fabTxRetransmitLost, .fabTxRetransmitOrder,
     .fabTxRetransmitTimeout, .fabTxSeqWindowNs, .fabWindowOpenRefused, .faultNotMapped, .faultPermission, .faultPoison,
     .faultQueueDropped, .faultRefaults, .faultTimeouts, .jobLoadRefused, .jobLoads, .jobPreemptLate, .jobPreemptions,
     .jobPreemptionsUrgent, .memMapRefused, .ppeCalibrationFailures, .ppeCalibrations, .ppeClipped, .ppeDeadOutputs,
     .ppeDriftExceeded, .ppeDriftUpdates, .ppeEpochDiscarded, .ppeErrEstimate, .ppeFlagFallDropped, .ppeInvalidDark,
     .ppeInvalidInput, .ppeInvalidState, .ppePilots, .ppeQueueFullNs, .ppeReprograms, .ppeScaleSaturated, .ppeSlotRefused,
     .ppeSwitchovers, .ppeVectors, .pwrCapActs, .pwrCappedNs, .pwrEnergyMj, .pwrHoldNs, .pwrInputHighNs, .pwrInputLowNs,
     .pwrOvercurrentHolds, .rdmaCnpRx, .rdmaCnpTx, .rdmaCompletions, .rdmaInboundAtomic, .rdmaNakAccess, .rdmaNakInvalid,
     .rdmaNakOperational, .rdmaNakRnr, .rdmaQpErrors, .rdmaRefused, .rdmaReorderFull, .rdmaRetransmits, .thermSensorFailed,
     .thermSensorSuspect, .timeExchanges, .timeHoldoverNs, .timeMissed, .timeOffset, .timeSteps, .xlatMalformed,
     .xlatShootdowns, .zcpBusy, .zcpEventDropped, .zcpFiltered, .zcpRefused, .zcpReplayDuplicates, .zcpReplaySourceEvicted,
     .zcpRxBadMagic, .zcpRxReassemblyTimeout, .zcpRxUnexpected] : List CtrId).map fun c => (c, p)) ++
  ((instances (List.range 11) [0]).flatMap fun p => (
    [.cartFadeWarnings, .cartAuthFailures, .cartI3cErrors, .cartInsertions, .cartLedgerCommits, .cartLedgerErrors,
     .cartRemovalsUndrained, .cartSpareIns, .cartWdogTrips, .cartInputHigh, .cartLowInput] : List CtrId).map fun c => (c, p)) ++
  ((instances (List.range 16) [0]).flatMap fun p => (
    [.collEscGrantedBook, .collEscHeldBook, .collEscRequestedBook, .fabPortAdaptive, .fabPortAuditFail, .fabPortAudits,
     .fabPortCeMarked, .fabPortCrcErrors, .fabPortCreditError, .fabPortCreditStallNs, .fabPortDegradedNs, .fabPortDown,
     .fabPortEscape, .fabPortFecCorrected, .fabPortFreezeNotSent, .fabPortHeld, .fabPortHeldDiscarded, .fabPortLcReserved,
     .fabPortLostResponses, .fabPortRetries, .fabPortRetryFullNs, .fabPortRevBelowMax, .fabPortRxFlits, .fabPortRxTruncated,
     .fabPortStalemateForced, .fabPortSwaps, .fabPortTrainings, .fabPortTxFlits, .periodChecks, .periodEpoch,
     .periodFlagFalls, .periodLate, .periodLateStarts, .periodLends, .periodMovesDiscarded, .periodWritesDiscarded] : List CtrId).map fun c => (c, p)) ++
  ((instances (List.range 6) (List.range 2)).flatMap fun p => (
    [.d2dBytes, .d2dOccupancy] : List CtrId).map fun c => (c, p)) ++
  ((instances [0x20, 0x21, 0x22, 0x23] [0]).flatMap fun p => (
    [.fabDrop] : List CtrId).map fun c => (c, p)) ++
  ((instances (List.range' 1 11 ++ List.range' 0x10 4) [0]).flatMap fun p => (
    [.fabNak, .fabNakRx] : List CtrId).map fun c => (c, p)) ++
  ((instances (List.range 16) [1, 2, 3, 4, 5, 7, 8]).flatMap fun p => (
    [.fabPortTrainFail] : List CtrId).map fun c => (c, p)) ++
  ((instances (List.range 16) (List.range 12)).flatMap fun p => (
    [.fabPortVcOccupancy] : List CtrId).map fun c => (c, p)) ++
  ((instances (List.range 16) (List.range 9)).flatMap fun p => (
    [.fabPortLaneFailures, .fabPortLaneFecCorrected, .fabPortLaneFecUncorrectable, .fabPortLaneMislock,
     .fabPortLaneToneAbsent, .fabPortLanePreFecBer] : List CtrId).map fun c => (c, p)) ++
  ((instances (List.range 4) [0]).flatMap fun p => (
    [.hostFecCorrected, .hostFecUncorrectable, .hostPfcRxXoff, .hostPfcTxXoff, .hostPfcWatchdog, .hostRxBytes,
     .hostRxControl, .hostRxControlLimited, .hostRxFcsErrors, .hostRxFragment, .hostRxFrames, .hostRxFreezeDropped,
     .hostRxOversize, .hostRxPauseDiscarded, .hostRxPtp, .hostRxRoce, .hostRxUnclaimed, .hostRxZcp, .hostTxBytes,
     .hostTxFrames, .hostTxLaserGapFrames] : List CtrId).map fun c => (c, p)) ++
  ((instances (List.range 24) [0]).flatMap fun p => (
    [.memEccCorrected, .memEccPoisonReads, .memEccUncorrectable, .memOccupancy, .memPcSpared, .memPcWritesDiscarded,
     .memReadBytes, .memWriteBytes, .memRefreshDoubledNs, .memRepairExhausted, .memRepairRows, .memRfm, .memThrottleNs,
     .memWcbFlushAge, .memWcbFlushEvict, .memWcbFlushFence, .memWcbFlushFull, .memWcbHits, .memWcbMerges, .memWcbRmw,
     .memWcbRmwPoisoned] : List CtrId).map fun c => (c, p)) ++
  ((instances (List.range 133) [0]).flatMap fun p => (
    [.thermHoldNs, .thermRorTrips, .thermThrottleNs, .thermThrottles] : List CtrId).map fun c => (c, p)) ++
  ((instances (List.range 7) [0]).flatMap fun p => (
    [.xlatHits, .xlatMisses, .xlatWalkReads, .xlatWalkWaitNs, .xlatWalks] : List CtrId).map fun c => (c, p))

end Sys2Proof.Machine
end

