-- ==== Sys2Proof/Machine/Numeric.lean ====
section
/-! DEFINITION. The fifteen number formats: decoding, exact values, rounding, conversion, FP32 and FP16
arithmetic, AX96, and the stochastic-rounding generator (03 and 04 of spec/). -/

namespace Sys2Proof.Machine

/-- Format codes (R76). -/
inductive Fmt where
  | fp32 | fp16 | bf16 | e4m3 | e5m2 | e3m2 | e2m3 | e2m1 | int8 | int4 | t2 | e8m0 | int32 | ax96 | pa6
  deriving DecidableEq, Repr

/-- The format of a code; 0xF is reserved (R76). -/
def Fmt.ofCode (c : Nat) : Option Fmt :=
  [Fmt.fp32, .fp16, .bf16, .e4m3, .e5m2, .e3m2, .e2m3, .e2m1, .int8, .int4, .t2, .e8m0, .int32, .ax96, .pa6][c]?

/-- Width of one element in bits (R76). -/
def Fmt.width : Fmt → Nat
  | .fp32 | .int32 => 32
  | .fp16 | .bf16 => 16
  | .e4m3 | .e5m2 | .int8 | .e8m0 => 8
  | .e3m2 | .e2m3 | .pa6 => 6
  | .e2m1 | .int4 => 4
  | .t2 => 2
  | .ax96 => 128

/-- An exact value: NaN, an infinity, or (−1)^neg · m · 2^e; m = 0 is a signed zero. -/
inductive Val where
  | nan
  | inf (neg : Bool)
  | fin (neg : Bool) (m : Nat) (e : Int)
  deriving DecidableEq, Repr

/-- Exponent bits, fraction bits and bias of a floating format, and its largest finite magnitude code (R79, R80). -/
structure FloatFmt where
  eb : Nat
  mb : Nat
  bias : Int
  maxCode : Nat
  hasInf : Bool
  /-- Canonical NaN (R79); none where the format has no NaN. -/
  nan : Option Nat
  deriving DecidableEq, Repr

/-- The floating formats (R79, R80). -/
def Fmt.float : Fmt → Option FloatFmt
  | .fp32 => some ⟨8, 23, 127, 0x7F7FFFFF, true, some 0x7FC00000⟩
  | .fp16 => some ⟨5, 10, 15, 0x7BFF, true, some 0x7E00⟩
  | .bf16 => some ⟨8, 7, 127, 0x7F7F, true, some 0x7FC0⟩
  | .e4m3 => some ⟨4, 3, 7, 0x7E, false, some 0x7F⟩
  | .e5m2 => some ⟨5, 2, 15, 0x7B, true, some 0x7E⟩
  | .e3m2 => some ⟨3, 2, 3, 0x1F, false, none⟩
  | .e2m3 => some ⟨2, 3, 1, 0x1F, false, none⟩
  | .e2m1 => some ⟨2, 1, 1, 0x7, false, none⟩
  | _ => none

/-- Weight exponent of the smallest subnormal. -/
def FloatFmt.lsb (f : FloatFmt) : Int := 1 - f.bias - f.mb

/-- The magnitude of a finite code as m and e (R80). -/
def FloatFmt.magnitude (f : FloatFmt) (mag : Nat) : Nat × Int :=
  let e := mag / 2 ^ f.mb
  let frac := mag % 2 ^ f.mb
  if e = 0 then (frac, f.lsb) else (frac + 2 ^ f.mb, f.lsb + (e - 1 : Nat))

/-- Decode a floating code (R79, R80). -/
def FloatFmt.decode (f : FloatFmt) (c : Nat) : Val :=
  let mag := c % 2 ^ (f.eb + f.mb)
  let neg := c / 2 ^ (f.eb + f.mb) % 2 = 1
  if mag ≤ f.maxCode then let (m, e) := f.magnitude mag; .fin neg m e
  else if f.hasInf && mag == f.maxCode + 1 then .inf neg
  else .nan

/-- The signed integer of an n-bit code. -/
def signed (n c : Nat) : Int := if c % 2 ^ n < 2 ^ (n - 1) then (c % 2 ^ n : Nat) else (c % 2 ^ n : Nat) - 2 ^ n

/-- An integer as an exact value times 2^e. -/
def Val.ofInt (z : Int) (e : Int := 0) : Val := .fin (z < 0) z.natAbs e

/-- An AX96 code with a reserved non-finite encoding (R95). -/
def ax96Invalid (c : Nat) : Bool :=
  c / 2 ^ 96 % 2 ^ 16 == 0x8000 &&
    !(c % 2 ^ 96 == 0 || c % 2 ^ 96 == 1 || c % 2 ^ 96 == 2 ^ 96 - 1)

/-- Decode an AX96 code; invalid codes read as NaN (R94, R95). -/
def decodeAx96 (c : Nat) : Val :=
  let v := signed 96 (c % 2 ^ 96)
  let a := signed 16 (c / 2 ^ 96 % 2 ^ 16)
  if a = -32768 then (if v = 1 then .inf false else if v = -1 then .inf true else .nan) else Val.ofInt v a

/-- The exact value of one element code (R79 to R83, R94). T2 code 0b10 reads 0 (R82). -/
def Fmt.decode (f : Fmt) (c : Nat) : Val :=
  match f.float with
  | some ff => ff.decode c
  | none =>
    match f with
    | .int8 => Val.ofInt (signed 8 c)
    | .int4 => Val.ofInt (signed 4 c)
    | .int32 => Val.ofInt (signed 32 c)
    | .t2 => if c % 4 = 1 then Val.ofInt 1 else if c % 4 = 3 then Val.ofInt (-1) else Val.ofInt 0
    | .e8m0 => if c % 256 = 255 then .nan else .fin false 1 ((c % 256 : Nat) - 127)
    | .ax96 => decodeAx96 c
    | _ => Val.ofInt (signed 6 c)

/-- Rounding rules (R89): nearest even, stochastic with a 16-bit value, toward zero. -/
inductive Rnd where
  | rne | sr (u : Nat) | rtz
  deriving DecidableEq, Repr

/-- m · 2^-k rounded to an integer under a rule (R89, R90). -/
def roundShift (r : Rnd) (m k : Nat) : Nat :=
  let n := m / 2 ^ k
  let rem := m % 2 ^ k
  match r with
  | .rne => if 2 * rem > 2 ^ k || (2 * rem == 2 ^ k && n % 2 == 1) then n + 1 else n
  | .sr u => n + (rem * 2 ^ 16 / 2 ^ k + u) / 2 ^ 16
  | .rtz => n

/-- Round m · 2^e to a multiple of 2^q: the multiple, and whether bits were lost. -/
def roundAt (r : Rnd) (m : Nat) (e q : Int) : Nat × Bool :=
  if q ≤ e then (m * 2 ^ (e - q).toNat, false)
  else (roundShift r m (q - e).toNat, m % 2 ^ (q - e).toNat != 0)

/-- Compare m1 · 2^e1 with m2 · 2^e2. -/
def magLt (m1 : Nat) (e1 : Int) (m2 : Nat) (e2 : Int) : Bool :=
  m1 * 2 ^ (e1 - min e1 e2).toNat < m2 * 2 ^ (e2 - min e1 e2).toNat

/-- The exponent of the last place that a non-zero magnitude has in a floating format. -/
def FloatFmt.ulp (f : FloatFmt) (m : Nat) (e : Int) : Int := max (e + m.log2 - f.mb) f.lsb

/-- The magnitude code of a finite value rounded with unbounded exponent, and whether it lies above the largest
finite code. -/
def FloatFmt.roundMag (f : FloatFmt) (r : Rnd) (m : Nat) (e : Int) : Nat × Bool :=
  if m = 0 then (0, false) else
  let q := f.ulp m e
  let n := (roundAt r m e q).1
  let code := (q - f.lsb).toNat * 2 ^ f.mb + n
  (code, code > f.maxCode)

/-- What a conversion counted (R91, R92). -/
structure CvtFlags where
  saturated : Bool := false
  nanLost : Bool := false
  deriving DecidableEq, Repr

/-- Convert to a floating format (R89 to R92). -/
def FloatFmt.encode (f : FloatFmt) (r : Rnd) (sat : Bool) (v : Val) : Nat × CvtFlags :=
  let sgn (neg : Bool) (c : Nat) := c + (if neg then 2 ^ (f.eb + f.mb) else 0)
  let wide := f.hasInf && f.eb + f.mb ≥ 15
  match v with
  | .nan => match f.nan with
    | some c => (c, {})
    | none => (0, { nanLost := true })
  | .inf neg =>
    if wide || (f.hasInf && !sat) then (sgn neg (f.maxCode + 1), {})
    else if !sat && f.nan.isSome then (f.nan.getD 0, {})
    else (sgn neg f.maxCode, { saturated := true })
  | .fin neg m e =>
    let (code, ovf) := f.roundMag r m e
    let (mm, me) := f.magnitude f.maxCode
    let above := magLt mm me m e
    if ovf then
      if !sat && f.hasInf then (sgn neg (f.maxCode + 1), {})
      else if !sat && f.nan.isSome then (f.nan.getD 0, {})
      else (sgn neg f.maxCode, { saturated := true })
    else (sgn neg code, { saturated := above && (sat || !(f.hasInf || f.nan.isSome)) })

/-- Round to an integer of n bits that saturates at lo and hi (R91). -/
def encodeInt (lo hi : Int) (bits : Nat) (r : Rnd) (v : Val) : Nat × CvtFlags :=
  let out (z : Int) := (z % 2 ^ bits).toNat
  match v with
  | .nan => (0, { nanLost := true })
  | .inf neg => (out (if neg then lo else hi), { saturated := true })
  | .fin neg m e =>
    let n := (roundAt r m e 0).1
    let z : Int := if neg then -n else n
    if z < lo then (out lo, { saturated := true }) else if z > hi then (out hi, { saturated := true })
    else
      let lim := if neg then lo.natAbs else hi.natAbs
      (out z, { saturated := magLt lim 0 m e })

/-- FP32 to E8M0 (R91). -/
def encodeE8m0 (v : Val) : Nat × CvtFlags :=
  match v with
  | .nan | .inf _ => (0xFF, {})
  | .fin _ m e =>
    if m = 0 then (0, {}) else
    let l := e + m.log2
    if l < -127 then (0, { saturated := true }) else if l > 127 then (254, { saturated := true })
    else ((l + 127).toNat, {})

/-- Pack an AX96 (R94). -/
def packAx96 (v : Int) (a : Int) (dust : Nat) : Nat :=
  (v % 2 ^ 96).toNat + (a % 2 ^ 16).toNat * 2 ^ 96 + min dust 0xFFFF * 2 ^ 112

/-- The non-finite AX96 of a value (R95): DUST reads 0xFFFF. -/
def ax96Nonfinite : Val → Nat
  | .inf neg => packAx96 (if neg then -1 else 1) (-32768) 0xFFFF
  | _ => packAx96 0 (-32768) 0xFFFF

/-- Conversion to AX96 at a target anchor (R96): −2^95 is not too large for the two's complement VALUE. -/
def encodeAx96 (anchor : Int) (v : Val) : Nat × CvtFlags :=
  match v with
  | .fin neg m e =>
    let (n, lost) := roundAt .rne m e anchor
    if n > 2 ^ 95 || (n = 2 ^ 95 && !neg) then
      (packAx96 (if neg then -(2 ^ 95 - 1) else 2 ^ 95 - 1) anchor 0xFFFF, { saturated := true })
    else (packAx96 (if neg then -n else n) anchor (if lost then 1 else 0), {})
  | v => (ax96Nonfinite v, {})

/-- Convert an exact value to a format (R89 to R92, R96). PA6 is no destination (R91). -/
def Fmt.encode (f : Fmt) (r : Rnd) (sat : Bool) (anchor : Int) (v : Val) : Nat × CvtFlags :=
  match f.float with
  | some ff => ff.encode r sat v
  | none =>
    match f with
    | .int8 => encodeInt (-128) 127 8 r v
    | .int4 => encodeInt (-8) 7 4 r v
    | .int32 => encodeInt (-(2 ^ 31)) (2 ^ 31 - 1) 32 r v
    | .t2 => encodeInt (-1) 1 2 r v
    | .e8m0 => encodeE8m0 v
    | .ax96 => encodeAx96 anchor v
    | _ => (0, {})

/-- The exact sum of two values: NaN and infinities as R93; a zero sum is +0 unless both are −0. -/
def Val.add (a b : Val) : Val :=
  match a, b with
  | .nan, _ | _, .nan => .nan
  | .inf s, .inf t => if s = t then .inf s else .nan
  | .inf s, _ => .inf s
  | _, .inf t => .inf t
  | .fin s m e, .fin t n f =>
    let q := min e f
    let x : Int := (m * 2 ^ (e - q).toNat : Nat)
    let y : Int := (n * 2 ^ (f - q).toNat : Nat)
    let z := (if s then -x else x) + (if t then -y else y)
    if z = 0 then .fin (s && t) 0 0 else .fin (z < 0) z.natAbs q

/-- The exact product of two values (R93). -/
def Val.mul (a b : Val) : Val :=
  match a, b with
  | .nan, _ | _, .nan => .nan
  | .inf s, .inf t => .inf (s != t)
  | .inf s, .fin t n _ => if n = 0 then .nan else .inf (s != t)
  | .fin s m _, .inf t => if m = 0 then .nan else .inf (s != t)
  | .fin s m e, .fin t n f => .fin (s != t) (m * n) (e + f)

/-- Scale by a power of two. -/
def Val.scale (k : Int) : Val → Val
  | .fin s m e => .fin s m (e + k)
  | v => v

/-- Sign change. -/
def Val.neg : Val → Val
  | .nan => .nan
  | .inf s => .inf (!s)
  | .fin s m e => .fin (!s) m e

/-- a < b as numbers; false with a NaN. Zeros are equal (R78). -/
def Val.lt (a b : Val) : Bool :=
  match a, b with
  | .nan, _ | _, .nan => false
  | .inf s, .inf t => s && !t
  | .inf s, _ => s
  | _, .inf t => !t
  | .fin s m e, .fin t n f =>
    match s && m != 0, t && n != 0 with
    | true, false => true
    | false, true => false
    | false, false => magLt m e n f
    | true, true => magLt n f m e

/-- a = b as numbers; false with a NaN. -/
def Val.eq (a b : Val) : Bool :=
  a != .nan && b != .nan && !a.lt b && !b.lt a

/-- A value rounded to FP32 or FP16 under a rule, as an exact value, and whether a finite value overflowed
(R109, R111, R115). -/
def Fmt.round (f : Fmt) (r : Rnd) (v : Val) : Val × Bool :=
  match f.float, v with
  | some ff, .fin s m e =>
    let (code, ovf) := ff.roundMag r m e
    if ovf then (.inf s, true) else let (n, q) := ff.magnitude code; (.fin s n q, false)
  | _, v => (v, false)

/-- Element i of a packed buffer (R77). -/
def eltAt (bs : List Byte) (w i : Nat) : Nat :=
  let bit := w * i
  let part := (bs.drop (bit / 8)).take (w / 8 + 1 + 1)
  (part.foldr (fun b a => b.toNat + 256 * a) 0) / 2 ^ (bit % 8) % 2 ^ w

/-- The little-endian number of a byte list. -/
def leNat (bs : List Byte) : Nat := bs.foldr (fun b a => b.toNat + 256 * a) 0

/-- n little-endian bytes of a number. -/
def leBytes (n v : Nat) : List Byte := (List.range n).map fun i => BitVec.ofNat 8 (v / 2 ^ (8 * i))

/-- Pack codes of width w into bytes (R77); the last byte is padded with zeros. -/
def packElts (w : Nat) (codes : List Nat) : List Byte :=
  leBytes (ceilDiv (w * codes.length) 8)
    ((codes.zipIdx).foldl (fun a (c, i) => a + c % 2 ^ w * 2 ^ (w * i)) 0)

/-- Bytes of n packed elements. -/
def Fmt.bytes (f : Fmt) (n : Nat) : Nat := ceilDiv (f.width * n) 8

/-- One round of Philox-4×32 (R113). -/
def philoxRound (k0 k1 : Nat) (c : Nat × Nat × Nat × Nat) : Nat × Nat × Nat × Nat :=
  let p0 := 0xD2511F53 * c.1
  let p1 := 0xCD9E8D57 * c.2.2.1
  (Nat.xor (Nat.xor (p1 / 2 ^ 32) c.2.1) k0, p1 % 2 ^ 32, Nat.xor (Nat.xor (p0 / 2 ^ 32) c.2.2.2) k1, p0 % 2 ^ 32)

/-- n rounds with the key schedule. -/
def philoxRounds : Nat → Nat → Nat → Nat × Nat × Nat × Nat → Nat × Nat × Nat × Nat
  | 0, _, _, c => c
  | n + 1, k0, k1, c =>
    philoxRounds n ((k0 + 0x9E3779B9) % 2 ^ 32) ((k1 + 0xBB67AE85) % 2 ^ 32) (philoxRound k0 k1 c)

/-- The 16-bit random value of R113: bits [31:16] of output word 0 of Philox-4×32-10. PRESUMED constants: those of
the published generator. -/
def philoxU (seed : BitVec 64) (c0 c1 c2 c3 : Nat) : Nat :=
  let s := seed.toNat
  (philoxRounds 10 (s % 2 ^ 32) (s / 2 ^ 32) (c0 % 2 ^ 32, c1 % 2 ^ 32, c2 % 2 ^ 32, c3 % 2 ^ 32)).1 / 2 ^ 16

/-- Block size of a block-size code; 3 is reserved (R84). -/
def blockSize (c : Nat) : Nat := if c = 1 then 32 else if c = 2 then 16 else 0

/-- Largest element exponent used by block quantisation (R88). -/
def Fmt.emax : Fmt → Option Int
  | .e4m3 => some 8 | .e5m2 => some 15 | .e3m2 => some 4 | .e2m3 => some 2 | .e2m1 => some 2
  | .t2 => some 0 | .int8 => some 0
  | _ => none

/-- Magnitude exponent c and lowest bit exponent l of a ledger operand (R119). -/
def Fmt.ledger : Fmt → Int × Int
  | .e4m3 => (9, -9) | .e5m2 => (16, -16) | .e3m2 => (5, -4) | .e2m3 => (3, -3) | .e2m1 => (3, -1)
  | _ => (4, 0)

end Sys2Proof.Machine
end

