-- ==== Sys2Proof/Machine/Operands.lean ====
section
/-! DEFINITION. The fields of a move word at the bit positions of R149 to R166, the reserved bits of each move,
and the two forms of address (R151). -/

namespace Sys2Proof.Machine

/-- Bits [hi:lo] of a move. -/
def fld (w : MoveWord) (hi lo : Nat) : Nat := w.toNat / 2 ^ lo % 2 ^ (hi + 1 - lo)

/-- Bit b of a move. -/
def bit (w : MoveWord) (b : Nat) : Bool := w.getLsbD b

/-- Every bit range of a list reads 0 (R11). -/
def clear (w : MoveWord) (rs : List (Nat × Nat)) : Bool := rs.all fun r => fld w r.1 r.2 == 0

namespace Hdr
/-- OPCODE (R149). -/
def op (w : MoveWord) : Nat := fld w 7 0
/-- PSEL, PNEG, WAITU bits, DTAL, DTEN (R149). -/
def psel (w : MoveWord) : Nat := fld w 10 8
def pneg (w : MoveWord) : Bool := bit w 11
def waitCopy (w : MoveWord) : Bool := bit w 15
def waitVec (w : MoveWord) : Bool := bit w 16
def waitMv (w : MoveWord) : Bool := bit w 17
def waitArray (w : MoveWord) : Bool := bit w 18
def dtal (w : MoveWord) : Nat := fld w 24 19
def dten (w : MoveWord) : Bool := bit w 25
/-- The header's reserved bits. -/
def resv : List (Nat × Nat) := [(31, 26), (14, 12)]
end Hdr

/-- The unit that executes a move (R150). -/
inductive TUnit where
  | sequencer | array | mv | vec | copy
  deriving DecidableEq, Repr

/-- The units of the opcode table; none for a reserved opcode (R150). -/
def unitOf (op : Nat) : Option TUnit :=
  if (0x01 ≤ op && op ≤ 0x09) || (0x10 ≤ op && op ≤ 0x15) || op == 0x45 || op == 0x60 || op == 0x70 || op == 0x71
  then some .sequencer
  else if 0x20 ≤ op && op ≤ 0x26 then some .array
  else if op == 0x30 then some .mv
  else if op == 0x38 || op == 0x39 then some .vec
  else if (0x40 ≤ op && op ≤ 0x44) || op == 0x50 || op == 0x58 then some .copy
  else none

/-- An address form (R151): base register and offset. -/
structure Ref where
  rb : Nat
  off : Nat
  deriving DecidableEq, Repr

/-- The SRAM reference whose bit 0 is at lo. -/
def sramRef (w : MoveWord) (lo : Nat) : Ref := ⟨fld w (lo + 24) (lo + 20), fld w (lo + 19) lo⟩

/-- The job reference whose bit 0 is at lo. -/
def jobRef (w : MoveWord) (lo : Nat) : Ref := ⟨fld w (lo + 52) (lo + 48), fld w (lo + 47) lo⟩

/-- The reference of a slot whose kind selects job space (1) or SRAM (0, 2). -/
def kindRef (w : MoveWord) (lo kind : Nat) : Ref := if kind = 1 then jobRef w lo else sramRef w lo

/-- Scalar registers as captured at decode (R135). -/
abbrev Regs := Vector (BitVec 64) 32

/-- Read a scalar register; s0 reads 0 (R132). -/
def Regs.get (r : Regs) (i : Nat) : BitVec 64 := if i = 0 then 0 else (r.toArray[i]?).getD 0

/-- The address of a reference: offset plus register, not wrapped, so that R151 can refuse a sum that is too large. -/
def Ref.addr (x : Ref) (r : Regs) : Nat := x.off + (r.get x.rb).toNat

/-- Registers that a move reads, and predicates it reads beside its own (R135, R136). -/
structure Reads where
  regs : List Nat := []
  preds : List Nat := []
  deriving DecidableEq, Repr

/-- The registers a reference slot reads by its kind. -/
def refReads (w : MoveWord) (lo kind : Nat) : List Nat := [(kindRef w lo kind).rb]

/-- Registers and predicates that a move names as sources (R135, R152 to R166). -/
def readsOf (w : MoveWord) : Reads :=
  match Hdr.op w with
  | 0x01 | 0x03 | 0x04 | 0x07 => { regs := if bit w 48 then [fld w 47 43] else [] }
  | 0x10 => { regs := fld w 41 37 :: (if bit w 47 then [] else [fld w 46 42]) }
  | 0x11 =>
    if fld w 55 48 < 6 then { regs := fld w 41 37 :: (if bit w 47 then [] else [fld w 46 42]) }
    else { preds := fld w 61 59 :: (if fld w 55 48 = 9 then [] else [fld w 64 62]) }
  | 0x13 => { regs := [(sramRef w 160).rb] }
  | 0x14 => { regs := [(sramRef w 160).rb, fld w 41 37] }
  | 0x20 => { regs := (sramRef w 80).rb :: (if fld w 40 39 = 0 then [] else [(sramRef w 105).rb]) }
  | 0x21 => { regs := (sramRef w 130).rb :: (if fld w 46 45 = 0 then [] else [(sramRef w 155).rb]) }
  | 0x22 => { regs := [(sramRef w 55).rb] }
  | 0x23 => { regs := (sramRef w 112).rb :: (if bit w 66 then [(sramRef w 137).rb] else []) }
  | 0x30 => { regs := [(jobRef w 126).rb, (sramRef w 101).rb, (sramRef w 76).rb] ++
                (if fld w 74 73 = 0 then [] else [(jobRef w 179).rb]) }
  | 0x38 => { regs := [(sramRef w 85).rb, (sramRef w 135).rb, (sramRef w 160).rb] ++
                (if bit w 51 then [fld w 56 52] else [(sramRef w 110).rb]) }
  | 0x39 => { regs := [(sramRef w 51).rb, (sramRef w 76).rb] }
  | 0x40 => { regs := refReads w 128 (fld w 33 32) ++ refReads w 181 (fld w 35 34) }
  | 0x41 | 0x42 => { regs := refReads w 176 (fld w 230 229) }
  | 0x43 => { regs := [fld w 77 73, fld w 82 78] }
  | 0x50 => { regs := refReads w 96 (fld w 72 71) ++ refReads w 149 (fld w 74 73) }
  | 0x60 => { regs := if fld w 33 32 = 1 then [(jobRef w 42).rb] else [] }
  | 0x70 => { regs := [fld w 52 48] }
  | _ => {}

/-- The register that a queued move will write: PASS_SPLIT's status, ATOMIC's fetch (R136). -/
def lateWrite (w : MoveWord) : Option Nat :=
  match Hdr.op w with
  | 0x22 => some (fld w 54 50)
  | 0x43 => if fld w 87 83 = 0 then none else some (fld w 87 83)
  | _ => none

/-- The unused control fields of a control move read 0 (R152): used ranges are given, every other operand bit is
reserved. -/
def onlyUses (w : MoveWord) (used : List (Nat × Nat)) : Bool :=
  w.toNat / 2 ^ 32 * 2 ^ 32 == used.foldl (fun a r => a + fld w r.1 r.2 * 2 ^ r.2) 0

/-- Array shapes by SHAPE code (R154): K, N. -/
def shapeK (shape : Nat) (south : Bool) : Nat := if shape < 4 then 16 else if shape = 5 && south then 64 else 32
def shapeN (shape : Nat) (south : Bool) : Nat := if shape < 4 then 16 else if shape = 5 && !south then 64 else 32

/-- Load stall and pipeline latency of a shape (R44). -/
def loadStall (shape : Nat) (south : Bool) : Nat := shapeK shape south
def latency (shape : Nat) : Nat := if shape < 4 then 6 else if shape = 4 then 64 else 96

/-- Accumulation modes: A32 (INT32 for integer streams), A16, AX (R155). -/
inductive AccMode where
  | a32 | int32 | a16 | ax
  deriving DecidableEq, Repr

/-- Twice the rate ρ of a format pair and mode, or none where R50 and R51 do not accept it. MODE is 0, 1 or 2. -/
def rate2 (st ss : Fmt) (mode : Nat) : Option (Nat × AccMode) :=
  let f8 (f : Fmt) : Bool := f == .e4m3 || f == .e5m2
  let f6 (f : Fmt) : Bool := f == .e3m2 || f == .e2m3
  let fx (f : Fmt) : Bool := f6 f || f == .e2m1
  if f8 st && f8 ss then
    (if mode = 0 then some (2, .a32) else if mode = 1 then some (4, .a16) else some (1, .ax))
  else if st == .int8 && ss == .int8 then (if mode = 0 then some (2, .int32) else none)
  else if (fx st && fx ss) || (st == .int4 && ss == .int4) then
    let r := if f6 st || f6 ss then 4 else 8
    (if mode = 0 then some (r, .a32) else if mode = 2 then some (1, .ax) else none)
  else if st == .t2 && (f8 ss || ss == .int8) then
    (if mode = 0 then some (4, if ss == .int8 then .int32 else .a32) else none)
  else if (st == .bf16 && ss == .bf16) || (st == .fp16 && ss == .fp16) then
    (if mode = 0 then some (1, .a32) else none)
  else none

/-- Steps that R rows take to stream at twice-rate r2: ⌈R/ρ⌉ (R45). -/
def streamSteps (rows r2 : Nat) : Nat := ceilDiv (2 * rows) r2

end Sys2Proof.Machine
end

