-- ==== Sys2Proof/WellFormed.lean ====
section
/-! DEFINITION. Which commands are well formed: a move command carries the opcode of its row (R150). -/

namespace Sys2Proof

/-- The opcode of the move that a command decodes, for the rows of R150. -/
def Instr.opcode : Instr → Option (Nat × MoveWord)
  | .jump _ w => some (0x01, w)
  | .branch _ w => some (0x02, w)
  | .loop _ w => some (0x03, w)
  | .call _ w => some (0x04, w)
  | .return_ _ w => some (0x05, w)
  | .halt _ w => some (0x06, w)
  | .waitTally _ w => some (0x07, w)
  | .waitEpoch _ w => some (0x08, w)
  | .yield_ _ w => some (0x09, w)
  | .salu _ w => some (0x10, w)
  | .tset _ w => some (0x10, w)
  | .tadd _ w => some (0x10, w)
  | .scmp _ w => some (0x11, w)
  | .sldi _ w => some (0x12, w)
  | .sld _ w => some (0x13, w)
  | .sst _ w => some (0x14, w)
  | .sread _ w => some (0x15, w)
  | .loadStationary _ w => some (0x20, w)
  | .pass _ w => some (0x21, w)
  | .passSplit _ w => some (0x22, w)
  | .drain _ w => some (0x23, w)
  | .clear _ w => some (0x24, w)
  | .castle _ w => some (0x25, w)
  | .uncastle _ w => some (0x26, w)
  | .mvPass _ w => some (0x30, w)
  | .vop _ w => some (0x38, w)
  | .reduce _ w => some (0x39, w)
  | .copy _ w => some (0x40, w)
  | .put _ w => some (0x41, w)
  | .get _ w => some (0x42, w)
  | .atomic _ w => some (0x43, w)
  | .signal _ w => some (0x44, w)
  | .fence _ w => some (0x45, w)
  | .project _ w => some (0x50, w)
  | .collIssue _ w => some (0x58, w)
  | .periodMark _ w => some (0x60, w)
  | .trace _ w => some (0x70, w)
  | .break_ _ w => some (0x71, w)
  | _ => none

/-- A command is well formed when a move command carries its row's opcode, TSET and TADD their function codes
(R150, R153), and MOVE_RESERVED_OPCODE an opcode that the table does not list. -/
def Instr.wellFormed (i : Instr) : Bool :=
  match i with
  | .moveReservedOpcode _ w => (Machine.unitOf (Machine.Hdr.op w)).isNone
  | .salu _ w => Machine.Hdr.op w == 0x10 && Machine.fld w 55 48 != 0x0D && Machine.fld w 55 48 != 0x0E
  | .tset _ w => Machine.Hdr.op w == 0x10 && Machine.fld w 55 48 == 0x0D
  | .tadd _ w => Machine.Hdr.op w == 0x10 && Machine.fld w 55 48 == 0x0E
  | i => match i.opcode with
    | some (op, w) => Machine.Hdr.op w == op
    | none => true

end Sys2Proof
end

