-- ==== Sys2Proof/Config.lean ====
section
/-! DEFINITION. What one implementation fixes and what the spec leaves open. No constant here has a body: nothing can
be proved about its value (log 7). -/

namespace Sys2Proof.Machine

/-- A configuration of R125, by the codes of the pass that runs. -/
structure ArrayConfig where
  shape : Nat
  south : Bool
  kv : Nat
  nv : Nat
  fmtT : Fmt
  fmtS : Fmt
  blkT : Nat
  blkS : Nat
  mode : AccMode
  sr : Bool
  deriving DecidableEq, Repr

/-- R125: which two of `len` remaining partial sums of a result column the array adds next. The order is fixed for a
configuration and unspecified. -/
opaque Config.sumPick : ArrayConfig → (col len : Nat) → Nat × Nat

/-- A free value of 64 bits for the n-th open choice of a run (log 2). -/
opaque Config.freeValue : Nat → BitVec 64
/-- Free bytes for the n-th open choice of a run (log 2). -/
opaque Config.freeBytes : Nat → Nat → List Byte

/-- R72: which FP32 code an implementation gives among those within 2 ulp (EXP) or 1 ulp (RECIP, RSQRT) of the exact
result. -/
opaque Config.expPick : BitVec 32 → Nat
opaque Config.recipPick : BitVec 32 → Nat
opaque Config.rsqrtPick : BitVec 32 → Nat

/-- R174, R190 to R192: what the detectors of the mesh measure for an output of the n-th vector run whose exact result is
num · 2^(−half / 2). -/
opaque Config.ppeMeasure : (n out : Nat) → (num : Rat) → (half : Nat) → Rat
/-- R191: the die's temperature holds the specification's condition when the n-th vector runs; and that vector is one of
those, rarer than 10⁻⁹ for each element, with an element beyond 8 % of full scale. -/
opaque Config.ppeSteady : Nat → Bool
opaque Config.ppeOutlier : Nat → Bool

/-- R489: control-ring steps that a region runs in the n-th nanosecond at a voltage (10 mV above 0.60 V). -/
opaque Config.stepsPerNs : (region volt n : Nat) → Nat

/-- R43, R70, R220, R550: how much a counter of waiting inside a unit, or of corrected words, gains in the n-th nanosecond
(log 17). -/
opaque Config.waited : (counter index n : Nat) → Nat

/-- R207: a line with 7 or more symbols in error that is returned miscorrected. -/
opaque Config.miscorrects : Nat → Bool
/-- R207: a line of memory in which symbols go wrong in the n-th nanosecond, and how many. -/
opaque Config.upset : Nat → Option (Nat × Nat)

/-- R332: the exponent of the first of the 16 consecutive roots of the lane code (log 42). -/
opaque Config.rsFirstRoot : Nat

/-- R219: which entry of a full map cache is replaced. -/
opaque Config.replace : Nat → Nat

/-- R35, R28, R453: silicon revision, JEP106 code, serial number, MAC base. -/
opaque Config.siliconRev : BitVec 4
opaque Config.jep106 : BitVec 11
opaque Config.serial : List Byte
opaque Config.macBase : BitVec 48

/-- R465, R366: SLH-DSA verification under a public key and context: key, context, message, signature. -/
opaque Config.verify : List Byte → List Byte → List Byte → List Byte → Bool
/-- R476: signing with the module key: context, message. -/
opaque Config.sign : List Byte → List Byte → List Byte
/-- R473: the module's derived public key. R474: its certificate. R466: the fused firmware key hash. R475: mask ROM. -/
opaque Config.publicKey : List Byte
opaque Config.certificate : List Byte
opaque Config.fwKeyHash : List Byte
opaque Config.romMeasure : List Byte
/-- R9, R458: the order in which the logical names of a row take its 33 physical tiles; the last one is the spare. -/
opaque Config.spareOrder : DieIx → Fin 16 → Equiv.Perm (Fin 33)
/-- R465: byte k of the firmware image written to a bank at manufacture (true: bank B). -/
opaque Config.factoryImage : Bool → Nat → Byte
/-- R367: vendor codes and keys of the trust list of the running image. -/
opaque Config.trustVendors : List (BitVec 32 × List Byte)

/-- R523: how many IDs the module holds beyond 22,000, at most 4,000. -/
opaque Config.moreCounters : Fin 4001
/-- R522: the order of the IDs: the 3,630 counters that the manual names, whose histograms take eight IDs each, and those of
the firmware's own that make up the count of R523. -/
opaque Config.idOrder : Equiv.Perm (Fin (20397 + Config.moreCounters.val))

/-- The catalogue by ID: every counter that the manual names, a histogram as eight consecutive bins, and further counters of
the firmware that have no CtrKey (R522, R523). -/
def Config.catalogue : List (Option CtrKey) :=
  (List.finRange (20397 + Config.moreCounters.val)).flatMap fun k =>
    match namedCounters[(Config.idOrder k).val]? with
    | some (c, i, j) => (List.range (if c.kind = 1 then 8 else 1)).map fun b => some ⟨c, i, j, b⟩
    | none => [none]

/-- The counter of an ID (R522). -/
def Config.counterOfId (id : Nat) : Option CtrKey := Config.catalogue[id]?.join
/-- How many counter IDs there are (R523). -/
def Config.numCounters : Nat := Config.catalogue.length

/-- R523: the catalogue record name, kind and unit, and the value, of a counter that the manual does not name. -/
opaque Config.privateCounter : Nat → List Byte
opaque Config.privateValue : (id n : Nat) → BitVec 64

/-- R357, R523: the pre-FEC bit error rate that the n-th reading of a lane's gauge gives. -/
opaque Config.preFecBer : (port lane n : Nat) → BitVec 64

/-- R481: neighbour sensors that the spec names by place only (nearest of an edge row, beneath), as region and sensor. -/
opaque Config.nearSensors : (region sensor : Nat) → List (Nat × Nat)

/-- R485: the hub core voltage when nothing lowers it, mV. -/
opaque Config.hubMv : Nat

/-- R200: bank and row of a stack line, as the controllers of an implementation map it. -/
opaque Config.bankRow : (stack line : Nat) → Nat × Nat

/-- R426: a lossless priority's share of the receive buffer, in bytes, by the number of lossless priorities. -/
opaque Config.pfcShare : Nat → Nat

/-- R384: the AX96 sum of two values whose anchor would have to rise past 32,767. -/
opaque Config.anchorPast : (left right : BitVec 128) → BitVec 128

/-- R288: the FP32 result of combining pending atomic additions on one word: the order is not given. -/
opaque Config.combineOrder : Nat → Nat

end Sys2Proof.Machine
end

