-- ==== Sys2Proof/Machine/ArrayMath.lean ====
section
/-! DEFINITION. What a pass computes for one result element: products, sums inside the array, accumulation, block
scales, ledger mode, and the stochastic-rounding counters (R85 to R88, R93, R104 to R122). -/

namespace Sys2Proof.Machine

/-- A stationary operand held by cells (R154): codes of row k, column n; scale codes of column n, block b. -/
structure Load where
  fmt : Fmt
  blk : Nat
  kv : Nat
  nv : Nat
  elems : List (List Nat)
  scales : List (List Nat)
  deriving DecidableEq, Repr

/-- One attempt of one array or quadrant pass. -/
structure Attempt where
  cfg : ArrayConfig
  load : Load
  /-- Arithmetic of the attempt; the second A16 attempt prescales (R115). -/
  arith : AccMode
  prescale : Bool := false
  rows : Nat
  len : Nat
  base : Nat
  /-- First result column in its accumulator memory: 16 for Q1 and Q3. -/
  col0 : Nat := 0
  ovw : Bool
  seed : BitVec 64
  tile : Nat
  passIx : BitVec 32
  /-- Pass anchor in force (R119, R122). -/
  anchor : Int := 0
  deriving DecidableEq, Repr

/-- Codes of streamed row i and its scale codes. -/
abbrev Stream := Nat → List Nat × List Nat

/-- The scale exponent of element k under a block-size code and its scale codes: none for a NaN scale (R84, R87). -/
def scaleExp (blk k : Nat) (scales : List Nat) : Option Int :=
  if blk = 0 then some 0 else
  let c := scales.getD (k / blockSize blk) 0
  if c = 255 then none else some ((c : Int) - 127)

/-- The exact product of stationary element (k, n) and streamed element k of row i (R85, R93). -/
def Attempt.product (p : Attempt) (st : Stream) (i n k : Nat) : Val :=
  let t := (p.load.elems.getD k []).getD n 0
  let s := (st i).1.getD k 0
  match scaleExp p.load.blk k (p.load.scales.getD n []), scaleExp p.cfg.blkS k (st i).2 with
  | some e, some f =>
    (((p.load.fmt.decode t).mul (p.cfg.fmtS.decode s)).scale (e + f)).scale (if p.prescale then -8 else 0)
  | _, _ => .nan

/-- Add a list in the order of the configuration (R125): `step` adds two, `out` gathers what it counted. -/
def sumOrder {α : Type} (cfg : ArrayConfig) (col : Nat) (step : α → α → α) : Nat → List α → List α
  | 0, xs => xs
  | n + 1, xs =>
    if xs.length ≤ 1 then xs else
    let (a, b) := Config.sumPick cfg col xs.length
    let i := a % xs.length
    let ys := xs.eraseIdx i
    let j := b % ys.length
    match xs[i]?, ys[j]? with
    | some x, some y => sumOrder cfg col step n (step x y :: ys.eraseIdx j)
    | _, _ => xs

/-- A partial sum in a floating format: its value, how many finite results overflowed (R111, R115). -/
structure PSum where
  v : Val
  ovf : Nat := 0
  deriving DecidableEq, Repr

/-- One floating addition of the cell registers, RNE (R109). -/
def PSum.add (f : Fmt) (x y : PSum) : PSum :=
  let (v, o) := f.round .rne (x.v.add y.v)
  ⟨v, x.ovf + y.ovf + o.toNat⟩

/-- A product as the cell registers take it: exact, or an infinity beyond the format's range (R111, R115). -/
def PSum.ofProduct (f : Fmt) (v : Val) : PSum :=
  if (f.round .rne v).2 then ⟨(f.round .rne v).1, 1⟩ else ⟨v, 0⟩

/-- The contribution of streamed row i to column n, in FP32 or FP16 (R109). -/
def Attempt.contribF (p : Attempt) (st : Stream) (f : Fmt) (i n : Nat) : PSum :=
  let ps := (List.range p.load.kv).map fun k => PSum.ofProduct f (p.product st i n k)
  (sumOrder p.cfg n (PSum.add f) ps.length ps).headD ⟨.fin false 0 0, 0⟩

/-- Wrap to INT32. -/
def wrap32 (z : Int) : Int := signed 32 (z % 2 ^ 32).toNat

/-- An integer partial sum and whether an addition left the INT32 range (R112). -/
structure ISum where
  z : Int
  wrapped : Bool := false
  deriving DecidableEq, Repr

/-- One INT32 addition (R112). -/
def ISum.add (x y : ISum) : ISum := ⟨wrap32 (x.z + y.z), x.wrapped || y.wrapped || wrap32 (x.z + y.z) != x.z + y.z⟩

/-- The integer of an exact integral value. -/
def Val.toInt : Val → Int
  | .fin s m e => let n : Int := (m * 2 ^ e.toNat : Nat); if s then -n else n
  | _ => 0

/-- The INT32 contribution of streamed row i to column n: the exact sum modulo 2^32; the order decides only the
wrapped flag (R112). -/
def Attempt.contribI (p : Attempt) (st : Stream) (i n : Nat) : ISum :=
  let zs := (List.range p.load.kv).map fun k => (p.product st i n k).toInt
  let w := (sumOrder p.cfg n ISum.add zs.length (zs.map fun z => ⟨z, false⟩)).any ISum.wrapped
  ⟨wrap32 zs.sum, w⟩

/-- The random value of an accumulation (R113): row address, column, fold, sub-index. -/
def Attempt.u (p : Attempt) (row col fold sub : Nat) : Nat :=
  philoxU p.seed p.passIx.toNat (p.tile * 2 ^ 20 + row * 2 ^ 8 + (p.col0 + col) * 4) (fold * 2 ^ 8 + sub) 1

/-- The rounding rule of an accumulation of the pass (R110). -/
def Attempt.rnd (p : Attempt) (row col fold sub : Nat) : Rnd :=
  if p.cfg.sr then .sr (p.u row col fold sub) else .rne

/-- A ledger value in the making: V at an anchor with dust, or a non-finite value (R94, R95). -/
structure Ax where
  v : Int
  a : Int
  dust : Nat := 0
  special : Option Val := none
  deriving DecidableEq, Repr

/-- The ledger value of a committed code, and whether its non-finite encoding was invalid (R95). -/
def Ax.ofCode (c : Nat) : Ax :=
  let d := c / 2 ^ 112 % 2 ^ 16
  match decodeAx96 c with
  | .fin s m e => ⟨if s then -(m : Int) else m, e, d, none⟩
  | v => ⟨0, 0, 0xFFFF, some v⟩

/-- The AX96 code of a ledger value (R94, R95). -/
def Ax.code (x : Ax) : Nat :=
  match x.special with
  | some v => ax96Nonfinite v
  | none => packAx96 x.v x.a x.dust

/-- Move a ledger value up to an anchor (R121): rounded bits count one dust. -/
def Ax.align (r : Rnd) (up : Int) (x : Ax) : Ax × Bool :=
  if up ≤ x.a then (x, false) else
  let (n, lost) := roundAt r x.v.natAbs x.a up
  (⟨if x.v < 0 then -(n : Int) else n, up, x.dust + lost.toNat, x.special⟩, lost && x.special.isNone)

/-- Combine two non-finite values or one with a finite (R95). -/
def combineSpecial (x y : Option Val) : Option Val :=
  match x, y with
  | none, y => y
  | x, none => x
  | some a, some b => some (a.add b)

/-- The ledger contribution of streamed row i to column n at the pass anchor: rounded products, their dust, and how
many lost bits (R120). -/
def Attempt.contribAx (p : Attempt) (st : Stream) (row i n : Nat) : Ax × Nat :=
  (List.range p.load.kv).foldl (fun (acc : Ax × Nat) k =>
    match p.product st i n k with
    | .fin s m e =>
      let (q, lost) := roundAt (p.rnd row n (i / p.len) k) m e p.anchor
      (⟨acc.1.v + (if s then -(q : Int) else q), p.anchor, acc.1.dust + lost.toNat, acc.1.special⟩, acc.2 + lost.toNat)
    | v => ({ acc.1 with special := combineSpecial acc.1.special (some v) }, acc.2)) (⟨0, p.anchor, 0, none⟩, 0)

/-- An element of the accumulator as a pass reads it (R107): what a half-row holds in a column. -/
inductive Elem where
  | zero
  | f (v : Val)
  | i (z : Int)
  | ax (x : Ax)
  deriving DecidableEq, Repr

/-- What an element's fold came to: its new value, the first streamed row that overflowed, and what was counted. -/
structure ElemOut where
  e : Elem
  overflow : Option Nat := none
  a32ovf : Nat := 0
  wrapped : Bool := false
  dustEvents : Nat := 0
  deriving DecidableEq, Repr

/-- Earliest of two overflow rows. -/
def minOpt (a b : Option Nat) : Option Nat :=
  match a, b with
  | some x, some y => some (min x y)
  | none, y => y
  | x, none => x

/-- One contribution added into a floating element (R105, R109, R110). -/
def Attempt.stepF (p : Attempt) (st : Stream) (f : Fmt) (row n : Nat) (o : ElemOut) (i : Nat) : ElemOut :=
  if o.overflow.isSome then o else
  let c := p.contribF st f i n
  let r := if f = .fp32 then p.rnd row n (i / p.len) 0 else .rne
  let cur : Val := match o.e with | .f v => v | _ => .fin false 0 0
  let (v, ov) := f.round r (if p.ovw && i < p.len then c.v else cur.add c.v)
  let bad := c.ovf + ov.toNat
  if f = .fp32 then { o with e := .f v, a32ovf := o.a32ovf + bad }
  else { o with e := .f v, overflow := if bad > 0 then some i else none }

/-- One contribution added into an integer element (R112). -/
def Attempt.stepI (p : Attempt) (st : Stream) (n : Nat) (o : ElemOut) (i : Nat) : ElemOut :=
  let c := p.contribI st i n
  let cur : ISum := match o.e with | .i z => ⟨z, o.wrapped⟩ | _ => ⟨0, o.wrapped⟩
  let r := if p.ovw && i < p.len then ⟨c.z, o.wrapped || c.wrapped⟩ else cur.add c
  { o with e := .i r.z, wrapped := r.wrapped }

/-- One contribution added into a ledger element (R120 to R122). -/
def Attempt.stepAx (p : Attempt) (st : Stream) (row n : Nat) (o : ElemOut) (i : Nat) : ElemOut :=
  if o.overflow.isSome then o else
  let (c, lost) := p.contribAx st row i n
  let cur : Ax := match o.e with
    | .ax x => if p.ovw && i < p.len then ⟨0, p.anchor, 0, none⟩ else x
    | _ => ⟨0, p.anchor, 0, none⟩
  let special := combineSpecial cur.special c.special
  if special.isSome then { o with e := .ax ⟨0, 0, 0xFFFF, special⟩, dustEvents := o.dustEvents + lost } else
  let up := max cur.a c.a
  let r := p.rnd row n (i / p.len) 64
  let (x, l1) := cur.align r up
  let (y, l2) := c.align r up
  let z : Ax := ⟨x.v + y.v, up, min (x.dust + y.dust) 0xFFFF, none⟩
  let bad := z.v.natAbs ≥ 2 ^ 95 || x.v.natAbs ≥ 2 ^ 95
  { o with
    e := .ax z
    overflow := if bad then some i else none
    dustEvents := o.dustEvents + lost + l1.toNat + l2.toNat }

/-- The streamed rows that contribute to row j of the range, in order (R104). -/
def Attempt.rowsOf (p : Attempt) (j : Nat) : List Nat :=
  (List.range (ceilDiv (p.rows - j) p.len)).map fun f => j + f * p.len

/-- The new value of row j, column n, of the range from the element read at its first contribution (R105). -/
def Attempt.elem (p : Attempt) (st : Stream) (j n : Nat) (old : Elem) : ElemOut :=
  let row := p.base + j
  let start : ElemOut := { e := old }
  match p.arith with
  | .a32 => (p.rowsOf j).foldl (p.stepF st .fp32 row n) start
  | .a16 => (p.rowsOf j).foldl (p.stepF st .fp16 row n) start
  | .int32 => (p.rowsOf j).foldl (p.stepI st n) start
  | .ax => (p.rowsOf j).foldl (p.stepAx st row n) start

/-- The anchor of an AX pass before raises (R119). -/
def anchorOf (fmtT fmtS : Fmt) (load : Load) (ceil : Nat) : Int :=
  let blocks := (load.scales.take load.nv).flatMap fun cs => cs.take (ceilDiv load.kv (blockSize load.blk))
  let es := (blocks.filter (· != 255)).map fun c => (c : Int) - 127
  let st : Int := if load.blk = 0 then 0 else match es with | [] => 0 | e :: r => r.foldl max e
  let cl : Int := if load.blk = 0 then 0 else (ceil : Int) - 127
  fmtT.ledger.1 + fmtS.ledger.1 + st + cl - 63

end Sys2Proof.Machine
end

