-- ==== Sys2Proof/Machine/DataColl.lean ====
section
/-! DEFINITION. State of the collective engine (14 of spec/). -/

namespace Sys2Proof.Machine

/-- The logical topology of a job (R379): the sizes of four axes, and the table entries loaded so far. -/
structure Topo where
  job : BitVec 12
  naxes : Nat
  sizes : List Nat
  fids : List (BitVec 16) := []
  deriving DecidableEq, Repr

/-- A group (R380, R381): its record, own rank, and the FIDs of its members by rank. -/
structure Group where
  id : BitVec 16
  job : BitVec 12
  record : GroupRecord
  rank : Nat
  fids : List (BitVec 16)
  deriving DecidableEq, Repr

/-- What a COLL_ISSUE asked (R164), and the move that asked it. -/
structure Issue where
  tile : Nat
  id : Nat
  epoch : BitVec 8
  op : Nat
  dtype : Nat
  policy : Nat
  rop : Nat
  ctal : Nat
  cten : Bool
  root : Nat
  count : Nat
  src : Nat
  dst : Nat
  deriving DecidableEq, Repr

/-- A data packet as it is kept in the frame (R390 to R392). -/
structure Datum where
  src : Nat
  phase : Nat
  elem : Nat
  wide : Bool
  bytes : List Byte
  /-- The context has consumed it. -/
  used : Bool := false
  deriving DecidableEq, Repr

/-- A data packet still to be sent: to a rank, with its step, first element, whether its data are wide, and the byte offset
that decides its chunk (R391, R393). -/
structure CollPkt where
  dst : Nat
  phase : Nat
  elem : Nat
  off : Nat
  wide : Bool
  bytes : List Byte
  deriving DecidableEq, Repr

/-- A part of the vector that the endpoint algorithm carries (R393): its element range, step, whether the step's data have
been sent, and the values held. -/
structure Part where
  lo : Nat
  hi : Nat
  step : Nat := 0
  sent : Bool := false
  vals : List Nat := []
  done : Bool := false
  deriving DecidableEq, Repr

/-- Where a share of a plane stands (R398 to R401). -/
inductive ShareState where
  | requested | backoff (till : Nat) | granted | fallback | done
  deriving DecidableEq, Repr

/-- A plane's share (R396): bytes [lo, hi) of the wide vector. -/
structure Share where
  port : PortIx
  lo : Nat
  hi : Nat
  state : ShareState := .requested
  refusals : Nat := 0
  first : Nat
  /-- Slots granted, whether the grant is ordered, and whether it is still held. -/
  slots : Nat := 0
  ordered : Bool := true
  held : Bool := false
  round : Nat := 0
  sentAt : Nat := 0
  /-- RESULT pieces of the round by byte offset, and the results of earlier rounds. -/
  got : List (Nat × List Byte) := []
  result : List Byte := []
  deriving DecidableEq, Repr

/-- A context (R387): local or of the reserve, bound to its issue or only admitted. -/
structure Ctx where
  group : BitVec 16
  seq : BitVec 32
  job : BitVec 12
  reserve : Bool
  issue : Option Issue := none
  /-- The copy engine has handed its move over (R136). -/
  begun : Bool := false
  /-- The algorithm chosen, once one has been (R386, R393). -/
  algo : Option Nat := none
  start : Nat := 0
  last : Nat := 0
  /-- The operation's vector as it was read from SRC (R383). -/
  vals : List Nat := []
  parts : List Part := []
  shares : List Share := []
  data : List Datum := []
  out : List CollPkt := []
  nextIx : Nat := 0
  /-- A frame is its own (R390); none while a local issue waits for one. -/
  frame : Bool := true
  fellBack : Bool := false
  nondet : Bool := false
  planes : BitVec 16 := 0
  written : Bool := false
  failing : Option (BitVec 16) := none
  held : Bool := false
  deriving DecidableEq, Repr

/-- A completion record (R386). -/
structure CollRec where
  group : BitVec 16
  job : BitVec 12
  seq : BitVec 32
  time : BitVec 64
  op : Nat
  dtype : Nat
  algo : Nat
  flags : BitVec 8
  count : Nat
  status : BitVec 16
  planes : BitVec 16
  deriving DecidableEq, Repr

/-- The escrow books of a plane port (R403). -/
structure EscBook where
  granted : Nat := 0
  held : Nat := 0
  requested : Nat := 0
  /-- RELEASEs sent and not answered: keys and slots. -/
  releasing : List (EscrowKey × Nat) := []
  deriving DecidableEq, Repr

/-- The collective engine (R379 to R405). -/
structure Coll where
  topos : List Topo := []
  groups : List Group := []
  ctxs : List Ctx := []
  /-- Oldest first, at most 1,024. -/
  history : List CollRec := []
  books : Vector EscBook 16 := Vector.replicate 16 {}
  deriving DecidableEq, Repr

end Sys2Proof.Machine
end

