-- ==== Sys2Proof/Machine/VecMath.lean ====
section
/-! DEFINITION. The lane functions of the vector unit, its reductions, block quantisation, PA6 records, and the dot
products of the MV unit (R69 to R73, R88, R97, R98, R127, R160). -/

namespace Sys2Proof.Machine

/-- The FP32 code of an exact value under RNE; overflow gives an infinity (R72). -/
def fp32Code (v : Val) : Nat := (Fmt.fp32.encode .rne false 0 v).1

/-- Add neighbours: the pairs of one level of a binary tree; an unpaired operand passes up (R73, R127, R128). -/
def treeLevel {α : Type} (f : α → α → α) : List α → List α
  | a :: b :: r => f a b :: treeLevel f r
  | r => r

/-- A fixed binary tree over position. -/
def treeFold {α : Type} (f : α → α → α) : Nat → List α → List α
  | 0, xs => xs
  | n + 1, xs => if xs.length ≤ 1 then xs else treeFold f n (treeLevel f xs)

/-- Choose among FP32 magnitude codes near an exact result (R72): of an exact one its neighbours too, else the two
around it. -/
def pickNear (pick code : Nat) (exact : Bool) : Nat :=
  if exact then (if code = 0 then pick % 2 else code - 1 + pick % 3) else code + pick % 2

/-- The magnitude code below or at n · 2^q, with an infinity beyond the range. -/
def floorCode (n : Nat) (q : Int) : Nat :=
  match Fmt.fp32.float with
  | some f => let (c, o) := f.roundMag .rtz n q; if o then f.maxCode + 1 else c
  | none => 0

/-- Reciprocal within 1 ulp (R72). -/
def recipLane (c : Nat) : Nat :=
  match Fmt.fp32.decode c with
  | .nan => 0x7FC00000
  | .inf s => if s then 0x80000000 else 0
  | .fin s m e =>
    let sg := if s then 0x80000000 else 0
    if m = 0 then sg + 0x7F800000 else
    let k := m.log2 + 64
    let code := floorCode (2 ^ k / m) (-(k : Int) - e)
    if code ≥ 0x7F800000 then sg + 0x7F800000 else
    let exact := ((Fmt.fp32.decode code).mul (.fin false m e)).eq (.fin false 1 0)
    sg + pickNear (Config.recipPick (BitVec.ofNat 32 c)) code exact

/-- Reciprocal square root within 1 ulp (R72); of a negative number it is NaN. -/
def rsqrtLane (c : Nat) : Nat :=
  match Fmt.fp32.decode c with
  | .nan => 0x7FC00000
  | .inf s => if s then 0x7FC00000 else 0
  | .fin s m e =>
    if m = 0 then (if s then 0xFF800000 else 0x7F800000)
    else if s then 0x7FC00000 else
    let (m, e) := if e % 2 = 0 then (m, e) else (2 * m, e - 1)
    let code := floorCode (Nat.sqrt (2 ^ 240 / m)) (-120 - e / 2)
    let v := Fmt.fp32.decode code
    let exact := ((v.mul v).mul (.fin false m e)).eq (.fin false 1 0)
    pickNear (Config.rsqrtPick (BitVec.ofNat 32 c)) code exact

/-- e^(m · 2^e) to some 100 bits, as n · 2^q. -/
def expApprox (neg : Bool) (m : Nat) (e : Int) : Nat × Int :=
  if m = 0 then (1, 0)
  else if e + m.log2 ≥ 8 then (1, if neg then -400 else 400) else
  let k := (max 0 (e + m.log2 + 8)).toNat
  let y := (roundAt .rtz m (e - k + 160) 0).1
  let t := ((List.range 24).foldl (fun (acc : Nat × Nat) i =>
    (acc.1 + acc.2, acc.2 * y / 2 ^ 160 / (i + 1))) (0, 2 ^ 160)).1
  let sq := (List.range k).foldl (fun (acc : Nat × Int) _ =>
    let n := acc.1 * acc.1
    let sh := n.log2 - 160
    (n / 2 ^ sh, 2 * acc.2 + sh)) (t, -160)
  if neg then (2 ^ 400 / sq.1, -400 - sq.2) else sq

/-- Exponential within 2 ulp (R72). -/
def expLane (c : Nat) : Nat :=
  match Fmt.fp32.decode c, Fmt.fp32.float with
  | .inf s, _ => if s then 0 else 0x7F800000
  | .fin s m e, some f =>
    let (n, q) := expApprox s m e
    let (near, o) := f.roundMag .rne n q
    let near := if o then 0x7F800000 else near
    let want := near + Config.expPick (BitVec.ofNat 32 c) % 5 - 2
    match (if want < 0x7F800000 then Fmt.fp32.decode want else .nan) with
    | .fin _ a b =>
      let u := f.ulp n q
      let lo := min (min b q) u
      let x : Int := (a * 2 ^ (b - lo).toNat : Nat)
      let y : Int := (n * 2 ^ (q - lo).toNat : Nat)
      if (x - y).natAbs ≤ 2 * 2 ^ (u - lo).toNat then want else near
    | _ => near
  | _, _ => 0x7FC00000

/-- What a lane gives: the codes among which the spec leaves the result open, one where it states it, and none where it
says nothing of the value. -/
abbrev VLane := List Nat

/-- MIN or MAX of two FP32 codes (R72). The spec does not say which zero of two of opposite sign is the result, nor whether
a NaN or the other operand is; a NaN that is produced is the canonical one (R79). -/
def fpMinMax (mx : Bool) (a b : Nat) : VLane :=
  let (x, y) := (Fmt.fp32.decode a, Fmt.fp32.decode b)
  if x = .nan then (if y = .nan then [0x7FC00000] else [0x7FC00000, b])
  else if y = .nan then [0x7FC00000, a]
  else if x.lt y then [if mx then b else a]
  else if y.lt x then [if mx then a else b]
  else if a = b then [a] else [a, b]

/-- MIN or MAX of two results that may be open: of every pair of their codes. -/
def laneMinMax (mx : Bool) (a b : VLane) : VLane :=
  (a.flatMap fun x => b.flatMap fun y => fpMinMax mx x y).eraseDups

/-- All ones or zero (R160). -/
def maskOf (w : Nat) (b : Bool) : VLane := [if b then 2 ^ w - 1 else 0]

/-- An FP32 lane (R72, R160). -/
def fpLane (fn a b d : Nat) : VLane :=
  let (x, y, z) := (Fmt.fp32.decode a, Fmt.fp32.decode b, Fmt.fp32.decode d)
  match fn with
  | 0x01 => [fp32Code (x.add y)]
  | 0x02 => [fp32Code (x.add y.neg)]
  | 0x03 => [fp32Code (x.mul y)]
  | 0x04 => [fp32Code ((x.mul y).add z)]
  | 0x05 => fpMinMax false a b
  | 0x06 => fpMinMax true a b
  | 0x07 => [if x = .nan then 0x7FC00000 else a % 2 ^ 31]
  | 0x08 => [if x = .nan then 0x7FC00000 else (a + 2 ^ 31) % 2 ^ 32]
  | 0x10 => [expLane a]
  | 0x11 => [recipLane a]
  | 0x12 => [rsqrtLane a]
  | 0x40 => maskOf 32 (x.eq y)
  | 0x41 => maskOf 32 (x.lt y)
  | 0x42 => maskOf 32 (x.lt y || x.eq y)
  | _ => []

/-- An integer result that fits its lane; where it does not, the spec states no result. -/
def fitInt (w : Nat) (z : Int) : VLane :=
  if -(2 ^ (w - 1) : Int) ≤ z && z < 2 ^ (w - 1) then [(z % 2 ^ w).toNat] else []

/-- An integer lane of w bits (R72, R160). -/
def intLane (fn w a b d : Nat) : VLane :=
  let (x, y, z) := (signed w a, signed w b, signed w d)
  match fn with
  | 0x01 => fitInt w (x + y)
  | 0x02 => fitInt w (x - y)
  | 0x03 => fitInt w (x * y)
  | 0x04 => fitInt w (x * y + z)
  | 0x05 => fitInt w (min x y)
  | 0x06 => fitInt w (max x y)
  | 0x07 => fitInt w x.natAbs
  | 0x08 => fitInt w (-x)
  | 0x40 => maskOf w (a == b)
  | 0x41 => maskOf w (x < y)
  | 0x42 => maskOf w (x ≤ y)
  | _ => []

/-- Bitwise functions and shifts on the bits of a lane; a shift count of the lane's width or more has no stated result. -/
def bitLane (fn w a b : Nat) : VLane :=
  match fn with
  | 0x30 => [Nat.land a b]
  | 0x31 => [Nat.lor a b]
  | 0x32 => [Nat.xor a b]
  | 0x33 => if b < w then [a * 2 ^ b % 2 ^ w] else []
  | 0x34 => if b < w then [a / 2 ^ b] else []
  | 0x35 => if b < w then [(signed w a / 2 ^ b % 2 ^ w).toNat] else []
  | _ => []

/-- One lane of VOP (R160). -/
def vecLane (fn : Nat) (int : Bool) (w a b d : Nat) : VLane :=
  if 0x30 ≤ fn && fn ≤ 0x35 then bitLane fn w a b
  else if int then intLane fn w a b d
  else fpLane fn a b d

/-- VOP functions (R160). -/
def vopFns : List Nat := [0x01, 0x02, 0x03, 0x04, 0x05, 0x06, 0x07, 0x08, 0x10, 0x11, 0x12, 0x20, 0x21,
  0x30, 0x31, 0x32, 0x33, 0x34, 0x35, 0x40, 0x41, 0x42]

/-- Functions that take operand B. -/
def usesB (fn : Nat) : Bool := (0x01 ≤ fn && fn ≤ 0x06) || fn ≥ 0x30

/-- One result of REDUCE over 64 codes (R73). -/
def reduceGroup (op : Nat) (int : Bool) (xs : List Nat) : VLane :=
  if int then
    let zs := xs.map (signed 32)
    match op with
    | 0 => fitInt 32 zs.sum
    | 1 => fitInt 32 (zs.foldl min (zs.headD 0))
    | _ => fitInt 32 (zs.foldl max (zs.headD 0))
  else match op with
    | 0 => (treeFold (fun a b => fp32Code ((Fmt.fp32.decode a).add (Fmt.fp32.decode b))) 7 xs).take 1
    | _ => (treeFold (laneMinMax (op == 2)) 7 (xs.map fun x => [x])).headD []

/-- Elements of one PA6 record: none for an invalid element (R97, R98). -/
def pa6Values (rec_ : List Byte) : List (Option Val) :=
  let bad := (leNat ((rec_.drop 98).take 2)) % 2 = 1
  let scale := Fmt.fp16.decode (leNat ((rec_.drop 96).take 2))
  (List.range 128).map fun i =>
    let c := signed 6 (eltAt rec_ 6 i)
    if bad || c = -32 then none else some ((Val.ofInt c).mul scale)

/-- The scale code of a block that the vector unit quantises (R88). -/
def blockScaleCode (df : Fmt) (vs : List Val) : Nat :=
  let fins := vs.filterMap fun v => match v with | .fin _ m e => if m = 0 then none else some ((m.log2 : Int) + e) | _ => none
  let infs := vs.any fun v => match v with | .inf _ => true | _ => false
  if vs.contains .nan then 0xFF
  else match fins with
    | [] => if infs then 0xFE else 0
    | x :: xs =>
      let e := xs.foldl max x - df.emax.getD 0
      ((max (-127) (min 127 e)) + 127).toNat

/-- Quantise one element under its block's scale code (R88). An infinity saturates whatever the saturate bit says. The
elements of a block that receives scale 0xFF are written as 0, and its NaNs, which the scale keeps, are not counted as lost
(log 10). -/
def blockElem (df : Fmt) (r : Rnd) (sat : Bool) (code : Nat) (v : Val) : Nat × CvtFlags :=
  if code = 0xFF then (0, {}) else
  let k : Int := if df = .int8 then 6 else 0
  let inf := match v with | .inf _ => true | _ => false
  df.encode r (sat || inf) 0 (v.scale (k - ((code : Int) - 127)))

/-- The value of a block-scaled element as VOP reads it (R84, R87, R88). -/
def scaledVal (f : Fmt) (blk : Nat) (scale code : Nat) : Val :=
  if blk = 0 then f.decode code
  else if scale = 255 then .nan
  else (f.decode code).scale ((scale : Int) - 127 - (if f = .int8 then 6 else 0))

/-- A dot product of the MV unit in FP32 (R127): groups of 128 along a binary tree, then in ascending order. -/
def mvDot (ps : List Val) : Nat :=
  let add (a b : Nat) : Nat := fp32Code ((Fmt.fp32.decode a).add (Fmt.fp32.decode b))
  let addV (a b : Val) : Val := Fmt.fp32.decode (fp32Code (a.add b))
  let groups := (List.range (ceilDiv ps.length 128)).map fun g =>
    fp32Code ((treeFold addV 8 ((ps.drop (128 * g)).take 128)).headD (.fin false 0 0))
  match groups with
  | [] => 0
  | g :: gs => gs.foldl add g

end Sys2Proof.Machine
end

