-- ==== Sys2Proof/Machine/CollMath.lean ====
section
/-! DEFINITION. The arithmetic and the exchange steps of collectives (R383, R384, R393, R394). -/

namespace Sys2Proof.Machine

/-- The DTYPEs of a collective (R164, R385). -/
def collFmt (code : Nat) : Option Fmt :=
  (Fmt.ofCode code).filter fun f => f == .fp32 || f == .bf16 || f == .fp16 || f == .int32 || f == .ax96

/-- Bytes of an element. -/
def elemBytes (f : Fmt) : Nat := f.width / 8

/-- OP reduces: all-reduce, reduce-scatter, reduce (R383). -/
def opReduces (op : Nat) : Bool := op == 0 || op == 1 || op == 4

/-- BF16 and FP16 sums travel as FP32 (R384, R391). -/
def carriesWide (op rop : Nat) (f : Fmt) : Bool := opReduces op && rop == 0 && (f == .bf16 || f == .fp16)

/-- The format in which values travel. -/
def carryFmt (op rop : Nat) (f : Fmt) : Fmt := if carriesWide op rop f then .fp32 else f

/-- Sum of two AX96 values: the larger anchor, RNE, and the anchor raised by 32 where the sum does not fit (R384). A raise
past the anchors of R94 has no result in the spec, and is a free value (log 22). -/
def axSum (a b : Nat) : Nat :=
  let x := Ax.ofCode a
  let y := Ax.ofCode b
  match combineSpecial x.special y.special with
  | some v => Ax.code ⟨0, 0, 0xFFFF, some v⟩
  | none =>
    let up := max x.a y.a
    let (x, _) := x.align .rne up
    let (y, _) := y.align .rne up
    let v := x.v + y.v
    let d := min (x.dust + y.dust) 0xFFFF
    if v.natAbs < 2 ^ 95 then Ax.code ⟨v, up, d, none⟩
    else
      let (n, _) := roundAt .rne v.natAbs 0 32
      if up + 32 > 32767 then (Config.anchorPast (BitVec.ofNat 128 a) (BitVec.ofNat 128 b)).toNat
      else Ax.code ⟨if v < 0 then -(n : Int) else n, up + 32, min (d + 1) 0xFFFF, none⟩

/-- Minimum or maximum of two floating codes: −0 below +0, canonical NaN where either is NaN (R384). -/
def floatPick (f : Fmt) (mx : Bool) (a b : Nat) : Nat :=
  let x := f.decode a
  let y := f.decode b
  if x = .nan || y = .nan then (f.encode .rne false 0 .nan).1
  else
    let below := x.lt y || (x.eq y && a ≥ 2 ^ (f.width - 1))
    if below != mx then a else b

/-- ROP of a left and a right operand in the travelling format (R384, R394). -/
def combineElem (f : Fmt) (rop l r : Nat) : Nat :=
  match f with
  | .ax96 => axSum l r
  | .int32 =>
    if rop = 0 then (l + r) % 2 ^ 32
    else if (signed 32 l < signed 32 r) == (rop == 1) then l else r
  | f => if rop = 0 then fp32Code ((f.decode l).add (f.decode r)) else floatPick f (rop == 2) l r

/-- A source element in the travelling format: BF16 and FP16 contributions exactly in FP32 (R384). -/
def widen (wide : Bool) (f : Fmt) (c : Nat) : Nat := if wide then fp32Code (f.decode c) else c

/-- A travelling value in DTYPE: rounded once (R384). -/
def narrow (wide : Bool) (f : Fmt) (c : Nat) : Nat := if wide then (f.encode .rne false 0 (Fmt.fp32.decode c)).1 else c

/-! ## Steps (R393, R394) -/

/-- How received elements enter the vector: set, combined as the left or the right addend, or set at another place. -/
inductive Comb where
  | set | left | right | setAt (base : Nat)
  deriving DecidableEq, Repr

/-- One step: sends (rank, element range) and receives (rank, element range, how). The data of a final step are sums that are
complete, and travel in DTYPE (R391, R393). -/
structure CStep where
  sends : List (Nat × Nat × Nat) := []
  recvs : List (Nat × Nat × Nat × Comb) := []
  final : Bool := false
  deriving DecidableEq, Repr

/-- The rank whose value of the sibling block a rank receives at step k: its rank XOR 2^k where that exists; in the last,
incomplete block another member that holds the same value (log 22). -/
def sibling (n k r : Nat) : Option Nat :=
  let start := Nat.xor (r / 2 ^ k) 1 * 2 ^ k
  if start ≥ n then none else some (start + r % 2 ^ k % min (2 ^ k) (n - start))

/-- The ranks that receive from rank r at step k. -/
def receivers (n k r : Nat) : List Nat := (List.range n).filter fun q => sibling n k q == some r

/-- Levels of the rank tree. -/
def levels (n : Nat) : Nat := if n ≤ 1 then 0 else (n - 1).log2 + 1

/-- Recursive doubling of a reduction over elements [lo, hi). -/
def doublingSteps (n r lo hi : Nat) : List CStep :=
  (List.range (levels n)).map fun k =>
    { sends := (receivers n k r).map fun q => (q, lo, hi)
      recvs := match sibling n k r with
        | some p => [(p, lo, hi, if p < r then .left else .right)]
        | none => [] }

/-- Block j of a vector of len elements in blocks of b. -/
def blockRange (b len j : Nat) : Nat × Nat := (min (j * b) len, min ((j + 1) * b) len)

/-- The blocks that are congruent to c modulo m, as sends or receives. -/
def blocksOf (n b len m c : Nat) : List (Nat × Nat) :=
  (((List.range n).filter fun j => j % m == c % m).map (blockRange b len)).filter fun x => x.1 < x.2

/-- Pairwise halving for N a power of two (R393): after step k a member keeps the blocks equal to its rank modulo
2^(k+1). -/
def halvingSteps (n r b len : Nat) : List CStep :=
  (List.range (levels n)).map fun k =>
    let p := Nat.xor r (2 ^ k)
    { sends := (blocksOf n b len (2 ^ (k + 1)) p).map fun x => (p, x.1, x.2)
      recvs := (blocksOf n b len (2 ^ (k + 1)) r).map fun x => (p, x.1, x.2, if p < r then .left else .right) }

/-- All-gather by distance halving, for N a power of two. -/
def gatherBack (n r b len : Nat) : List CStep :=
  (List.range (levels n)).reverse.map fun k =>
    let p := Nat.xor r (2 ^ k)
    { sends := (blocksOf n b len (2 ^ (k + 1)) r).map fun x => (p, x.1, x.2)
      recvs := (blocksOf n b len (2 ^ (k + 1)) p).map fun x => (p, x.1, x.2, .set)
      final := true }

/-- All-gather by recursive doubling: the aligned group of 2^k ranks. -/
def gatherSteps (n r b len : Nat) : List CStep :=
  (List.range (levels n)).map fun k =>
    let grp (q : Nat) : Nat × Nat := (min (q / 2 ^ k * 2 ^ k * b) len, min ((q / 2 ^ k + 1) * 2 ^ k * b) len)
    { sends := (receivers n k r).map fun q => (q, (grp r).1, (grp r).2)
      recvs := match sibling n k r with
        | some p => [(p, (grp p).1, (grp p).2, .set)]
        | none => [] }

/-- Binomial tree from ROOT (log 22). -/
def treeSteps (n r root len : Nat) : List CStep :=
  let v := (r + n - root) % n
  (List.range (levels n)).map fun k =>
    { sends := if v < 2 ^ k && v + 2 ^ k < n then [((v + 2 ^ k + root) % n, 0, len)] else []
      recvs := if 2 ^ k ≤ v && v < 2 ^ (k + 1) then [((v - 2 ^ k + root) % n, 0, len, .set)] else [] }

/-- Pairwise exchange: step i meets the ranks at distance i + 1; block p of the source goes to rank p, and lands at block r
of its result, which lies after its source in the vector (R383, log 22). -/
def pairwiseSteps (n r b : Nat) : List CStep :=
  (List.range (n - 1)).map fun i =>
    let q := (r + i + 1) % n
    let p := (r + n - (i + 1)) % n
    { sends := [(q, q * b, (q + 1) * b)]
      recvs := [(p, r * b, (r + 1) * b, .setAt (n * b + p * b))] }

/-- N is a power of two. -/
def isPow2 (n : Nat) : Bool := n == 2 ^ levels n

/-- Length of the operation's vector in elements (R383). -/
def vecLen (op n count : Nat) : Nat := if op = 1 || op = 2 || op = 5 then n * count else if op = 6 then 0 else count

/-- Elements that an operation reads from SRC and writes to DST (R383). -/
def srcElems (op n count : Nat) : Nat := if op = 1 || op = 5 then n * count else if op = 6 then 0 else count
def dstElems (op n count : Nat) : Nat := if op = 2 || op = 5 then n * count else if op = 6 then 0 else count

/-- ALGO of R386 for the endpoint algorithm. -/
def algoOf (op : Nat) (small : Bool) : Nat :=
  if op = 5 then 4 else if op = 3 then 3 else if op = 2 || op = 6 || small then 1 else 2

/-- The steps of the endpoint algorithm of a member (R393). Halving in a group whose size is no power of two moves its data
as doubling does (log 22). -/
def collSteps (op n r root count lo hi : Nat) (small : Bool) : List CStep :=
  let len := vecLen op n count
  match op with
  | 2 => gatherSteps n r count len
  | 3 =>
    if small then treeSteps n r root len
    else
      let b := ceilDiv len n
      { sends := if r = root then ((List.range n).filter (· != r)).map fun q => (q, (blockRange b len q).1, (blockRange b len q).2) else []
        recvs := if r = root then [] else [(root, (blockRange b len r).1, (blockRange b len r).2, .set)] } :: gatherSteps n r b len
  | 5 => pairwiseSteps n r count
  | 6 => doublingSteps n r 0 0
  | _ =>
    if small || !isPow2 n then doublingSteps n r lo hi
    else
      let b := if op = 1 then count else ceilDiv len n
      halvingSteps n r b len ++
      (if op = 0 then gatherBack n r b len
       else if op = 4 then
         [{ sends := if r = root then [] else [(root, (blockRange b len r).1, (blockRange b len r).2)]
            recvs := if r = root then ((List.range n).filter (· != r)).map fun q =>
                (q, (blockRange b len q).1, (blockRange b len q).2, .set) else []
            final := true }]
       else [])

/-- Bytes at which a group record's fields lie (R380). -/
def recField (g : GroupRecord) (off len : Nat) : Nat := g.toNat / 2 ^ (8 * off) % 2 ^ (8 * len)

end Sys2Proof.Machine
end

