-- ==== Sys2Proof/Machine/Keccak.lean ====
section
/-! DEFINITION. SHAKE256, the hash that R466, R475 and R366 name: Keccak-f[1600] with a rate of 136 bytes. PRESUMED: the
function of the published standard FIPS 202, which the spec names and does not restate (log 7). -/

namespace Sys2Proof.Machine

/-- The 25 lanes of the Keccak state; lane x + 5y. -/
abbrev Lanes := List (BitVec 64)

/-- Lane x + 5y, with x and y modulo 5. -/
def Lanes.at (a : Lanes) (x y : Nat) : BitVec 64 := a.getD (x % 5 + 5 * (y % 5)) 0

/-- Rotation of lane x + 5y. -/
def keccakRot : List Nat :=
  [0, 1, 62, 28, 27, 36, 44, 6, 55, 20, 3, 10, 43, 25, 39, 41, 45, 15, 21, 8, 18, 2, 61, 56, 14]

/-- Round constants. -/
def keccakRc : List (BitVec 64) :=
  [0x0000000000000001, 0x0000000000008082, 0x800000000000808A, 0x8000000080008000, 0x000000000000808B, 0x0000000080000001,
   0x8000000080008081, 0x8000000000008009, 0x000000000000008A, 0x0000000000000088, 0x0000000080008009, 0x000000008000000A] ++
  [0x000000008000808B, 0x800000000000008B, 0x8000000000008089, 0x8000000000008003, 0x8000000000008002, 0x8000000000000080,
   0x000000000000800A, 0x800000008000000A, 0x8000000080008081, 0x8000000000008080, 0x0000000080000001, 0x8000000080008008]

/-- One round: θ, ρ and π, χ, ι. -/
def keccakRound (a : Lanes) (rc : BitVec 64) : Lanes :=
  let c := (List.range 5).map fun x => (List.range 5).foldl (fun v y => v ^^^ Lanes.at a x y) 0
  let d := (List.range 5).map fun x => c.getD ((x + 4) % 5) 0 ^^^ (c.getD ((x + 1) % 5) 0).rotateLeft 1
  let r := (List.range 25).map fun i => (a.getD i 0 ^^^ d.getD (i % 5) 0).rotateLeft (keccakRot.getD i 0)
  -- π moves lane (x, y) to (y, 2x + 3y); its inverse takes (x, y) from (x + 3y, x).
  let b : Lanes := (List.range 25).map fun i => Lanes.at r (i % 5 + 3 * (i / 5)) (i % 5)
  let e := (List.range 25).map fun i =>
    Lanes.at b (i % 5) (i / 5) ^^^ (~~~(Lanes.at b (i % 5 + 1) (i / 5)) &&& Lanes.at b (i % 5 + 2) (i / 5))
  e.set 0 (e.headD 0 ^^^ rc)

/-- Keccak-f[1600]. -/
def keccakF (a : Lanes) : Lanes := keccakRc.foldl keccakRound a

/-- Absorb whole blocks of 136 bytes. -/
def keccakAbsorb : Nat → List Byte → Lanes → Lanes
  | 0, _, a => a
  | n + 1, bs, a =>
    let a := (List.range 25).map fun i => a.getD i 0 ^^^ (if i < 17 then BitVec.ofNat 64 (leNat ((bs.drop (8 * i)).take 8)) else 0)
    keccakAbsorb n (bs.drop 136) (keccakF a)

/-- Squeeze n blocks. -/
def keccakSqueeze : Nat → Lanes → List Byte
  | 0, _ => []
  | n + 1, a => ((a.take 17).flatMap fun l => leBytes 8 l.toNat) ++ keccakSqueeze n (keccakF a)

/-- SHAKE256 of a message, n bytes of output. -/
def shake256 (n : Nat) (m : List Byte) : List Byte :=
  let blocks := m.length / 136 + 1
  let gap := 136 * blocks - m.length
  let pad : List Byte := if gap = 1 then [0x9F] else 0x1F :: List.replicate (gap - 2) 0 ++ [0x80]
  (keccakSqueeze (n / 136 + 1) (keccakAbsorb blocks (m ++ pad) (List.replicate 25 0))).take n

end Sys2Proof.Machine
end

