-- ==== Sys2Proof/Machine/DataBoard.lean ====
section
/-! DEFINITION. State of the board, power-up, security engine, time base, thermal and power managers
(01, 17, 18, 20 of spec/). -/

namespace Sys2Proof.Machine

/-- The instruction held by the test port (R28). -/
inductive Tap where
  | bypass | idcode | samplePreload | extest
  deriving DecidableEq, Repr

/-- Pins and input of the module (R22, R25 to R35). -/
structure Board where
  /-- 48 V input, mV. -/
  vin : Nat := 0
  /-- Rails on (R22). -/
  rails : Bool := false
  /-- PGOOD released (R30). -/
  pgood : Bool := false
  /-- THERMTRIP_N latch (R32). -/
  thermtrip : Bool := false
  /-- RESET_N held low and honoured (R31). -/
  resetLow : Bool := false
  /-- FREEZE_IN_N low (R33). -/
  freezeInLow : Bool := false
  /-- FREEZE_OUT_N driven low by this module (R34). -/
  freezeOutLow : Bool := false
  /-- SLOT_ID[3:0] as the pins read now, and as sampled at the rails step (R35). -/
  slotPins : BitVec 4 := 15
  slotId : BitVec 4 := 0
  /-- A rail did not regulate: no retry until power is removed (R460). -/
  railFault : Bool := false
  /-- Rails were turned off by R22 and wait for 39.0 V to 60.0 V. -/
  inputOff : Bool := false
  /-- Test port: instruction, boundary-scan register, last word captured for TDO (R28). -/
  tap : Tap := .idcode
  bsr : BitVec 37 := 0
  tdo : BitVec 37 := 0
  deriving DecidableEq, Repr

/-- Verification state of a firmware bank (R471). -/
inductive BankState where
  | empty | written | verified | invalid | rollback
  deriving DecidableEq, Repr

/-- A firmware bank (R464, R465): what is written, as (offset, byte) cells differing from erased, and its state.
`manufactured` marks the image that was written at manufacture, whose bytes are Config's. -/
structure Bank where
  manufactured : Bool := true
  cells : List (Nat × Byte) := []
  ptr : Nat := 0
  state : BankState := .verified
  deriving DecidableEq, Repr

/-- Persistent host settings of one interface (R410, R429): the management port where set, and static addresses. -/
structure PersistHost where
  iface : Nat
  mgmt : Option Nat := none
  ipv4 : List (BitVec 32) := []
  ipv6 : List (BitVec 128) := []
  deriving DecidableEq, Repr

/-- Flash and fuses: what power removal keeps (R463, R464). -/
structure Flash where
  /-- Boot record (R467): selected bank (false A, true B), attempt counts, sequence number of the newer copy. -/
  sel : Bool := false
  attemptsA : Nat := 0
  attemptsB : Nat := 0
  recSeq : Nat := 0
  bankA : Bank := {}
  bankB : Bank := {}
  /-- Repair list (R208): stack, bank, row. -/
  repair : List (Nat × Nat × Nat) := []
  hostSettings : List PersistHost := []
  /-- Anti-rollback fuses blown (R470). -/
  rollback : Nat := 0
  deriving DecidableEq, Repr

/-- Where power-up stands (R458, R468). -/
inductive BootStep where
  | off | failedVerify | running
  deriving DecidableEq, Repr

/-- DEVICE_INFO STATE (R453). -/
inductive DevState where
  | starting | ready | frozen
  deriving DecidableEq, Repr

/-- Power-up progress (R458 to R468). -/
structure Boot where
  step : BootStep := .off
  ready : Bool := false
  /-- Bank running: false A, true B. -/
  running : Bool := false
  fellBack : Bool := false
  certMismatch : Bool := false
  /-- MODULE_RESTART has been answered (R462). -/
  restart : Bool := false
  /-- Clock at t0, at firmware start, and at the end of step 8, ns. -/
  startT : Nat := 0
  fwStartT : Nat := 0
  linksT : Nat := 0
  /-- Durations of steps 5 to 7 and of the whole, and of steps 9 and 10 once they have ended, ns (R459, R480). -/
  hbmNs : Nat := 0
  selftestNs : Nat := 0
  cartridgeNs : Nat := 0
  totalNs : Nat := 0
  ethernetNs : Option Nat := none
  fabricNs : Option Nat := none
  /-- Physical tiles that failed self-test (R9), and the OFFLINE rows, those with two or more of them (R36). -/
  failedTiles : List (DieIx × Fin 16 × Fin 33) := []
  offlineRows : List (DieIx × Fin 16) := []
  deriving DecidableEq, Repr

/-- Measurements of the security engine (R475). -/
structure Security where
  rom : List Byte := []
  firmware : List Byte := []
  config : List Byte := []
  plan : List Byte := []
  configCount : Nat := 0
  deriving DecidableEq, Repr

/-- Time states (R495). -/
inductive TimeState where
  | free | sync | holdover
  deriving DecidableEq, Repr

/-- The time base (R495 to R499). Times in 1/16 ns are global time (R8). -/
structure TimeBase where
  /-- The clock of R510: nanoseconds the work of the module has been allowed to run. -/
  work : Nat := 0
  global : BitVec 64 := 0
  state : TimeState := .free
  source : TimeSource := .mfp 0xFFFF
  stratum : BitVec 8 := 15
  upstream : Option PortIx := none
  /-- Latest offset in 1/16 ns; what is still to be slewed away (R497). -/
  theta : Int := 0
  slew : Int := 0
  good : Nat := 0
  miss : Nat := 0
  lastExchange : Nat := 0
  /-- Clock of the latest request (R497). -/
  asked : Nat := 0
  /-- Port of the outstanding exchange, clock at which it was sent, and its t1. -/
  pending : Option (PortIx × Nat × BitVec 64) := none
  /-- Time state and stratum that the peer of a port reported last (R498), and the port asked last with no upstream. -/
  known : List (PortIx × BitVec 8 × BitVec 8) := []
  probe : Nat := 15
  everSync : Bool := false
  deriving DecidableEq, Repr

/-- Sensor states (R482). -/
inductive SensorState where
  | good | suspect | failed
  deriving DecidableEq, Repr

/-- One junction sensor (R481, R482): reading in 1/16 °C, samples missed, samples deviating, and its
readings of the last millisecond as (clock, reading). -/
structure Sensor where
  reading : Int := 400
  state : SensorState := .good
  missed : Nat := 0
  dev : Nat := 0
  hist : List (Nat × Int) := []
  deriving DecidableEq, Repr

/-- One thermal region (R483 to R486). -/
structure ThermRegion where
  sensors : List Sensor := []
  warned : Bool := false
  throttled : Bool := false
  /-- The temperature has crossed the throttle threshold upwards and not released (R485). -/
  hot : Bool := false
  /-- Throttled by a rate-of-rise trip; clock since when every neighbour rose below 0.5 °C per ms. -/
  ror : Bool := false
  rorQuiet : Option Nat := none
  /-- Thermal limit, 10 mV above 0.60 V; 25 is none (R486). -/
  limit : Nat := 25
  /-- Held at the thermal floor (R486). -/
  held : Bool := false
  /-- Sampling band: 0 1 kHz, 1 10 kHz, 2 40 kHz, and clock since when it is outside its band (R484). -/
  rate : Nat := 0
  outside : Option Nat := none
  /-- Clock since when an engine is at or below its throttle threshold less 4 °C (R487). -/
  coolSince : Option Nat := none
  /-- Clock of the latest step of the limit (R486), and of the retraining of an engine, in its PIC's region (R487). -/
  stepped : Nat := 0
  deriving DecidableEq, Repr

/-- The power manager (R488 to R493). Voltages in 10 mV above 0.60 V. -/
structure Power where
  cap : Nat := 3600
  limit : Nat := 25
  setpoint : Vector (BitVec 8) 6 := Vector.replicate 6 15
  volt : Vector Nat 96 := Vector.replicate 96 15
  /-- Steps of 10 mV by which the hub core voltage is lowered (R485). -/
  hubDrop : Nat := 0
  /-- Clocks of the latest step of the hub voltage (R485) and of the latest sample (R491). -/
  hubStepped : Nat := 0
  sampled : Nat := 0
  overCount : Nat := 0
  underCount : Nat := 0
  capHold : Bool := false
  ocHold : Bool := false
  ocSince : Nat := 0
  /-- Samples in mW, latest first, of the last second (R491); energy in nJ beyond the counted millijoules. -/
  samples : List Nat := []
  energyRem : Nat := 0
  deriving DecidableEq, Repr

end Sys2Proof.Machine
end

