-- ==== Sys2Proof/Machine/DataFabric.lean ====
section
/-! DEFINITION. State of the fabric endpoint, the router and the optical links (10, 11, 12 of spec/). -/

namespace Sys2Proof.Machine

/-- A packet: its VC, head flit and payload flits (R297). -/
structure Pkt where
  vc : Nat
  head : BitVec 256
  payload : List (BitVec 256) := []
  deriving DecidableEq, Repr

/-- Flits of a packet (R297). -/
def Pkt.flits (p : Pkt) : Nat := 1 + p.payload.length

/-- A packet at a router input (R309 to R320): its route entry, none until its head has been looked up; when it arrived;
the output it holds and how many of its flits have been sent there; and the port that a retransmission avoids. -/
structure InPkt where
  pkt : Pkt
  arrived : Nat
  route : Option (BitVec 64) := none
  out : Option (PortIx × Nat) := none
  sent : Nat := 0
  avoid : Option PortIx := none
  /-- The only port it may take: link-local and ESCROW messages, answers out of the arriving port, chunks of R393. -/
  only : Option PortIx := none
  /-- It arrived before the port's last credit initialisation: leaving returns no credit. -/
  stale : Bool := false
  deriving DecidableEq, Repr

/-- What an ORT entry's answer belongs to (R276). -/
inductive OrtOwner where
  /-- Packet `ix` of a decoded move of a tile for a job. -/
  | move (job : BitVec 12) (t id ix : Nat)
  /-- A packet of a collective: group, sequence, and the index of the transfer it belongs to. -/
  | coll (group : BitVec 16) (seq : BitVec 32) (ix : Nat)
  deriving DecidableEq, Repr

/-- What a live entry waits for beside its answer (R282). -/
inductive OrtWait where
  | none | backoff (till : Nat) | order
  deriving DecidableEq, Repr

/-- An entry of the outstanding request table (R276): times are work clocks (R510). -/
structure Ort where
  seq : BitVec 24
  q : Request
  owner : OrtOwner
  first : Nat
  last : Nat
  port : Option PortIx := none
  backoffs : Nat := 0
  wait : OrtWait := .none
  deriving DecidableEq, Repr

/-- An entry of the de-dup table (R280). -/
structure Dedup where
  src : BitVec 16
  seq : BitVec 24
  old : Option (BitVec 64) := none
  deriving DecidableEq, Repr

/-- An entry of the peer list (R281, R289): rate in 1/256 of the fabric injection rate. -/
structure Peer where
  dst : BitVec 16
  /-- An entry for it has been retired since its last LOW_MARK (R281). -/
  retired : Bool := false
  rate : Nat := 256
  lastCut : Option Nat := none
  /-- The clock from which the next 8 µs without CE count (R289). -/
  lastRaise : Nat := 0
  used : Nat := 0
  deriving DecidableEq, Repr

/-- Delivery receipts pending for a source (R278). -/
structure PendRcpt where
  src : BitVec 16
  seqs : List (BitVec 24 × Bool) := []
  oldest : Nat := 0
  fastUntil : Nat := 0
  deriving DecidableEq, Repr

/-- A combining entry of the atomic unit (R287, R288): its line, its operation (which gives the width), each word with its
value before the pending update and what has been combined, and the clock at which the update lands. A write of the line
in between closes it: nothing merges into it any more (R285). -/
structure Combine where
  line : Nat
  aop : Nat
  words : List (Nat × BitVec 64 × BitVec 64)
  till : Nat
  closed : Bool := false
  deriving DecidableEq, Repr

/-- Port states (R321, R346, R352). -/
inductive PortState where
  | down | training | held | active | degraded
  deriving DecidableEq, Repr

/-- Lane states (R339). -/
inductive LaneState where
  | dark | locking | trained | data | standby | failed
  deriving DecidableEq, Repr

/-- One lane of one direction (R330, R331, R334, R339, R340, R345, R347). -/
structure Lane where
  state : LaneState := .dark
  /-- Consecutive lock attempts without verification (R330). -/
  attempts : Nat := 0
  /-- A failed lane whose ring may re-sweep in service (R331). -/
  sweeps : Bool := false
  /-- MARKERs in a row: four are frame alignment; and the misses in a row since (R334). -/
  markers : Nat := 0
  misses : Nat := 0
  uncorr : List Nat := []
  /-- Clock at which the ring of a failed lane verified again. -/
  clean : Option Nat := none
  pass200 : Bool := false
  pass100 : Bool := false
  deriving DecidableEq, Repr

/-- A lane swap in progress (R341). TO 15 is none. -/
structure Swap where
  slot : Nat
  from_ : Nat
  to_ : Nat
  at_ : BitVec 16
  tries : Nat := 1
  acked : Bool := false
  deriving DecidableEq, Repr

/-- The lanes of one direction (R333, R339, R341): the lane that carries each slot. -/
structure PortDir where
  lanes : Vector Lane 9 := Vector.replicate 9 {}
  map : Vector (Option LaneIx) 8 := Vector.replicate 8 none
  skip : BitVec 8 := 0
  swap : Option Swap := none
  deriving DecidableEq, Repr

/-- What FABRIC_CONFIG sets for a port (R304, R313, R315, R316, R320, R329). -/
structure PortCfg where
  split : Vector Nat 12 := #v[2304, 64, 64, 2304, 64, 64, 2304, 64, 64, 768, 64, 64]
  dim : BitVec 2 := 0
  wclass : Vector Nat 4 := #v[8, 8, 8, 16]
  win : Vector Nat 17 := Vector.replicate 17 1
  stall : Nat := 2000
  ceThresh : Nat := 128
  enabled : Bool := true
  /-- Forced lane rate: 0 none, 1 100 Gb/s, 2 200 Gb/s. -/
  force : Fin 3 := 0
  deriving DecidableEq, Repr

/-- A lane block as the receiver reads it after FEC (R334): its flits with their tags. -/
structure Slice where
  fsn : BitVec 16
  wave : BitVec 4
  slot : BitVec 4
  skip : BitVec 8
  flits : List (BitVec 6 × BitVec 256)
  deriving DecidableEq, Repr

/-- RETRYs for one FSN with their clocks, latest first (R336, R337). -/
structure RetryRun where
  fsn : BitVec 16
  times : List Nat
  deriving DecidableEq, Repr

/-- An AUDIT in progress (R529): its VC, or 15 for all, and the clock at which it began. -/
structure Audit where
  vc : Nat
  start : Nat
  deriving DecidableEq, Repr

/-- A fabric port (R294 to R357). -/
structure Port where
  cfg : PortCfg := {}
  state : PortState := .down
  reason : DownReason := .noLaser
  /-- Training step 1 to 9, and the clock at which it began (R346). -/
  step : Nat := 0
  stepT : Nat := 0
  peerStep : Nat := 0
  timeouts : Nat := 0
  /-- Clock at which a DOWN port may train again (R349). -/
  retryAt : Nat := 0
  waves : BitVec 9 := 0
  peer : Option Identity := none
  /-- Cabling outcome (R352): 6 is NO_PLAN. -/
  outcome : Nat := 6
  rev : BitVec 8 := 0
  /-- Round trip in 1/16 ns. -/
  roundTrip : Nat := 0
  rate100 : Bool := false
  /-- 100 Gb/s because its optical engine is hot (R487). -/
  hot : Bool := false
  tx : PortDir := {}
  rx : PortDir := {}
  /-- Credits (R304 to R306): the peer's sizes, SENT, the peer's FREED as last seen; own FREED, and as last sent. -/
  bv : Vector (BitVec 16) 12 := Vector.replicate 12 0
  sent : Vector (BitVec 16) 12 := Vector.replicate 12 0
  freedSeen : Vector (BitVec 16) 12 := Vector.replicate 12 0
  freed : Vector (BitVec 16) 12 := Vector.replicate 12 0
  freedSent : Vector (BitVec 16) 12 := Vector.replicate 12 0
  lastCredit : Nat := 0
  /-- Own buffer sizes in force (R304). -/
  own : Vector Nat 12 := Vector.replicate 12 0
  /-- Occupancy averages in 1/256 of B_v (R319). -/
  avg : Vector Rat 12 := Vector.replicate 12 0
  /-- Packets at this port's input, in order of arrival. -/
  input : List InPkt := []
  /-- Flits from the first that is not acknowledged on, with their tags: those sent in frames, which are the retry buffer,
  and those handed over for the next frame (R333, R337). -/
  retry : List (BitVec 6 × BitVec 256) := []
  /-- FSNs of the transmitter: beyond the last of these flits, of the first one, beyond those sent in frames, and of the
  next frame (R334, R337). -/
  txFsn : BitVec 16 := 0
  acked : BitVec 16 := 0
  framed : BitVec 16 := 0
  frameFsn : BitVec 16 := 0
  /-- When the next frame may go, in tenths of a ns of the clock (R332). -/
  frameAt : Nat := 0
  /-- Next FSN to receive, last ACK_FSN sent (R336, R337). -/
  rxFsn : BitVec 16 := 0
  ackSent : BitVec 16 := 0
  lastAck : Nat := 0
  retryOut : Option RetryRun := none
  retryIn : Option RetryRun := none
  /-- Packets with flits sent here and not acknowledged, on their output VC, with the FSN beyond their last flit sent. -/
  unacked : List (BitVec 16 × Pkt) := []
  /-- Lane blocks of the frame being received, by lane (R335), and flits of packets without their TAIL, by VC. -/
  frame : List (LaneIx × Slice) := []
  frameBad : List LaneIx := []
  asm : List (Nat × List (BitVec 256)) := []
  /-- Work clock at which a flit of each input VC last moved (R315). -/
  moved : Vector Nat 12 := Vector.replicate 12 0
  /-- Deficit round robin of the output: class whose turn it is and flits left in it (R316). -/
  turn : Nat := 3
  deficit : Nat := 0
  /-- Weighted round robin over the 17 inputs for each output VC: the input whose turn it is, 16 the endpoint, and the
  allocations left in its turn (R316). -/
  winTurn : Vector (Nat × Nat) 12 := Vector.replicate 12 (16, 0)
  /-- RECEIVED totals, and whether a CREDIT has come since the last acknowledgement (R512, R529). -/
  received : Vector (BitVec 16) 12 := Vector.replicate 12 0
  creditSince : Bool := true
  audit : Option Audit := none
  /-- VCs of the AUDITs of this port that wait for it (R531). -/
  auditQ : List Nat := []
  deriving DecidableEq, Repr

/-- The endpoint and the router (R262 to R326). -/
structure Fabric where
  plan : Option (List Byte) := none
  rto : Nat := 10000000
  transit : Bool := false
  collector : Option (BitVec 16) := none
  nextSeq : BitVec 24 := 0
  /-- Oldest first. -/
  ort : List Ort := []
  dedup : List Dedup := []
  peers : List Peer := []
  /-- The clock of the last LOW_MARK to each destination (R281). -/
  lowTimes : List (BitVec 16 × Nat) := []
  pend : List PendRcpt := []
  /-- LOW of each source (R281); last ordered SEQ to each destination (R284). -/
  lows : List (BitVec 16 × BitVec 24) := []
  lastOrd : List (BitVec 16 × BitVec 24) := []
  combine : List Combine := []
  /-- Atomics that the atomic unit has not accepted, each with the clock of its arrival (R289). -/
  atomWait : List (Request × Nat) := []
  /-- Valid window entries by index (R264); route entries that differ from 0 (R308). -/
  windows : List (Nat × BitVec 256) := []
  routes : List (Nat × BitVec 64) := []
  /-- Packets of the endpoint's own input (R309). -/
  inject : List InPkt := []
  injMoved : Vector Nat 12 := Vector.replicate 12 0
  /-- STALL of the endpoint's input (R315), and the port that an allocation took last (R312). -/
  epStall : Nat := 2000
  rr : Nat := 15
  /-- Congestion map: next sequence, and global time of the averages (R321). -/
  congSeq : BitVec 32 := 0
  avgT : BitVec 64 := 0
  /-- Clocks of the last update of the averages and of the last map sent (R319, R321). -/
  avgClock : Nat := 0
  histClock : Nat := 0
  congClock : Nat := 0
  /-- Congestion maps received as collector, by source (R321). -/
  maps : List (BitVec 16 × List Byte) := []
  deriving DecidableEq, Repr

end Sys2Proof.Machine
end

