-- ==== Sys2Proof/Machine/DataHost.lean ====
section
/-! DEFINITION. State of the host Ethernet ports and the RDMA engines (15 of spec/). -/

namespace Sys2Proof.Machine

/-- What an interface sends (R412, R414 to R428). -/
inductive NetOut where
  /-- An RDMA request to the peer's QPN. -/
  | request (qpn : BitVec 24) (psn : BitVec 24) (op : RoceOp) (rkey : BitVec 32) (va : BitVec 64) (len : Nat) (imm : BitVec 32)
      (payload : List Byte)
  | ack (qpn psn : BitVec 24)
  | readResponse (qpn psn : BitVec 24) (bytes : List Byte)
  | nakSequence (qpn psn : BitVec 24) (mask : BitVec 256)
  | nakRnr (qpn psn : BitVec 24)
  | nakAccess (qpn psn : BitVec 24)
  | nakInvalid (qpn psn : BitVec 24)
  | nakOperational (qpn psn : BitVec 24)
  | cnp (qpn : BitVec 24)
  | controlReply
  | pfc (xoff : BitVec 8)
  deriving DecidableEq, Repr

/-- Frames that wait because their priority is paused (R426): interface, priority, what they carry, how many, bytes with
their overhead. -/
structure TxWait where
  iface : IfIx
  prio : Fin 8
  out : NetOut
  packets : Nat
  bytes : Nat
  deriving DecidableEq, Repr

/-- A host port (R407, R425, R426, R428). -/
structure HostPort where
  mode : HostMode := .m1x800
  pfc : List (Fin 8) := []
  watchdogMs : Nat := 100
  oneStep : Bool := false
  gInv : Nat := 256
  /-- RAI in 0.1 % of line rate; T_HIGH and T_LOW in µs. -/
  rai : Nat := 10
  tHigh : Nat := 40
  tLow : Nat := 10
  /-- Clock since when a priority is paused; priorities no longer honoured, and since when they are unpaused. -/
  paused : Vector (Option Nat) 8 := Vector.replicate 8 none
  stormed : Vector Bool 8 := Vector.replicate 8 false
  resumed : Vector Nat 8 := Vector.replicate 8 0
  /-- Frames of paused priorities, oldest first. -/
  txWait : List TxWait := []
  /-- Clocks of the control frames answered within the last second (R412). -/
  answered : List Nat := []
  /-- Bytes of RoCE frames that fill the receive buffer during a freeze, by priority; XOFF sent (R426, R430). -/
  held : Vector Nat 8 := Vector.replicate 8 0
  xoff : Vector Bool 8 := Vector.replicate 8 false
  /-- Time-stamp of the last PTP event message (R428). -/
  ptpStamp : Option (BitVec 64) := none
  /-- Its light is off or switching since this clock (R427). -/
  dark : Option Nat := none
  deriving DecidableEq, Repr

/-- An interface (R408, R410, R411): static addresses and the address table. -/
structure Iface where
  up : Bool := false
  ipv4 : List (BitVec 32) := []
  ipv6 : List (BitVec 128) := []
  addrs : Vector (Option (BitVec 128)) 8 := Vector.replicate 8 none
  deriving DecidableEq, Repr

/-- A memory region (R416). -/
structure MemRegion where
  index : Nat
  job : BitVec 12
  base : Nat
  len : Nat
  rights : BitVec 3
  gen : BitVec 8
  deriving DecidableEq, Repr

/-- A work request that has been sent and not answered (R419, R423). -/
structure SentWqe where
  index : Nat
  op : RoceOp
  signalled : Bool
  psn : BitVec 24
  /-- PSNs it takes. -/
  psns : Nat
  len : Nat
  laddr : Nat
  raddr : BitVec 64
  rkey : BitVec 32
  imm : BitVec 32
  wrid : BitVec 64
  first : Nat
  last : Nat
  resent : Bool := false
  deriving DecidableEq, Repr

/-- A queue pair (R415 to R425). -/
structure Qp where
  qpn : Nat
  job : BitVec 12
  p : QpParams
  state : QpState := .reset
  /-- Send queue: next WQE to take, producer index as last read. -/
  sqNext : Nat := 0
  sqProd : Nat := 0
  sendPsn : BitVec 24 := 0
  sent : List SentWqe := []
  retries : Nat := 0
  rnrs : Nat := 0
  /-- An RNR back-off is under way (R423). -/
  rnrWait : Bool := false
  /-- Responder: expected PSN, receive entries consumed, packets held beyond a gap (R424), NAK sent for the gap. -/
  recvPsn : BitVec 24 := 0
  rqNext : Nat := 0
  beyond : List RoceReq := []
  gapNak : Bool := false
  /-- Completion ring producer index. -/
  cq : Nat := 0
  /-- Work requests and receives completed. -/
  completed : Nat := 0
  /-- Send rate as a share of line rate, and α (R425). -/
  rate : Rat := 1
  alpha : Rat := 1
  lastCnpTx : Option Nat := none
  lastCnpRx : Nat := 0
  /-- Work clock since when T_HIGH does not act again. -/
  nextCut : Nat := 0
  lowSince : Option Nat := none
  polled : Nat := 0
  deriving DecidableEq, Repr

/-- The host ports and RDMA engines (R407 to R430). -/
structure HostEth where
  ports : Vector HostPort 4 := Vector.replicate 4 {}
  ifaces : Vector Iface 16 := Vector.replicate 16 {}
  mgmtPort : Nat := 29411
  qps : List Qp := []
  mrs : List MemRegion := []
  /-- Generation of each region index that has been registered. -/
  gens : List (Nat × BitVec 8) := []
  deriving DecidableEq, Repr

/-- Interfaces of a port in a mode (R407). -/
def hostIfaces : HostMode → Nat | .m1x800 => 1 | .m2x400 => 2 | .m4x200 => 4 | .m4x100 => 4

end Sys2Proof.Machine
end

