-- ==== Sys2Proof/Machine/DataPpe.lean ====
section
/-! DEFINITION. State of the photonic projection engine and of the laser cartridges (06, 13 of spec/). -/

namespace Sys2Proof.Machine

/-- PPE states (R187). -/
inductive PpeState where
  | offline | calibrating | ready | switching
  deriving DecidableEq, Repr

/-- The transform of a slot (R175): 65,536 bytes of FP32, or a seed. -/
inductive Transform where
  | matrix (q : List Byte)
  | seeded (seed : BitVec 64)
  deriving DecidableEq, Repr

/-- A transform slot (R175 to R179). -/
structure Slot where
  loaded : Bool := false
  /-- Clock at which its load was accepted, while the load runs. -/
  loading : Option Nat := none
  owner : BitVec 12 := 0
  shared : Bool := false
  fixed : Bool := false
  fscale : BitVec 16 := 0
  transform : Transform := .seeded 0
  gains : List (BitVec 16) := []
  /-- Squared errors of its latest valid records, latest first, at most 4,095 (R191): each is a + b·√2 over n elements. -/
  errs : List (Rat × Rat × Nat) := []
  deriving DecidableEq, Repr

/-- A PROJECT in the submission queue (R182): its next vector to enter the mesh, and the work clock of its arrival. Its
priority is its job's. -/
structure Project where
  job : BitVec 12
  tile : Nat
  id : Nat
  slot : Nat
  next : Nat
  total : Nat
  since : Nat
  deriving DecidableEq, Repr

/-- A batch in the mesh (R182): the inputs of its vectors, and where their records go. -/
structure Batch where
  job : BitVec 12
  tile : Nat
  id : Nat
  slot : Nat
  first : Nat
  ifmt : Fmt
  inputs : List (List Byte)
  dk : Nat
  dst : Nat
  rtal : Nat
  rten : Bool
  epoch : BitVec 8
  /-- A freeze began while it was in the mesh: its vectors were measured then, in READY or not (R184). -/
  seen : Option Bool := none
  deriving DecidableEq, Repr

/-- The PPE (R174 to R196). -/
structure Ppe where
  state : PpeState := .offline
  slots : Vector Slot 8 := Vector.replicate 8 {}
  active : Option SlotIx := none
  /-- Work clock since when the active slot has the mesh. -/
  activeSince : Nat := 0
  /-- The slot that the mesh is being reprogrammed for, none where it was loaded anew or cleared meanwhile; and since when. -/
  reprog : Option (Option SlotIx × Nat) := none
  queue : List Project := []
  /-- Batches in the mesh, oldest first. -/
  mesh : List Batch := []
  dead : List (Fin 128) := []
  /-- Latest pilot error estimate, 0.01 % of full scale (R189). -/
  err : Nat := 0
  calFails : Nat := 0
  /-- Consecutive vectors in dark slots (R194). -/
  darkRun : Nat := 0
  /-- Clock of the switchover in progress; the spare laser is the source (R194). -/
  switching : Nat := 0
  onSpare : Bool := false
  /-- Every vector is INVALID until a drift update completes (R184). -/
  needDrift : Bool := false
  /-- Pilots in 1/1000 beyond those counted (R185). -/
  pilotRem : Nat := 0
  deriving DecidableEq, Repr

/-- Bay states with their codes in order (R365). -/
inductive BayState where
  | empty | authenticating | authFailed | ramping | active | draining | drained | fault
  deriving DecidableEq, Repr

/-- One laser of a cartridge (R361 to R371): its LASER block, and what the module measures of it. Powers in 0.01 dBm. -/
structure Laser where
  target : Int := 0
  bias : Nat := 0
  biasMax : Nat := 0
  mon : Int := 0
  /-- 0 off, 1 ramping, 2 lit, 3 FAILED. -/
  state : Nat := 0
  d : Int := 0
  /-- C; none is 0x8000, unset. -/
  c : Option Int := none
  /-- The last 100 samples of D and BIAS, latest first. -/
  samples : List (Int × Nat) := []
  warned : Bool := false
  /-- Reached spare-in (FADED), and failed. -/
  faded : Bool := false
  failed : Bool := false
  /-- HOURS of the ledger in minutes; milliseconds lit in each band since. -/
  hours : List Nat := [0, 0, 0, 0]
  litMs : List Nat := [0, 0, 0, 0]
  peakBias : Nat := 0
  deriving DecidableEq, Repr

/-- A bay with its cartridge's registers as the module knows them (R358 to R378). -/
structure Bay where
  state : BayState := .empty
  present : Bool := false
  /-- Reason of the last AUTH_FAILED or FAULT (R366). -/
  reason : Nat := 0
  /-- 0 GOOD, 1 REPLACE_ADVISED, 2 END_OF_LIFE (R373). -/
  condition : Nat := 0
  /-- Clock at which the address was assigned or authentication began anew (R366). -/
  authT : Nat := 0
  /-- Consecutive I3C failures (R360). -/
  fails : Nat := 0
  ctrl : BitVec 32 := 0
  status : BitVec 32 := 0
  temp : Int := 0
  lastWdog : Nat := 0
  nonce : List Byte := []
  ident : List Byte := []
  lasers : Vector Laser 9 := Vector.replicate 9 {}
  /-- In-use laser whose place the spare has taken (R372). -/
  spareFor : Option Nat := none
  /-- Clock of the end of RAMPING; commissioning is done or not needed (R370). -/
  rampEnd : Nat := 0
  commissioned : Bool := false
  /-- Ledger header fields (R368). -/
  commits : Nat := 0
  powerCycles : Nat := 0
  peakTemp : Int := -32768
  firstModule : List Byte := []
  commissionT : BitVec 64 := 0
  /-- LEDGER_STAGE, and LEDGER as the cartridge holds it. -/
  stage : List Byte := []
  ledger : List Byte := []
  lastCommit : Nat := 0
  /-- A commit is to be retried at the next commit point (R369). -/
  retry : Bool := false
  drainT : Nat := 0
  /-- A drain that waits for the end of a spare-in (R374). -/
  drainWanted : Bool := false
  deriving DecidableEq, Repr

end Sys2Proof.Machine
end

