-- ==== Sys2Proof/Machine/DataTile.lean ====
section
/-! DEFINITION. State of tiles, of memory, of translation and of jobs (02, 04, 05, 07, 08, 09 of spec/). -/

namespace Sys2Proof.Machine

/-- Sequencer states (R134). -/
inductive SeqState where
  | running | waiting | parked | halted | stopped
  deriving DecidableEq, Repr

/-- What a sequencer waits for (R134, R136, R147, R171, R173). -/
inductive Wait where
  | none
  /-- A dependency hold of R136. -/
  | dep
  /-- WAIT_TALLY: tally, target, CONSUME, PDST, deadline on the work clock (R147, R510). -/
  | tally (tal : Nat) (target : Nat) (consume : Bool) (pdst : Nat) (deadline : Option Nat)
  /-- WAIT_EPOCH: EMODE, value, and the period that had started at decode (R171). -/
  | epoch (emode : Bool) (value : Nat) (n0 : Int)
  | fence
  /-- A YIELD that admits a pre-emption has been decoded; the sequencer stays RUNNING and decodes no more (R173). -/
  | yield_
  deriving DecidableEq, Repr

/-- A loop stack entry (R131). -/
structure LoopEntry where
  start : Nat
  end_ : Nat
  rem : Nat
  depth : Nat
  deriving DecidableEq, Repr

/-- A suspended move's fault (R225, R227). -/
structure Suspend where
  status : Status
  addr : Nat
  phys : Nat := 0
  level : Nat := 0
  write : Bool := false
  remote : Bool := false
  malformed : Bool := false
  peer : BitVec 16 := 0
  peerJob : BitVec 12 := 0
  /-- Clock (R510) at the fault: HOLD_TIME counts from it. -/
  since : Nat := 0
  deriving DecidableEq, Repr

/-- State of a decoded move. -/
inductive QState where
  | queued | started | done | suspended (x : Suspend)
  deriving DecidableEq, Repr

/-- A decoded move in the queue of its unit with the operands it captured (R135). -/
structure QMove where
  id : Nat
  w : MoveWord
  pc : Nat
  regs : Regs
  /-- Epoch of the job at decode (R251). -/
  epoch : BitVec 8 := 0
  passIx : BitVec 32 := 0
  convIx : BitVec 32 := 0
  /-- A PASS_SPLIT's captured descriptor (R157, R235). -/
  desc : List Byte := []
  state : QState := .queued
  /-- Progress in the unit of R228: granules, rows, vectors; packets before the first not receipted (R229). -/
  done : Nat := 0
  /-- A fabric move's next packet to send (R269). -/
  next : Nat := 0
  /-- A fault that waits for the packets still outstanding (R229). -/
  failing : Option Suspend := none
  /-- Completed before its last receipt: its DTEN tally has counted (R150). -/
  completed : Bool := false
  /-- Packets receipted beyond `done` (R229). -/
  sent : List Nat := []
  /-- Faulted before and resumed (R227 refaults). -/
  resumed : Bool := false
  /-- The attempt that is to follow an abandonment under R118, for each quadrant: 0 none. -/
  attempts : List Nat := []
  /-- Quadrant statuses of a PASS_SPLIT (R157): 0 committed, 1 faulted, 2 idle, 3 not ended. -/
  quads : List Nat := []
  /-- A PASS or PASS_SPLIT that has started once: it has taken its pass index (R114). -/
  began : Bool := false
  /-- Steps in which each quadrant of a PASS_SPLIT has been active since the move last started (R75). -/
  busy : List Nat := [0, 0, 0, 0]
  deriving DecidableEq, Repr

/-- The unit of a decoded move (R150). -/
def QMove.unit (m : QMove) : TUnit := (unitOf (Hdr.op m.w)).getD .sequencer

/-- The pass in flight of an array, or of one quadrant of it (R106, R115, R122, R156). -/
structure Run where
  id : Nat
  /-- Quadrant of a PASS_SPLIT pass; none for PASS. -/
  quad : Option QuadIx := none
  /-- A16: attempt 1, 2 or 3. AX: 1, 2, 3 for raises 0, 32, 64. Else 1. -/
  attempt : Nat := 1
  /-- Runs as A32 from the start (R117). -/
  escalated : Bool := false
  /-- The operand of a quadrant, loaded by the move itself (R157). -/
  load : Option Load := none
  /-- Ring granules taken and the bytes read of them (R156). -/
  taken : Nat := 0
  ringBytes : List Byte := []
  /-- The first used poisoned word of the granules taken: the streamed row that reads it, and where (R59). -/
  bad : Option (Nat × Nat) := none
  /-- It streams while the pass before it on the same operand drains its pipeline (R46). -/
  chained : Bool := false
  /-- Streamed rows whose scale blocks have been counted (R122). -/
  seen : Nat := 0
  deriving DecidableEq, Repr

/-- What the cells of the array hold (R154). -/
inductive Cells where
  | quads (q : Vector (Option Load) 4)
  | full (l : Load)
  | pair (l : Load)
  deriving DecidableEq, Repr

/-- An accumulator row address: 32 words and the metadata of its two half-rows (R101, R103). -/
structure AccRow where
  words : List (BitVec 32) := List.replicate 32 0
  meta0 : Byte := 0x40
  meta1 : Byte := 0x40
  deriving DecidableEq, Repr

/-- A tile's part in a castled pair (R62, R65). -/
inductive Castle where
  | none | king (south : Bool) (rook : Nat) | rook (king : Nat)
  deriving DecidableEq, Repr

/-- One tile (R39, R131). -/
structure Tile where
  seq : SeqState := .halted
  wait : Wait := .none
  /-- DTAL of the waiting move, counted when it completes (R137). -/
  waitTal : Option Nat := none
  stop : Option Status := none
  pbase : Nat := 0
  len : Nat := 1
  pc : Nat := 0
  periodEntry : Nat := 0
  regs : Regs := Vector.replicate 32 0
  preds : BitVec 8 := 1
  /-- Innermost first (R168). -/
  loops : List LoopEntry := []
  rets : List Nat := []
  tallies : Vector (BitVec 32) 64 := Vector.replicate 64 0
  passIx : BitVec 32 := 0
  convIx : BitVec 32 := 0
  queue : List QMove := []
  /-- PUT, ATOMIC and SIGNAL moves that have completed with packets still to be receipted (R286). -/
  late : List QMove := []
  /-- Number of the next decoded move; no number comes back on a tile, whatever job runs (R270). -/
  nextId : Nat := 0
  /-- Ring count at which the move that the MV unit carried out last ends (R70, R248). -/
  mvUntil : Nat := 0
  cells : Cells := .quads (Vector.replicate 4 none)
  runs : List Run := []
  /-- Accumulator rows that differ from a row of zeros with reset metadata. -/
  acc : List (Nat × AccRow) := []
  castle : Castle := .none
  /-- Ring count at which the step counter was 0, negative after a restore to a later one (R40, R237). -/
  stepBase : Int := 0
  /-- The counter held while rook, and the counter of a king whose pair spans two regions (R65, R68). -/
  heldSteps : Nat := 0
  /-- The job that holds the tile, 0 none; the tile has been prepared for it (R243). -/
  job : BitVec 12 := 0
  prepared : Bool := false
  /-- Wake tally of a parked sequencer (R170). -/
  wtal : Nat := 0
  /-- Executed PERIOD_MARK with KIND 2 in this period (R252). -/
  marked : Bool := false
  /-- Step counter at the period's start and at its completion (R259). -/
  stepsAtStart : Nat := 0
  stepsAtDone : Option Nat := none
  /-- Writes of the move that runs on under FINISH change no tally (R254). -/
  finishing : Bool := false
  deriving DecidableEq, Repr

/-- A write-combining entry (R206): line number, byte mask, clock of its first write; some of its bytes carry poison
(R207). -/
structure WcbEntry where
  line : Nat
  mask : BitVec 64
  first : Nat
  bad : Bool := false
  deriving DecidableEq, Repr

/-- One HBM stack with its base die (R197 to R212). -/
structure Stack where
  offline : Bool := false
  spareUsed : Bool := false
  /-- Pseudo-channels failed in service (R209), latest first. -/
  failedPcs : List Nat := []
  /-- Symbols in error that lines hold in the DRAM (R207): line number and how many. -/
  errs : List (Nat × Nat) := []
  wcb : List WcbEntry := []
  /-- Clocks of uncorrectable lines of the last millisecond, with their pseudo-channel (R209). -/
  uncorr : List (Nat × Nat) := []
  /-- Stack error log: addresses of uncorrectable lines (R207), and failing rows that found no spare (R208). -/
  errorLog : List Nat := []
  failedRows : List (Nat × Nat) := []
  /-- Corrected lines of a (bank, row): clocks within 24 h (R208); rows that produced an uncorrectable line. -/
  corrected : List ((Nat × Nat) × Nat) := []
  badRows : List (Nat × Nat) := []
  /-- Corrected lines still to be written back (R207). -/
  writeback : List Nat := []
  /-- Activations per (bank, row) since the last RFM (R210). -/
  activations : List ((Nat × Nat) × Nat) := []
  /-- Clock of the last refresh of a bank (R210). -/
  lastRefresh : List (Nat × Nat) := []
  refreshDoubled : Bool := false
  throttled : Bool := false
  deriving DecidableEq, Repr

/-- A map-cache entry (R219): job, page size (log2), page number, physical page base, permissions. -/
structure CacheEntry where
  job : BitVec 12
  size : Nat
  page : Nat
  phys : Nat
  r : Bool
  w : Bool
  level : Nat
  deriving DecidableEq, Repr

/-- A walk-cache entry (R219): level-1 or level-2 table pointer. -/
structure WalkEntry where
  job : BitVec 12
  level : Nat
  index : Nat
  table : Nat
  deriving DecidableEq, Repr

/-- The map and walk caches of one die or of the hub (R219). -/
structure Xlat where
  cache : List CacheEntry := []
  walks : List WalkEntry := []
  deriving DecidableEq, Repr

/-- A fault record (R225) by its fields. -/
structure FaultRec where
  status : Status
  unit : Nat
  flags : BitVec 8 := 0
  job : BitVec 12 := 0
  quad : Nat := 0
  level : Nat := 0
  tile : BitVec 16 := 0xFFFF
  pc : Nat := 0
  seq : BitVec 32 := 0
  addr : Nat := 0
  phys : Nat := 0
  done : Nat := 0
  nextSrc : Nat := 0
  nextDst : Nat := 0
  time : BitVec 64 := 0
  step : Nat := 0
  peer : BitVec 16 := 0
  peerJob : BitVec 12 := 0
  sent : BitVec 256 := 0
  /-- The suspended move it belongs to (R226): its tile and its number there. -/
  mv : Option (Nat × Nat) := none
  deriving DecidableEq, Repr

/-- Job states (R244). -/
inductive JobState where
  | loaded | running | preempted | idle | done | ended
  deriving DecidableEq, Repr

/-- What one tile of a saved job holds (R235): the tile as it stood. Its SRAM, accumulator rows and metadata lie in the
save area. -/
structure SavedTile where
  tile : Nat
  st : Tile
  /-- Its step counter (R235, R237). -/
  steps : Nat := 0
  /-- Poisoned words of its SRAM, by number (R207, R235). -/
  bad : List Nat := []
  deriving DecidableEq, Repr

/-- Period bookkeeping of a period job (R250 to R259). -/
structure Period where
  slot : Nat
  /-- JOB_START has fixed the first period (R250). -/
  started : Bool := false
  /-- First period, period in force (its start has been carried out), last flag fall carried out. -/
  n0 : Int := 0
  n : Int := -1
  fallen : Int := -1
  /-- The check of the period in force has been carried out; it was posted. -/
  checkRun : Bool := false
  checked : Bool := false
  lateStart : Bool := false
  /-- Reclaim time of the lending under way, in 1/16 ns (R257). -/
  reclaimT : Int := 0
  outputsT : Option (BitVec 64) := none
  workT : Option (BitVec 64) := none
  milestoneT : BitVec 64 := 0
  /-- Step counts of the PERIOD_MARKs of KIND 0 and KIND 1 (R165). -/
  milestoneSteps : Nat := 0
  outputsSteps : Nat := 0
  milestone : Nat := 0
  movesDiscarded : Nat := 0
  epochDrops : Nat := 0
  finished : Bool := false
  deriving DecidableEq, Repr

/-- A resident job (R240 to R248). -/
structure Job where
  id : BitVec 12
  p : JobParams
  state : JobState := .loaded
  /-- Status that ended it, and STOPPED tiles at that moment (R244). -/
  endStatus : Status := .success
  /-- Tiles that JOB_START is still preparing. -/
  preparing : List Nat := []
  /-- A LOADED job has been started, or an IDLE one reclaimed: it is runnable (R247). -/
  startWanted : Bool := false
  /-- Tally arrivals held with the job (R246): tile, tally, amount. -/
  held : List (Nat × Nat × Nat) := []
  saved : List SavedTile := []
  /-- The save of lending is in progress (R257); a restore is in progress (R237). -/
  saving : Bool := false
  restoring : Bool := false
  /-- Pre-emption request pending: URGENT (R247, R248). -/
  preempt : Option Bool := none
  /-- Clock at which the request, save or restore under way began; the regions' steps then; counted as late (R248). -/
  preemptT : Nat := 0
  preemptSteps : List Nat := []
  preemptLate : Bool := false
  breaks : Bool := false
  /-- The header of the trace area is still to be written (R166). -/
  header : Bool := false
  /-- TRACE records given an index so far (R166). -/
  traceCount : Nat := 0
  /-- Next free byte of the table pool, relative to its base (R216). -/
  poolNext : Nat := 0
  period : Option Period := none
  deriving DecidableEq, Repr

end Sys2Proof.Machine
end

