-- ==== Sys2Proof/Machine/DataZcp.lean ====
section
/-! DEFINITION. State of the control processor: replay caches, reassembly, queue, lock, source filter,
listeners, event log, flags, freeze and counters (16 and 19 of spec/). -/

namespace Sys2Proof.Machine

/-- A completed request in a replay cache (R441): its header fields and reply body, none once discarded. -/
structure ReplayEntry where
  seq : BitVec 32
  op : BitVec 16
  target : Target
  ver2 : Bool
  tag : BitVec 32
  status : BitVec 16
  body : Option (List Byte)
  time : Nat := 0
  deriving DecidableEq, Repr

/-- The replay cache of one source (R441): latest first, at most 256; clock of its last activity. -/
structure ReplayCache where
  src : ZcpSrc
  last : Nat
  entries : List ReplayEntry := []
  deriving DecidableEq, Repr

/-- A fragmented request being reassembled (R440). -/
structure Reassembly where
  src : ZcpSrc
  seq : BitVec 32
  op : BitVec 16
  target : BitVec 32
  nfrag : Nat
  first : Nat
  frags : List (Nat × List Byte) := []
  malformed : Bool := false
  deriving DecidableEq, Repr

/-- A request that has been accepted and not yet answered (R444, R445). -/
structure Waiting where
  src : ZcpSrc
  seq : BitVec 32
  op : BitVec 16
  target : Target
  ver2 : Bool
  tag : BitVec 32
  maxReply : Nat
  bytes : List Byte
  /-- Clock at which it started to execute; none while queued. -/
  started : Option Nat
  interims : Nat := 0
  /-- It has begun and completes at a later event. -/
  later : Bool := false
  deriving DecidableEq, Repr

/-- A registered listener (R456) and the clocks at which it was sent events within the last second. -/
structure ListenerState where
  who : Listener
  mask : BitVec 32
  sent : List Nat := []
  deriving DecidableEq, Repr

/-- An event record (R457). -/
structure EventRec where
  seq : BitVec 32
  code : EventCode
  time : BitVec 64
  target : Target
  data : List Byte
  deriving DecidableEq, Repr

/-- A flag instance with its occurrence count (R454). -/
structure FlagInst where
  flag : FlagId
  index : Nat
  kind : Nat
  count : Nat
  deriving DecidableEq, Repr

/-- The control processor (R440 to R457). -/
structure Zcp where
  caches : List ReplayCache := []
  reassembly : List Reassembly := []
  waiting : List Waiting := []
  /-- Holder of the management lock and the clock at which its lease ends (R448). -/
  lock : Option (ZcpSrc × Nat) := none
  filter : List FilterEntry := []
  /-- Listener slots 0 to 7 (R456). -/
  listeners : Vector (Option ListenerState) 8 := Vector.replicate 8 none
  /-- The last 1,024 events, latest first, and the next sequence (R456). -/
  log : List EventRec := []
  eventSeq : BitVec 32 := 0
  flags : List FlagInst := []
  deriving DecidableEq, Repr

/-- An armed trigger (R505). -/
structure Trigger where
  /-- Counter ID, and the counter it names; none for one of the firmware's own. -/
  id : Nat
  key : Option CtrKey
  cmp : Nat
  value : BitVec 64
  snapshot : Bool
  /-- Value of the counter when the trigger was armed. -/
  base : BitVec 64
  deriving DecidableEq, Repr

/-- A snapshot in force (R524). -/
structure Snapshot where
  number : BitVec 32
  time : BitVec 64
  values : List (CtrKey × BitVec 64)
  /-- The error log of each stack (R207, R208): lines, then rows. -/
  logs : List (List Nat × List (Nat × Nat))
  deriving DecidableEq, Repr

/-- Freeze, dump and counters (R503 to R524). -/
structure Debug where
  frozen : Bool := false
  freezeNo : BitVec 32 := 0
  /-- Number, cause, tag, time and origin FID of the freeze in force or of the last one (R516). -/
  number : BitVec 32 := 0
  cause : FreezeCause := .command
  tag : BitVec 32 := 0
  freezeT : BitVec 64 := 0
  originFid : BitVec 16 := 0xFFFF
  propagate : Nat := 2
  faultMask : BitVec 32 := 0
  accept : Bool := true
  triggers : Vector (Option Trigger) 8 := Vector.replicate 8 none
  snapshot : Option Snapshot := none
  nextSnapshot : BitVec 32 := 0
  /-- Dump area: base, size, accumulators, SRAM (R514). -/
  dump : Option (Nat × Nat × Bool × Bool) := none
  scanDone : Bool := false
  /-- A freeze taken before READY scans nothing out (R504). -/
  preReady : Bool := false
  doneT : BitVec 64 := 0
  /-- THAWs waiting for scan-out or for their time AT: source, sequence, AT (R519, R520). -/
  thaws : List (ZcpSrc × BitVec 32 × Option (BitVec 64)) := []
  /-- DUMP_READs waiting for DONE: source, sequence, offset, length (R518). -/
  dumpReads : List (ZcpSrc × BitVec 32 × Nat × Nat) := []
  /-- Flits in flight at freeze, per port and VC (R512). -/
  inFlight : List (Nat × Nat × Nat) := []
  deriving DecidableEq, Repr

end Sys2Proof.Machine
end

