-- ==== Sys2Proof/Machine/State.lean ====
section
/-! DEFINITION. The state of the block, its reasons to stop, and the state right after reset (48 V absent). -/

namespace Sys2Proof.Machine

/-- What the module sends out, latest first. -/
inductive Msg where
  /-- A ZCP packet (R435, R456). -/
  | zcp (dst : ZcpSrc) (pkt : List Byte)
  /-- An EVENT packet to a listener (R456). -/
  | event (dst : Listener) (pkt : List Byte)
  /-- Flits of a packet that an output hands to its link, with HEAD and TAIL (R294); frames carry them. -/
  | flits (p : PortIx) (vc : Nat) (head tail : Bool) (fs : List (BitVec 256))
  /-- A link-control flit handed to the link (R296); frames carry it. -/
  | linkControl (p : PortIx) (f : BitVec 256)
  /-- A frame: the lane blocks sent at one time on the lanes of a port (R332 to R334). -/
  | frame (p : PortIx) (bs : List (LaneIx × LaneBlock))
  /-- A training sequence: step and identity record (R346, R350). -/
  | training (p : PortIx) (step : Nat) (id : Identity)
  /-- The transmitter goes back to an FSN (R337); the frames follow. -/
  | resend (p : PortIx) (fsn : BitVec 16)
  /-- An Ethernet frame of an interface (R412 to R428). -/
  | net (i : IfIx) (o : NetOut)
  /-- A private I3C write to a cartridge: offset and bytes (R360). -/
  | i3c (b : BayIx) (offset : Nat) (bs : List Byte)
  /-- A time request to the upstream module (R497). -/
  | timeRequest (p : PortIx)
  deriving DecidableEq, Repr

/-- Reasons for a fault of the model. -/
inductive Fault where
  deriving DecidableEq, Repr

/-- Reasons for a refusal of the model. -/
inductive Refusal where
  /-- Raised by exec for a command that has no meaning yet. Safe: the model stops. -/
  | notModelled (mnemonic : String)
  deriving DecidableEq, Repr

/-- The state of the block. -/
structure State where
  /-- The MODEL's own clock: nanoseconds, one for each step on an empty queue. -/
  clock : Nat := 0
  /-- The MODEL's own index of the next free value. -/
  fresh : Nat := 0
  board : Board := {}
  flash : Flash := {}
  boot : Boot := {}
  sec : Security := {}
  time : TimeBase := {}
  therm : List ThermRegion := []
  power : Power := {}
  /-- Control-ring steps of the 96 voltage regions (R40, R41). -/
  steps : Vector Nat 96 := Vector.replicate 96 0
  /-- Counters that have counted; one that is not listed is 0 (R523). -/
  counters : List (CtrKey × BitVec 64) := []
  zcp : Zcp := {}
  dbg : Debug := {}
  /-- Tiles that differ from a tile after self-test. -/
  tiles : List (Nat × Tile) := []
  /-- Memory: bytes by physical address, stacks and tile SRAM aperture (R198). -/
  mem : List Host.Cell := []
  /-- Poisoned HBM lines (by address / 64) and tile SRAM words (by address / 8) (R207, R550). -/
  poison : List Nat := []
  poisonWords : List Nat := []
  hbm : Vector Stack 24 := Vector.replicate 24 {}
  xlat : Vector Xlat 7 := Vector.replicate 7 {}
  /-- The module fault queue, oldest first; next record number; OVERFLOW pending (R225, R226). -/
  faultQ : List FaultRec := []
  faultSeq : BitVec 32 := 0
  faultLost : Bool := false
  /-- Records kept with suspended or discarded moves (R226, R234). -/
  moveFaults : List FaultRec := []
  jobs : List Job := []
  fab : Fabric := {}
  ports : Vector Port 16 := Vector.replicate 16 {}
  coll : Coll := {}
  host : HostEth := {}
  bays : Vector Bay 11 := Vector.replicate 11 {}
  ppe : Ppe := {}
  outbox : List Msg := []
  /-- Commands that wait, first in, first out. -/
  pending : List Instr := []
  deriving DecidableEq, Repr

/-- Sensors of a thermal region by its index (R481). -/
def sensorsOf (k : Nat) : Nat :=
  if k < 96 then 3 else if k < 120 then 2 else if k < 124 then 4 else if k < 128 then 12 else if k < 132 then 4 else 8

/-- The 133 thermal regions after power-up (R481, R482). -/
def thermReset : List ThermRegion :=
  (List.range 133).map fun k => { sensors := List.replicate (sensorsOf k) {} }

/-- The machine right after reset: 48 V absent, rails off, nothing lit. -/
def State.reset : State := { therm := thermReset }

/-- The outcome of a command. -/
abbrev Out := Host.Outcome State Fault Refusal

end Sys2Proof.Machine
end

