-- ==== Sys2Proof/Machine/Packets.lean ====
section
/-! DEFINITION. Packets as flits: the header and transport block of R298 to R300, link-control flits, and the
conversion between requests and packets. -/

namespace Sys2Proof.Machine

/-- The header fields of R298 and the transport block of R299. -/
structure Head where
  dst : BitVec 16
  src : BitVec 16
  ty : Nat
  cls : Nat
  len : Nat
  hops : Nat := 0
  ce : Bool := false
  esc : Bool := false
  ord : Bool := false
  last : Bool := false
  epoch : Nat := 0
  seq : Nat := 0
  tb : Nat := 0
  deriving DecidableEq, Repr

/-- CRC-16 of R298, most significant bit first. -/
def crc16 (bits : List Bool) : BitVec 16 :=
  bits.foldl (fun c b => (c <<< 1) ^^^ (if c.msb != b then 0x1021 else 0)) 0xFFFF

/-- CRC-32 of R334, most significant bit first (log 42). -/
def crc32Bits (bits : List Bool) : BitVec 32 :=
  ~~~(bits.foldl (fun (c : BitVec 32) b => (c <<< 1) ^^^ (if c.msb != b then 0x04C11DB7#32 else 0)) 0xFFFFFFFF#32)

/-- The bits of bytes, each most significant bit first. -/
def bitsOf (bs : List Byte) : List Bool := bs.flatMap fun b => (List.range 8).map fun k => b.getLsbD (7 - k)

/-- CRC-32 of R334 over bytes. -/
def crc32 (bs : List Byte) : BitVec 32 := crc32Bits (bitsOf bs)

/-- Header bits [127:16] of a head (R298). -/
def Head.upper (h : Head) : Nat :=
  let b (x : Bool) : Nat := if x then 1 else 0
  (h.seq * 2 ^ 39 + h.epoch * 2 ^ 63 + b h.last * 2 ^ 71 + b h.ord * 2 ^ 72 + b h.esc * 2 ^ 73 + b h.ce * 2 ^ 74 +
    h.hops * 2 ^ 75 + h.len * 2 ^ 81 + h.cls * 2 ^ 90 + h.ty * 2 ^ 92 + h.src.toNat * 2 ^ 96 + h.dst.toNat * 2 ^ 112) / 2 ^ 16

/-- HCRC over bits [127:16] given as a number (R298). -/
def hcrc (upper : Nat) : BitVec 16 := crc16 ((List.range 112).map fun k => upper.testBit (111 - k))

/-- The head flit (R297, R298). -/
def Head.flit (h : Head) : BitVec 256 :=
  BitVec.ofNat 256 (h.tb * 2 ^ 128 + h.upper * 2 ^ 16 + (hcrc h.upper).toNat)

/-- Bits [hi:lo] of a flit. -/
def ffld (w : BitVec 256) (hi lo : Nat) : Nat := w.toNat / 2 ^ lo % 2 ^ (hi + 1 - lo)

/-- The fields of a head flit (R298). -/
def headOf (f : BitVec 256) : Head :=
  { dst := BitVec.ofNat 16 (ffld f 127 112), src := BitVec.ofNat 16 (ffld f 111 96), ty := ffld f 95 92, cls := ffld f 91 90
    len := ffld f 89 81, hops := ffld f 80 75, ce := f.getLsbD 74, esc := f.getLsbD 73, ord := f.getLsbD 72, last := f.getLsbD 71
    epoch := ffld f 70 63, seq := ffld f 62 39, tb := ffld f 255 128 }

/-- HCRC is correct (R302). -/
def headCrcOk (f : BitVec 256) : Bool := (hcrc (ffld f 127 16)).toNat == ffld f 15 0

/-- Write a field of a flit. -/
def setFld (f : BitVec 256) (hi lo v : Nat) : BitVec 256 :=
  BitVec.ofNat 256 (f.toNat - ffld f hi lo * 2 ^ lo + v % 2 ^ (hi + 1 - lo) * 2 ^ lo)

/-- HCRC recomputed over a changed header (R301). -/
def sealHead (f : BitVec 256) : BitVec 256 := setFld f 15 0 (hcrc (ffld f 127 16)).toNat

/-- Set CE or ESC of a head; every other field stays, the reserved ones too (R301). -/
def markHead (f : BitVec 256) (bit : Nat) : BitVec 256 := sealHead (setFld f bit bit 1)

/-- A head as a router forwards it: one more hop, and ESC once an escape channel has been used (R301, R309, R314). -/
def forwardHead (f : BitVec 256) (esc : Bool) : BitVec 256 :=
  let f := setFld f 80 75 (ffld f 80 75 + 1)
  sealHead (if esc then setFld f 73 73 1 else f)

/-- Bits [hi:lo] of the transport block (R300). -/
def Head.tf (h : Head) (hi lo : Nat) : Nat := h.tb / 2 ^ lo % 2 ^ (hi + 1 - lo)

/-- Message types of R299 and the classes each may travel in. -/
def typeClassOk (ty cls : Nat) : Bool :=
  if ty = 1 then cls != 1 else if ty = 8 then cls == 0 else if ty = 10 then cls == 2
  else if 2 ≤ ty && ty ≤ 9 then cls == 1 else false

/-- Payload bytes of a packet: LEN, but none for a GET request (R297). -/
def Head.payloadBytes (h : Head) : Nat := if h.ty = 1 && h.tf 115 112 = 1 then 0 else h.len

/-- Flits of a packet with this header (R297). -/
def Head.flits (h : Head) : Nat := 1 + ceilDiv h.payloadBytes 32

/-- Payload flits of bytes, padded with 0 (R297). -/
def payloadFlits (bs : List Byte) : List (BitVec 256) :=
  (List.range (ceilDiv bs.length 32)).map fun k => BitVec.ofNat 256 (leNat ((bs.drop (32 * k)).take 32))

/-- Payload bytes of flits (R297). -/
def payloadOf (h : Head) (fs : List (BitVec 256)) : List Byte := (fs.flatMap fun f => leBytes 32 f.toNat).take h.payloadBytes

/-- A packet of a header and payload, on the adaptive VC of its class (R295). -/
def mkPkt (h : Head) (bs : List Byte) : Pkt := ⟨3 * h.cls, h.flit, payloadFlits bs⟩

/-- A REQUEST as a packet (R298, R300). -/
def reqPkt (q : Request) : Pkt :=
  let b (x : Bool) : Nat := if x then 1 else 0
  mkPkt { dst := q.dst, src := q.src, ty := 1, cls := q.cls.toNat, len := q.len.toNat, ce := q.ce, ord := q.ord, last := q.last
          epoch := q.epoch.toNat, seq := q.seq.toNat
          tb := q.waddr.toNat + q.oprev.toNat * 2 ^ 64 + q.rtile.toNat * 2 ^ 88 + q.rtal.toNat * 2 ^ 100 + b q.rten * 2 ^ 106 +
            b q.opv * 2 ^ 107 + q.aop.toNat * 2 ^ 108 + q.op.toNat * 2 ^ 112 + q.job.toNat * 2 ^ 116 } q.payload

/-- A packet as a REQUEST (R298, R300). -/
def requestOf (h : Head) (bs : List Byte) : Request :=
  { dst := h.dst, src := h.src, cls := BitVec.ofNat 2 h.cls, job := BitVec.ofNat 12 (h.tf 127 116), op := BitVec.ofNat 4 (h.tf 115 112)
    aop := BitVec.ofNat 4 (h.tf 111 108), ord := h.ord, last := h.last, ce := h.ce, epoch := BitVec.ofNat 8 h.epoch
    seq := BitVec.ofNat 24 h.seq, len := BitVec.ofNat 9 h.len, opv := h.tf 107 107 = 1, oprev := BitVec.ofNat 24 (h.tf 87 64)
    rten := h.tf 106 106 = 1, rtal := BitVec.ofNat 6 (h.tf 105 100), rtile := BitVec.ofNat 12 (h.tf 99 88)
    waddr := BitVec.ofNat 48 (h.tf 47 0), payload := bs }

/-- A RECEIPT entry (R279). -/
def receiptWord (e : ReceiptEntry) : List Byte :=
  leBytes 8 ((if e.ce then 128 else 0) + e.mask.toNat * 2 ^ 8 + e.base.toNat * 2 ^ 40)

/-- The RECEIPT entry of 8 bytes (R279). -/
def receiptOf (v : Nat) : ReceiptEntry :=
  { base := BitVec.ofNat 24 (v / 2 ^ 40), mask := BitVec.ofNat 32 (v / 2 ^ 8), ce := v / 128 % 2 = 1 }

/-- The numbers of n bytes each in a payload. -/
def wordsOf (n : Nat) (bs : List Byte) : List Nat :=
  (List.range (bs.length / n)).map fun k => leNat ((bs.drop (n * k)).take n)

/-- A link-control flit of a KIND and bytes from byte 2 (R296). -/
def lcFlit (kind : Nat) (bs : List Byte) : BitVec 256 := BitVec.ofNat 256 (kind + leNat bs * 2 ^ 16)

end Sys2Proof.Machine
end

