-- ==== Sys2Proof/Machine/Ops.lean ====
section
/-! DEFINITION. Named operations over the state: clocks and gates, counters, events and flags, memory, tiles,
tallies, fault records, and the start of a freeze. -/

namespace Sys2Proof.Machine

/-! ## Gates -/

/-- Rails on, not in reset, firmware running (R22, R31, R458). -/
def State.live (s : State) : Bool := s.board.rails && !s.board.resetLow && s.boot.step == .running

/-- Live and not frozen (R509). -/
def State.working (s : State) : Bool := s.live && !s.dbg.frozen

/-- DEVICE_INFO STATE (R453, R504, R507). -/
def State.devState (s : State) : DevState :=
  if s.dbg.frozen && s.boot.ready then .frozen else if s.boot.ready then .ready else .starting

/-- A compute region is held by its thermal floor, the cap or the comparator (R486, R492, R493). -/
def State.held (s : State) (region : Nat) : Bool :=
  s.power.capHold || s.power.ocHold || ((s.therm[region]?).map ThermRegion.held).getD false

/-- The tile lies in an OFFLINE row (R36). -/
def State.tileOffline (s : State) (t : Nat) : Bool :=
  s.boot.offlineRows.any fun r => r.1.val * 512 + r.2.val * 32 ≤ t && t < r.1.val * 512 + r.2.val * 32 + 32

/-- Global time (R8). -/
def State.now (s : State) : BitVec 64 := s.time.global

/-- A meaning that has an effect only where its conditions hold; otherwise the command finds nothing to act on and
changes nothing (log 8). -/
def when_ (s : State) (c : Bool) (f : State → State) : Out := .next (if c then f s else s)

/-- A free value of 64 bits (log 2). -/
def State.free (s : State) : BitVec 64 × State := (Config.freeValue s.fresh, { s with fresh := s.fresh + 1 })

/-- Free bytes, for contents that the spec leaves open (log 2). -/
def State.freeBytes (s : State) (n : Nat) : List Byte × State :=
  ((List.range n).map fun i => (Config.freeValue (s.fresh + i)).setWidth 8, { s with fresh := s.fresh + n })

/-! ## Counters -/

/-- Value of a stored counter; 0 until it counts (R523). -/
def State.ctr (s : State) (k : CtrKey) : BitVec 64 := ((s.counters.find? fun p => p.1 == k).map Prod.snd).getD 0

/-- Replace or add a counter. -/
def setCtr (k : CtrKey) (v : BitVec 64) : List (CtrKey × BitVec 64) → List (CtrKey × BitVec 64)
  | [] => [(k, v)]
  | p :: ps => if p.1 = k then (k, v) :: ps else p :: setCtr k v ps

/-- Write a counter. -/
def State.setCtr (s : State) (k : CtrKey) (v : BitVec 64) : State := { s with counters := Machine.setCtr k v s.counters }

/-- Count n in a counter; a COUNT wraps modulo 2^64 (R523). -/
def State.bump (s : State) (id : CtrId) (i : Nat := 0) (j : Nat := 0) (n : Nat := 1) : State :=
  if n = 0 then s else s.setCtr ⟨id, i, j, 0⟩ (s.ctr ⟨id, i, j, 0⟩ + BitVec.ofNat 64 n)

/-! ## Lists of keyed things -/

/-- Replace the element that a test selects. -/
def mapIf {α : Type} (p : α → Bool) (f : α → α) (xs : List α) : List α := xs.map fun x => if p x then f x else x

/-! ## Events and flags -/

/-- A packet of ZCP bytes (R435). -/
def zcpPacket (ver : Nat) (flags : Nat) (seq : BitVec 32) (op : Nat) (status : Nat) (target : Nat) (tag : BitVec 32)
    (frag nfrag : Nat) (params : List Byte) : List Byte :=
  leBytes 2 0x5A4D ++ leBytes 1 ver ++ leBytes 1 flags ++ leBytes 4 seq.toNat ++ leBytes 2 op ++ leBytes 2 status ++
  leBytes 4 params.length ++ leBytes 4 target ++ leBytes 4 tag.toNat ++ leBytes 2 frag ++ leBytes 2 nfrag ++
  leBytes 4 0 ++ params

/-- One type-length-value item (R437). -/
def tlv (type : Nat) (v : List Byte) : List Byte :=
  leBytes 2 type ++ leBytes 2 v.length ++ v ++ List.replicate ((4 - v.length % 4) % 4) 0

/-- Items numbered from 1 (R437). -/
def items (vs : List (List Byte)) : List Byte := (vs.zipIdx).flatMap fun p => tlv (p.2 + 1) p.1

/-- The TARGET field (R435, R436). -/
def targetCode (t : Target) : Nat := t.kind.toNat * 2 ^ 24 + t.index.toNat

/-- The 32 bytes of an event record (R457). -/
def EventRec.bytes (e : EventRec) : List Byte :=
  leBytes 4 e.seq.toNat ++ leBytes 2 e.code.code ++ [0, 0] ++ leBytes 8 e.time.toNat ++ leBytes 4 (targetCode e.target) ++
  (e.data ++ List.replicate 12 0).take 12

/-- Send an event to one listener, at most 10,000 in a second (R456): the packet, where it is sent. -/
def notify (clock : Nat) (e : EventRec) (l : Option ListenerState) : Option ListenerState × List (Listener × List Byte) × Nat :=
  match l with
  | none => (none, [], 0)
  | some l =>
    if !l.mask.getLsbD e.code.code then (some l, [], 0) else
    let sent := l.sent.filter fun t => clock < t + 1000000000
    if sent.length ≥ 10000 then (some { l with sent := sent }, [], 1)
    else (some { l with sent := clock :: sent },
      [(l.who, zcpPacket 2 2 e.seq 0x00F0 0 (targetCode e.target) 0 0 1 (items [e.bytes]))], 0)

/-- Own FID from the plan (R262, R351). -/
def State.fid (s : State) : Option (BitVec 16) := s.fab.plan.map fun p => BitVec.ofNat 16 (leNat ((p.drop 4).take 2))

/-- Send a packet to a listener: as a UDP datagram, or as a CONTROL message (R433, R456). -/
def State.sendListener (s : State) (l : Listener) (bs : List Byte) : State :=
  match l with
  | .udp _ _ => { s with outbox := .event l bs :: s.outbox }
  | .fid f =>
    let p := mkPkt { dst := f, src := s.fid.getD 0xFFFF, ty := 8, cls := 0, len := bs.length } bs
    { s with fab := { s.fab with inject := s.fab.inject ++ [{ pkt := p, arrived := s.time.work }] } }

/-- Post an event: log it, and send it to every listener whose mask selects it (R456, R457). Its time-stamp is now, or
the one it would have had (R253, R521). -/
def State.event (s : State) (code : EventCode) (target : Target) (data : List Byte) (at_ : Option (BitVec 64) := none) : State :=
  let e : EventRec := ⟨s.zcp.eventSeq, code, at_.getD s.now, target, data⟩
  let rs := s.zcp.listeners.toList.map (notify s.clock e)
  let s1 : State := { s with
    zcp := { s.zcp with
      listeners := Vector.ofFn fun i : Fin 8 => (rs[i.val]?.map (·.1)).getD none
      log := (e :: s.zcp.log).take 1024
      eventSeq := s.zcp.eventSeq + 1 } }
  let s2 := (rs.flatMap (·.2.1)).foldl (fun s p => s.sendListener p.1 p.2) s1
  s2.bump .zcpEventDropped 0 0 (rs.map (·.2.2)).sum

/-- Occurrence count of a flag instance (R454). -/
def State.flagCount (s : State) (f : FlagId) (kind index : Nat) : Nat :=
  ((s.zcp.flags.find? fun x => x.flag == f && x.kind == kind && x.index == index).map FlagInst.count).getD 0

/-- Record an occurrence of a flag (R454): a flag that changes from clear to set posts event FLAG. -/
def State.setFlag (s : State) (f : FlagId) (kind index : Nat) : State :=
  let c := s.flagCount f kind index
  let c' := min (c + 1) 0xFFFFFFFF
  let rest := s.zcp.flags.filter fun x => !(x.flag == f && x.kind == kind && x.index == index)
  let s1 := { s with zcp := { s.zcp with flags := ⟨f, index, kind, c'⟩ :: rest } }
  if c = 0 then
    s1.event .flag ⟨BitVec.ofNat 8 kind, BitVec.ofNat 24 index⟩ (leBytes 2 f.code.toNat ++ leBytes 4 c')
  else s1

/-- Send something out. -/
def State.emit (s : State) (m : Msg) : State := { s with outbox := m :: s.outbox }

/-! ## Memory -/

namespace Memory

/-- Addresses rise strictly and no listed byte is 0: the one canonical form. -/
def wf : List Host.Cell → Bool
  | [] => true
  | [c] => c.2 != 0
  | c :: d :: m => c.2 != 0 && c.1 < d.1 && wf (d :: m)

/-- The byte at an address; an unlisted one reads 0 (log 5). -/
def read : List Host.Cell → Nat → Byte
  | [], _ => 0
  | c :: m, a => if c.1 = a then c.2 else if a < c.1 then 0 else read m a

/-- Write one byte, keeping the canonical form. -/
def write : List Host.Cell → Nat → Byte → List Host.Cell
  | [], a, b => if b = 0 then [] else [(a, b)]
  | c :: m, a, b =>
    if c.1 = a then (if b = 0 then m else (a, b) :: m)
    else if a < c.1 then (if b = 0 then c :: m else (a, b) :: c :: m)
    else c :: write m a b

/-- Read n bytes. -/
def readN (m : List Host.Cell) (a : Nat) (n : Nat) : List Byte := (List.range n).map fun i => read m (a + i)

/-- Write bytes at rising addresses. -/
def writeN (m : List Host.Cell) : Nat → List Byte → List Host.Cell
  | _, [] => m
  | a, b :: bs => writeN (write m a b) (a + 1) bs

/-- Drop every byte of a range: it then reads 0. -/
def zero (m : List Host.Cell) (a n : Nat) : List Host.Cell := m.filter fun c => c.1 < a || a + n ≤ c.1

end Memory

/-- Physical base of a stack and of a tile's SRAM (R198). -/
def stackBase (m : Nat) : Nat := m * 0x2000000000
def stackSize : Nat := 0x1400000000
def sramBase (t : Nat) : Nat := 0x30000000000 + t * 0x100000
def sramSize : Nat := 0x100000

/-- The stack of a physical address, if it lies in one (R198). -/
def stackOf (a : Nat) : Option StackIx :=
  if h : a / 0x2000000000 < 24 then
    if a % 0x2000000000 < stackSize then some ⟨a / 0x2000000000, h⟩ else none
  else none

/-- The tile whose SRAM aperture holds a physical address (R198). -/
def tileOf (a : Nat) : Option Nat :=
  if 0x30000000000 ≤ a && a < 0x300C0000000 then some ((a - 0x30000000000) / sramSize) else none

/-- Pseudo-channel of a physical address (R200). -/
def pseudoChannel (a : Nat) : Nat :=
  let o := a % 0x2000000000
  Nat.xor (o / 2 ^ 8 % 64) (o / 2 ^ 14 % 64)

/-! ## Stacks: write-combining, error checking, repair (R203 to R212) -/

/-- Update one stack. -/
def State.setStack (s : State) (m : StackIx) (k : Stack) : State := { s with hbm := s.hbm.set m k }

/-- A pseudo-channel failed in service holds this line (R209). -/
def State.pcFailed (s : State) (m : StackIx) (line : Nat) : Bool := s.hbm[m].failedPcs.contains (pseudoChannel (line * 64))

/-- Count one activation of the row of a line; at 2,048 since the last RFM the bank gets RFM (R210). Whether an access
activates its row is the controller's: the free bit (log 9). -/
def State.activate (s : State) (m : StackIx) (line : Nat) : State :=
  let (v, s1) := s.free
  if !v.getLsbD 0 then s1 else
  let k := s1.hbm[m]
  let br := Config.bankRow m.val line
  let n := ((k.activations.find? fun x => x.1 == br).map Prod.snd).getD 0 + 1
  if n ≥ 2048 then
    (s1.setStack m { k with activations := k.activations.filter fun x => x.1.1 != br.1 }).bump .memRfm m.val
  else s1.setStack m { k with activations := (br, n) :: k.activations.filter fun x => x.1 != br }

/-- Symbols in error that a line holds (R207). -/
def State.lineErrs (s : State) (m : StackIx) (line : Nat) : Nat := ((s.hbm[m].errs.find? fun e => e.1 == line).map Prod.snd).getD 0

/-- A line is written anew: it holds no error. -/
def State.clearErrs (s : State) (m : StackIx) (line : Nat) : State :=
  s.setStack m { s.hbm[m] with errs := s.hbm[m].errs.filter fun e => e.1 != line }

/-- Symbols of lines go wrong in the DRAM (R207). -/
def State.upset (s : State) (errs : List (Nat × Nat)) : State :=
  errs.foldl (fun s e => match stackOf (e.1 * 64) with
    | some m => if e.2 = 0 then s else (s.clearErrs m e.1).setStack m { (s.clearErrs m e.1).hbm[m] with
        errs := (e.1, e.2 + s.lineErrs m e.1) :: (s.clearErrs m e.1).hbm[m].errs }
    | none => s) s

/-- Enter a line in the stack error log (R207). -/
def State.logLine (s : State) (m : StackIx) (line : Nat) : State :=
  s.setStack m { s.hbm[m] with errorLog := line * 64 :: s.hbm[m].errorLog }

/-- A line is found uncorrectable: poisoned, its row marked for repair; more than 64 in a millisecond fail its
pseudo-channel (R207 to R209). One with 7 or more symbols in error counts in no counter. -/
def State.uncorrectable (s : State) (m : StackIx) (line : Nat) (counts : Bool) : State :=
  let s := (s.clearErrs m line).logLine m line
  let k := s.hbm[m]
  let pc := pseudoChannel (line * 64)
  let u := (s.clock, pc) :: k.uncorr.filter fun x => s.clock < x.1 + 1000000
  let br := Config.bankRow m.val line
  let fails := !k.failedPcs.contains pc && (u.filter fun x => x.2 == pc).length > 64
  let s1 := (s.setStack m { k with
    uncorr := u
    badRows := if k.badRows.contains br then k.badRows else br :: k.badRows
    failedPcs := if fails then pc :: k.failedPcs else k.failedPcs }).bump .memEccUncorrectable m.val 0 (if counts then 1 else 0)
  let s2 := { s1 with poison := if s1.poison.contains line then s1.poison else line :: s1.poison }
  if fails then s2.setFlag .memPcFailed 3 m.val else s2

/-- Read a line of the DRAM (R207): the state after the check, and whether it is poisoned. With 7 or more symbols in error it
may be returned miscorrected: its bytes are free ones. -/
def State.dramRead (s : State) (m : StackIx) (line : Nat) : State × Bool :=
  let s := s.activate m line
  if s.poison.contains line then (s.bump .memEccPoisonReads m.val, true) else
  let e := s.lineErrs m line
  if e = 0 then (s, false)
  else if e ≤ 2 then
    let k := s.hbm[m]
    let br := Config.bankRow m.val line
    ((s.setStack m { k with
      writeback := if k.writeback.contains line then k.writeback else line :: k.writeback
      corrected := (br, s.clock) :: k.corrected.filter fun x => s.clock < x.2 + 86400000000000 }).bump
      .memEccCorrected m.val, false)
  else if e ≤ 6 then (s.uncorrectable m line true, true)
  else
    let n := s.fresh
    let s := { s with fresh := n + 1 }
    if Config.miscorrects n then
      ({ s.clearErrs m line with mem := Memory.writeN s.mem (line * 64) ((Config.freeBytes n 64 ++ List.replicate 64 0).take 64) }, false)
    else (s.uncorrectable m line false, true)

/-- Flush one write-combining entry: a partial one is a read-modify-write, whose read is checked as any other; one that
finds the line poisoned or uncorrectable leaves it so, and logs it (R206, R207). -/
def State.flushEntry (s : State) (m : StackIx) (e : WcbEntry) (cause : CtrId) : State :=
  let s := (s.setStack m { s.hbm[m] with wcb := s.hbm[m].wcb.filter fun x => x.line != e.line }).bump cause m.val
  if e.mask = BitVec.allOnes 64 then
    let s := (s.activate m e.line).clearErrs m e.line
    if e.bad then s else { s with poison := s.poison.filter fun l => l != e.line }
  else
    let kept := (List.range 64).filterMap fun i =>
      if e.mask.getLsbD i then some (e.line * 64 + i, Memory.read s.mem (e.line * 64 + i)) else none
    let known := s.poison.contains e.line
    let (s, bad) := (s.bump .memWcbRmw m.val).dramRead m e.line
    if bad then (if known then s.logLine m e.line else s).bump .memWcbRmwPoisoned m.val
    else { s.clearErrs m e.line with mem := kept.foldl (fun mem c => Memory.write mem c.1 c.2) s.mem }

/-- Flush every entry that a test selects, oldest first (R206). -/
def State.flushWhere (s : State) (m : StackIx) (p : WcbEntry → Bool) (cause : CtrId) : State :=
  (s.hbm[m].wcb.filter p).foldl (fun s e => s.flushEntry m e cause) s

/-- Accept a write of some bytes of one line (R203, R206, R209); `bad` carries poison into it (R207). -/
def State.writeLine (s : State) (m : StackIx) (a : Nat) (bs : List Byte) (bad : Bool) : State :=
  let line := a / 64
  if s.pcFailed m line then s.bump .memPcWritesDiscarded m.val else
  let s := s.bump .memWriteBytes m.val 0 bs.length
  let mask : BitVec 64 := BitVec.ofNat 64 ((2 ^ bs.length - 1) * 2 ^ (a % 64))
  let s := { s with mem := Memory.writeN s.mem a bs }
  let s := match s.hbm[m].wcb.find? fun e => e.line == line with
    | some e =>
      (s.setStack m { s.hbm[m] with
        wcb := mapIf (fun x => x.line == line) (fun x => { x with mask := e.mask ||| mask, bad := bad || (e.bad && bs.length != 64) }) s.hbm[m].wcb }).bump
        .memWcbMerges m.val
    | none =>
      let s := match s.hbm[m].wcb with
        | e :: _ => if s.hbm[m].wcb.length ≥ 512 then s.flushEntry m e .memWcbFlushEvict else s
        | [] => s
      s.setStack m { s.hbm[m] with wcb := s.hbm[m].wcb ++ [(⟨line, mask, s.clock, bad⟩ : WcbEntry)] }
  let s := match s.hbm[m].wcb.find? fun (e : WcbEntry) => e.line == line && e.mask == BitVec.allOnes 64 with
    | some e => s.flushEntry m e .memWcbFlushFull
    | none => s
  if bad && !s.poison.contains line then { s with poison := line :: s.poison } else s

/-- Cut a range into pieces at every multiple of n: address and length. -/
def pieces (n : Nat) : Nat → Nat → Nat → List (Nat × Nat)
  | 0, _, _ => []
  | f + 1, a, len =>
    if len = 0 then [] else
    let k := min len (n - a % n)
    (a, k) :: pieces n f (a + k) (len - k)

/-- Write bytes into tile SRAM: a whole word clears poison, a poisoned write poisons the words it lands in (R550). -/
def State.writeSram (s : State) (a : Nat) (bs : List Byte) (bad : Bool) : State :=
  let ws := pieces 8 (bs.length + 1) a bs.length
  let whole := (ws.filter fun p => p.2 == 8).map fun p => p.1 / 8
  let all := ws.map fun p => p.1 / 8
  { s with
    mem := Memory.writeN s.mem a bs
    poisonWords := if bad then all.filter (fun w => !s.poisonWords.contains w) ++ s.poisonWords
      else if s.poisonWords.isEmpty then [] else s.poisonWords.filter fun w => !whole.contains w }

/-- Write bytes at a physical address, in a stack or in tile SRAM (R198, R203). -/
def State.writePhys (s : State) (a : Nat) (bs : List Byte) (bad : Bool := false) : State :=
  match stackOf a with
  | some m =>
    (pieces 64 (bs.length + 1) a bs.length).foldl
      (fun s p => s.writeLine m p.1 ((bs.drop (p.1 - a)).take p.2) bad) s
  | none => if (tileOf a).isSome then s.writeSram a bs bad else s

/-- Check the read of n bytes of one HBM line (R203, R207, R209, R214): the state after the check, and whether the reader
faults with POISON. Bytes that the write-combining buffer holds wholly need no DRAM read (R202, log 9). -/
def State.checkLine (s : State) (m : StackIx) (a n : Nat) : State × Bool :=
  let line := a / 64
  if s.pcFailed m line then (s, true) else
  let held : List Bool := match s.hbm[m].wcb.find? fun (e : WcbEntry) => e.line == line with
    | some e => (List.range n).map fun i => e.mask.getLsbD (a % 64 + i) && !e.bad
    | none => []
  let (s, bad) := if n != 0 && held.length == n && held.all id then (s, false) else s.dramRead m line
  if bad then (s, true)
  else ((s.bump .memWcbHits m.val 0 (if held.any id then 1 else 0)).bump .memReadBytes m.val 0 n, false)

/-- Check every line or word of a read of n bytes: the first poisoned address, if any; nothing is read beyond it
(R207, R214, R550). -/
def State.checkRead (s : State) (a n : Nat) : State × Option Nat :=
  match stackOf a with
  | some m =>
    (pieces 64 (n + 1) a n).foldl (fun (acc : State × Option Nat) p =>
      if acc.2.isSome then acc else
      let (s, bad) := acc.1.checkLine m p.1 p.2
      (s, if bad then some (p.1 / 64 * 64) else none)) (s, none)
  | none =>
    if s.poisonWords.isEmpty then (s, none) else
    (s, ((pieces 8 (n + 1) a n).find? fun p => s.poisonWords.contains (p.1 / 8)).map fun p => p.1 / 8 * 8)

/-- Bytes at a physical address. -/
def State.readPhys (s : State) (a n : Nat) : List Byte := Memory.readN s.mem a n

/-- Bytes of a tile's SRAM. -/
def State.sram (s : State) (t a n : Nat) : List Byte := Memory.readN s.mem (sramBase t + a) n

/-- The first poisoned word of a range of a tile's SRAM, as a physical address (R550). -/
def State.sramPoison (s : State) (t a n : Nat) : Option Nat :=
  if s.poisonWords.isEmpty then none else
  ((pieces 8 (n + 1) (sramBase t + a) n).find? fun p => s.poisonWords.contains (p.1 / 8)).map fun p => p.1 / 8 * 8

/-! ## Tiles and jobs -/

/-- A tile's state (R39). -/
def State.tile (s : State) (t : Nat) : Tile := ((s.tiles.find? fun p => p.1 == t).map Prod.snd).getD {}

/-- Regions whose rings a tile's units run with: its own, and its rook's where it is the king of a vertical pair (R41, R68). -/
def State.regionsOf (s : State) (t : Nat) : List Nat :=
  match (s.tile t).castle with
  | .king true r => [t / 32, r / 32]
  | _ => [t / 32]

/-- The units of a tile run (R48, R68, R486, R509). -/
def State.tileRuns (s : State) (t : Nat) : Bool :=
  s.working && !(s.regionsOf t).any s.held && !s.tileOffline t

/-- Replace or add a tile. -/
def setTile (t : Nat) (x : Tile) : List (Nat × Tile) → List (Nat × Tile)
  | [] => [(t, x)]
  | p :: ps => if p.1 = t then (t, x) :: ps else p :: setTile t x ps

/-- Write a tile's state. -/
def State.setTile (s : State) (t : Nat) (x : Tile) : State := { s with tiles := Machine.setTile t x s.tiles }

/-- Change a tile's state. -/
def State.modTile (s : State) (t : Nat) (f : Tile → Tile) : State := s.setTile t (f (s.tile t))

/-- A resident job (R240). -/
def State.job (s : State) (j : BitVec 12) : Option Job := s.jobs.find? fun x => x.id == j

/-- Change a resident job. -/
def State.modJob (s : State) (j : BitVec 12) (f : Job → Job) : State :=
  { s with jobs := mapIf (fun x => x.id == j) f s.jobs }

/-- The tiles of a job's group, in ascending index (R241). -/
def jobTiles (p : JobParams) : List Nat :=
  (List.range 6).flatMap fun d => if p.dieMask.getLsbD d then
    (List.range p.nrows).flatMap fun r => (List.range p.ncols).map fun c => d * 512 + (p.row0 + r) * 32 + p.col0 + c
  else []

/-- A tile lies in a job's group (R241). -/
def jobHas (p : JobParams) (t : Nat) : Bool :=
  t < 3072 && p.dieMask.getLsbD (t / 512) && p.row0 ≤ t % 512 / 32 && t % 512 / 32 < p.row0 + p.nrows &&
  p.col0 ≤ t % 32 && t % 32 < p.col0 + p.ncols

/-- The job that holds a tile: prepared for a job that is RUNNING (R243, R244). -/
def State.holder (s : State) (t : Nat) : Option Job :=
  let x := s.tile t
  if x.job = 0 || !x.prepared then none else
  (s.job x.job).bind fun j => if j.state == .running then some j else none

/-- Another job holds a tile: it is RUNNING, though the tile may still be prepared for it, or it is being restored
(R243, R244, R246). -/
def State.heldByOther (s : State) (j : BitVec 12) (t : Nat) : Bool :=
  s.jobs.any fun k => k.id != j && (k.state == .running || k.restoring) && jobHas k.p t

/-- Steps of a region's control ring since power-up. -/
def State.ring (s : State) (region : Nat) : Nat := (s.steps.toArray[region]?).getD 0

/-- Step counter of a tile (R40): a rook's is held, and a king's counts the pair's steps, which for a vertical pair are no
one region's (R65, R68). -/
def State.stepCount (s : State) (t : Nat) : Nat :=
  let x := s.tile t
  match x.castle with
  | .rook _ | .king true _ => x.heldSteps
  | _ => ((s.ring (t / 32) : Int) - x.stepBase).toNat

/-- The ring count at which a step counter that reads n now was 0 (R40). -/
def State.baseFor (s : State) (t n : Nat) : Int := (s.ring (t / 32) : Int) - n

/-- Global time in ns. -/
def State.nowNs (s : State) : Int := (s.time.global.toNat / 16 : Nat)

/-- The number of the period whose epoch is in force at a time in 1/16 ns: ⌊(T − PHASE − DEADLINE) / PERIOD⌋ + 1
(R250). PHASE is a global time, in 1/16 ns. -/
def epochNo (p : JobParams) (t : Int) : Int :=
  (t - p.phase.toNat - 16 * (p.deadline : Int)) / (16 * (p.period : Int)) + 1

/-- Epoch of a job now (R250); 0 outside a period job (R153). -/
def State.epoch (s : State) (j : Job) : BitVec 8 :=
  if j.p.periodic then BitVec.ofInt 8 (epochNo j.p s.time.global.toNat) else 0

/-- Increment a tally; what would pass the maximum is lost and counted (R145, R527). -/
def State.addTally (s : State) (t tal n : Nat) : State :=
  let x := s.tile t
  let v := ((x.tallies.toArray[tal]?).getD 0).toNat
  let w := min (v + n) 0xFFFFFFFF
  let s := s.setTile t { x with tallies := x.tallies.setIfInBounds tal (BitVec.ofNat 32 w) }
  (s.bump .tileTallyAdded (t / 512) 0 (w - v)).bump .tileTallySaturated (t / 512) 0 (v + n - w)

/-- Set a tally outright; what it removes counts in `.reset` (R527). -/
def State.setTally (s : State) (t tal v : Nat) : State :=
  let x := s.tile t
  let old := (x.tallies.toArray[tal]?).getD 0
  let s := s.setTile t { x with tallies := x.tallies.setIfInBounds tal (BitVec.ofNat 32 v) }
  let k : CtrKey := ⟨.tileTallyReset, t / 512, 0, 0⟩
  if old.toNat = v then s else s.setCtr k (s.ctr k + BitVec.ofInt 64 (old.toNat - v))

/-- A tally arrival of a job: applied where the tile holds the job, or where a DONE or ENDED job's tile is held by no
other job; otherwise held with the job (R246). -/
def State.arrive (s : State) (j : BitVec 12) (t tal n : Nat) : State :=
  match s.job j with
  | none => s
  | some jb =>
    let x := s.tile t
    let mine := x.job == j && x.prepared
    if (jb.state == .running && mine) || ((jb.state == .done || jb.state == .ended) && !s.heldByOther j t)
    then s.addTally t tal n
    else s.modJob j fun b => { b with held := (t, tal, n) :: b.held }

/-! ## Freeze -/

/-- The LEVELs that are computed from the state (R523). -/
def State.level (s : State) (k : CtrKey) : Option (BitVec 64) :=
  match k.id with
  | .tileTallySum =>
    some (BitVec.ofNat 64 ((s.tiles.filter fun p => p.1 / 512 == k.i).map fun p => (p.2.tallies.toList.map BitVec.toNat).sum).sum)
  | .periodEpoch =>
    ((s.jobs.find? fun j => (j.period.map Period.slot) == some k.i).map fun j => (s.epoch j).setWidth 64)
  | .fabOrtLive => some (BitVec.ofNat 64 s.fab.ort.length)
  | .ppeDeadOutputs => some (BitVec.ofNat 64 s.ppe.dead.length)
  | .collEscGrantedBook => (s.coll.books.toArray[k.i]?).map fun b => BitVec.ofNat 64 b.granted
  | .collEscHeldBook => (s.coll.books.toArray[k.i]?).map fun b => BitVec.ofNat 64 b.held
  | .collEscRequestedBook => (s.coll.books.toArray[k.i]?).map fun b => BitVec.ofNat 64 b.requested
  | .fabPortLanePreFecBer => some (Config.preFecBer k.i k.j s.fresh)
  | .bootHbmNs => some (BitVec.ofNat 64 s.boot.hbmNs)
  | .bootSelftestNs => some (BitVec.ofNat 64 s.boot.selftestNs)
  | .bootCartridgeNs => some (if s.boot.linksT ≤ s.clock then BitVec.ofNat 64 s.boot.cartridgeNs else 0)
  | .bootEthernetNs => some (BitVec.ofNat 64 (s.boot.ethernetNs.getD 0))
  | .bootFabricNs => some (BitVec.ofNat 64 (s.boot.fabricNs.getD 0))
  | .bootTotalNs => some (BitVec.ofNat 64 s.boot.totalNs)
  | _ => none

/-- Value of a counter (R523). -/
def State.counter (s : State) (k : CtrKey) : BitVec 64 := (s.level k).getD (s.ctr k)

/-- The LEVEL keys that a snapshot captures beside the stored counters (R524). -/
def levelKeys : List CtrKey :=
  (List.range 6).map (fun d => ⟨.tileTallySum, d, 0, 0⟩) ++ (List.range 16).map (fun k => ⟨.periodEpoch, k, 0, 0⟩) ++
  (List.range 16).flatMap (fun k => [⟨.collEscGrantedBook, k, 0, 0⟩, ⟨.collEscHeldBook, k, 0, 0⟩, ⟨.collEscRequestedBook, k, 0, 0⟩]) ++
  [⟨.fabOrtLive, 0, 0, 0⟩, ⟨.ppeDeadOutputs, 0, 0, 0⟩] ++
  [⟨.bootHbmNs, 0, 0, 0⟩, ⟨.bootSelftestNs, 0, 0, 0⟩, ⟨.bootCartridgeNs, 0, 0, 0⟩, ⟨.bootEthernetNs, 0, 0, 0⟩,
   ⟨.bootFabricNs, 0, 0, 0⟩, ⟨.bootTotalNs, 0, 0, 0⟩]

/-- Take a snapshot (R524); gauges are not captured. -/
def State.takeSnapshot (s : State) : State :=
  let s := s.bump .dbgSnapshots
  { s with dbg := { s.dbg with
    snapshot := some ⟨s.dbg.nextSnapshot, s.now,
      (s.counters.filter fun p => p.1.id.kind != 3) ++ (levelKeys.map fun k => (k, s.counter k)),
      s.hbm.toList.map fun k => (k.errorLog, k.failedRows)⟩
    nextSnapshot := s.dbg.nextSnapshot + 1 } }

/-- Flush the write-combining buffers of every stack (R206, R212). -/
def State.flushAll (s : State) : State :=
  (List.finRange 24).foldl (fun s m => s.flushWhere m (fun _ => true) .memWcbFlushFence) s

/-- Change a port. -/
def State.modPort (s : State) (p : PortIx) (f : Port → Port) : State := { s with ports := s.ports.set p (f s.ports[p]) }

/-- A usable port (R311). -/
def Port.usable (x : Port) : Bool := x.state == .active || x.state == .degraded

/-- A port that has passed step FEC of training (R433, R507). -/
def Port.pastFec (x : Port) : Bool :=
  x.usable || x.state == .held || (x.state == .training && x.step ≥ 7)

/-- Hand a flit with its tag to the link of a port: it goes with the next frame (R294, R333). -/
def State.handOver (s : State) (p : PortIx) (tag : BitVec 6) (f : BitVec 256) : State :=
  s.modPort p fun x => { x with retry := x.retry ++ [(tag, f)], txFsn := x.txFsn + 1 }

/-- Send a link-control flit: its tag is VC index 15 with HEAD and TAIL (R295, R296). -/
def State.sendControl (s : State) (p : PortIx) (f : BitVec 256) : State := (s.handOver p 0x3F f).emit (.linkControl p f)

/-- The FREEZE link-control flit (R508). -/
def freezeBytes (f : FreezeFlit) : List Byte :=
  leBytes 2 f.originFid.toNat ++ leBytes 4 f.originNo.toNat ++ leBytes 8 f.originT.toNat ++ [f.cause, f.hops] ++ leBytes 4 f.tag.toNat ++
  leBytes 4 0

/-- Send a FREEZE flit on a port past FEC, where the link runs MFP 1.1 or later and `go` holds (R354, R507). -/
def State.sendFreezeFlit (s : State) (p : PortIx) (f : FreezeFlit) (go : Bool) : State :=
  if !s.ports[p].pastFec then s
  else if go && s.ports[p].rev.toNat ≥ 0x11 then s.sendControl p (lcFlit 3 (freezeBytes f))
  else s.bump .fabPortFreezeNotSent p.val

/-- Tell the neighbours of a freeze (R507, R508): its own flit on every port, or a peer's flit on the other ports while it
has hops left. -/
def State.spreadFreeze (s : State) (c : FreezeCause) (tag : BitVec 32) (no : BitVec 32) (origin : Option (PortIx × FreezeFlit)) : State :=
  match origin with
  | none =>
    let f : FreezeFlit := ⟨s.fid.getD 0xFFFF, no, s.now, BitVec.ofNat 8 (freezeCode c), BitVec.ofNat 8 s.dbg.propagate, tag⟩
    (List.finRange 16).foldl (fun s p => s.sendFreezeFlit p f (s.dbg.propagate > 0)) s
  | some (q, f) =>
    if f.hops.toNat ≤ 1 then s else
    (List.finRange 16).foldl (fun s p => if p = q then s else s.sendFreezeFlit p { f with hops := f.hops - 1 } true) s

/-- The freeze root takes a cause (R503, R504, R507, R509, R514): a frozen module ignores it. -/
def State.freeze (s : State) (c : FreezeCause) (tag : BitVec 32) (origin : Option (PortIx × FreezeFlit) := none) : State :=
  if s.dbg.frozen then s.bump .dbgFreezeIgnored else
  let s := (s.bump .dbgFreezes (freezeCode c)).setFlag .freezeOccurred 0 0
  let s := { s with
    board := { s.board with freezeOutLow := true }
    ppe := { s.ppe with mesh := s.ppe.mesh.map fun (b : Batch) => { b with seen := b.seen.or (some (s.ppe.state == PpeState.ready && !s.ppe.needDrift)) } }
    dbg := { s.dbg with
      frozen := true, number := s.dbg.freezeNo, freezeNo := s.dbg.freezeNo + 1, cause := c, tag := tag
      freezeT := s.now, preReady := !s.boot.ready
      scanDone := false, inFlight := []
      originFid := (origin.map fun (x : PortIx × FreezeFlit) => x.2.originFid).getD (s.fid.getD 0xFFFF) } }
  let s := s.spreadFreeze c tag s.dbg.number origin
  let s := (s.flushAll).takeSnapshot
  let s := s.event .freeze {} (leBytes 4 tag.toNat ++ leBytes 1 (freezeCode c))
  if s.boot.ready && s.dbg.dump.isNone then s.bump .dbgScanoutSkipped else s

/-! ## Fault records -/

/-- What a record takes from the access that faulted (R225). -/
def Suspend.record (f : Suspend) (r : FaultRec) : FaultRec :=
  { r with
    flags := r.flags ||| (if f.write then 4 else 0) ||| (if f.remote then 8 else 0) ||| (if f.malformed then 0x20 else 0)
    level := f.level, addr := f.addr, phys := f.phys, peer := f.peer, peerJob := f.peerJob }

/-- The 128 bytes of a fault record (R225). -/
def FaultRec.bytes (f : FaultRec) : List Byte :=
  leBytes 2 f.status.code.toNat ++ leBytes 1 f.unit ++ leBytes 1 f.flags.toNat ++ leBytes 2 f.job.toNat ++ leBytes 1 f.quad ++
  leBytes 1 f.level ++ leBytes 2 f.tile.toNat ++ leBytes 2 f.pc ++ leBytes 4 f.seq.toNat ++ leBytes 8 f.addr ++ leBytes 8 f.phys ++
  leBytes 8 f.done ++ leBytes 8 f.nextSrc ++ leBytes 8 f.nextDst ++ leBytes 8 f.time.toNat ++ leBytes 8 f.step ++
  leBytes 2 f.peer.toNat ++ leBytes 2 f.peerJob.toNat ++ leBytes 4 0 ++ leBytes 32 f.sent.toNat ++ leBytes 16 0

/-- The classes of fault to which a job's fault policy applies (R224, R227). -/
def Status.isFault (st : Status) : Bool := st == .notMapped || st == .permission || st == .poison

/-- The bit of the fault mask that a record's class has (R506). -/
def FaultRec.maskBit (r : FaultRec) : Option Nat :=
  if r.flags.getLsbD 3 then some 6
  else if r.status = .collTimeout then some 7
  else if r.status = .transportTimeout then some 5
  else if r.unit = 1 && [Status.stationaryParity, .poison, .accUncorrectable, .handshakeTimeout, .ledgerOverflow].contains r.status
  then some 3
  else if r.status = .notMapped then some 0
  else if r.status = .permission then some 1
  else if r.status = .poison then some 2
  else if r.unit = 0 || r.unit = 1 then some 4
  else none

/-- Write a fault record (R224 to R226): count its class, enter it in the module fault queue, post FAULT, keep it with a
suspended move, and start a FAULT freeze where the mask selects it (R503, R506). -/
def State.fault (s : State) (r : FaultRec) : State :=
  let r := { r with seq := s.faultSeq, time := s.now }
  let s := { s with faultSeq := s.faultSeq + 1 }
  let s := match r.status with
    | .notMapped => s.bump .faultNotMapped
    | .permission => s.bump .faultPermission
    | .poison => s.bump .faultPoison
    | _ => s
  let s := if r.mv.isSome then { s with moveFaults := s.moveFaults ++ [r] } else s
  let s :=
    if s.faultQ.length ≥ 1024 then
      ({ s with faultLost := true }.bump .faultQueueDropped).setFlag .faultQueueOverflow 0 0
    else
      let r := if s.faultLost then { r with flags := r.flags ||| 0x40 } else r
      { s with faultQ := s.faultQ ++ [r], faultLost := false }.event .fault {} (leBytes 4 r.seq.toNat ++ leBytes 2 r.status.code.toNat)
  match r.maskBit with
  | some b => if s.dbg.faultMask.getLsbD b then s.freeze .fault r.seq else s
  | none => s

/-! ## Translation (R215 to R220) -/

/-- How a walk ends: a leaf, or a fault at a level. -/
inductive Walk where
  | leaf (size phys : Nat) (r w : Bool) (level : Nat)
  | fault (level : Nat) (poison malformed : Bool) (phys : Nat)
  deriving DecidableEq, Repr

/-- An ADDR lies in a stack range or the aperture (R198, R218). -/
def inMap (a : Nat) : Bool := (stackOf a).isSome || (tileOf a).isSome

/-- Classify an entry at a level (R217, R218): its leaf or table pointer; none when invalid, with the malformed mark. -/
def entryKind (level e : Nat) : Option (Bool × Nat) × Bool :=
  let v := e % 2
  let leaf := e / 2 % 2 = 1
  let rw := e / 4 % 4
  let addr := e / 2 ^ 16 % 2 ^ 34 * 256
  let align := if leaf then (if level = 1 then 2 ^ 30 else if level = 2 then 2 ^ 21 else 2 ^ 16)
    else if level = 1 then 2 ^ 12 else 2 ^ 8
  if v = 0 then (none, false)
  else if e / 2 ^ 50 ≠ 0 || e / 16 % 2 ^ 12 ≠ 0 || (level = 3 && !leaf) || addr % align ≠ 0 || !inMap addr ||
    (leaf && rw = 0) then (none, true)
  else (some (leaf, addr), false)

/-- Log2 of the page size at a level (R215). -/
def levelBits (level : Nat) : Nat := if level = 1 then 30 else if level = 2 then 21 else 16

/-- A read of this physical address finds poison: its line is poisoned or uncorrectable, its word is poisoned, or its
pseudo-channel has failed (R207, R209, R550). -/
def State.badLine (s : State) (a : Nat) : Bool :=
  match stackOf a with
  | some m => s.poison.contains (a / 64) || s.pcFailed m (a / 64) || s.lineErrs m (a / 64) ≥ 3
  | none => s.poisonWords.contains (a / 8)

/-- Walk the job map from a table at a level (R215, R218 to R220): the state after the reads, the result, the table pointers
met, and how many entries were read. -/
def State.walkFrom (s : State) (j : BitVec 12) (v : Nat) : Nat → Nat → Nat → List WalkEntry → Nat → State × Walk × List WalkEntry × Nat
  | 0, level, _, ps, n => (s, .fault level false false 0, ps, n)
  | f + 1, level, table, ps, n =>
    let ix := if level = 1 then v / 2 ^ 30 else if level = 2 then v / 2 ^ 21 % 512 else v / 2 ^ 16 % 32
    let a := table + 8 * ix
    match s.checkRead a 8 with
    | (s, some phys) => (s, .fault level true false phys, ps, n + 1)
    | (s, none) =>
      let e := leNat (s.readPhys a 8)
      match entryKind level e with
      | (none, mal) => (s, .fault level false mal 0, ps, n + 1)
      | (some (leaf, addr), _) =>
        if leaf then (s, .leaf (levelBits level) addr (e / 4 % 2 = 1) (e / 8 % 2 = 1) level, ps, n + 1)
        else s.walkFrom j v f (level + 1) addr (ps ++ [⟨j, level, v / 2 ^ levelBits level, addr⟩]) (n + 1)

/-- The walk of a job address with the walk cache of a unit (R219, R220). -/
def State.walk (s : State) (u : WalkUnit) (j : Job) (v : Nat) : State × Walk × List WalkEntry × Nat :=
  if v ≥ j.p.rootLen * 2 ^ 30 then (s, .fault 1 false false 0, [], 0) else
  match s.xlat[u].walks.find? fun e => e.job == j.id && e.level == 2 && e.index == v / 2 ^ 21 with
  | some e => s.walkFrom j.id v 1 3 e.table [] 0
  | none =>
    match s.xlat[u].walks.find? fun e => e.job == j.id && e.level == 1 && e.index == v / 2 ^ 30 with
    | some e => s.walkFrom j.id v 2 2 e.table [] 0
    | none => s.walkFrom j.id v 3 1 j.p.root [] 0

/-- Keep a cache within its size: the entry that the implementation replaces goes (R219). -/
def cacheAdd {α : Type} (n fresh : Nat) (x : α) (xs : List α) : List α :=
  if xs.length < n then x :: xs else x :: xs.eraseIdx (Config.replace fresh % n)

/-- Perform the walk of a miss: its reads of the tables, counters, caches (R207, R219, R220, R239). -/
def State.doWalk (s : State) (u : WalkUnit) (j : Job) (v : Nat) : State × Walk :=
  let (s, r, ps, n) := s.walk u j v
  let s := (s.bump .xlatWalks u.val).bump .xlatWalkReads u.val 0 n
  let x := s.xlat[u]
  let walks := ps.foldl (fun ws p => cacheAdd 512 s.fresh p ws) x.walks
  match r with
  | .leaf size phys rd wr level =>
    let c := cacheAdd 4096 s.fresh ⟨j.id, size, v / 2 ^ size, phys, rd, wr, level⟩ x.cache
    ({ s with xlat := s.xlat.set u { x with walks := walks, cache := c }, fresh := s.fresh + 1 }, r)
  | .fault _ _ mal _ =>
    let s := { s with xlat := s.xlat.set u { x with walks := walks }, fresh := s.fresh + 1 }
    (if mal then s.bump .xlatMalformed else s, r)

/-- What a translation answers: a physical address, or the fault that the access meets (R224, R225). -/
inductive Xl where
  | ok (phys : Nat)
  | bad (x : Suspend)
  deriving DecidableEq, Repr

/-- Check the permission of a leaf (R217, R224). -/
def permit (v phys size : Nat) (rd wr : Bool) (level : Nat) (write : Bool) : Xl :=
  if (write && !wr) || (!write && !rd) then .bad { status := .permission, addr := v, level := level, write := write }
  else .ok (phys + v % 2 ^ size)

/-- Translate a job address at a unit (R215, R219, R224). -/
def State.translate (s : State) (u : WalkUnit) (j : Job) (v : Nat) (write : Bool) : State × Xl :=
  match s.xlat[u].cache.find? fun e => e.job == j.id && e.page == v / 2 ^ e.size with
  | some e => (s.bump .xlatHits u.val, permit v e.phys e.size e.r e.w e.level write)
  | none =>
    let (s, r) := (s.bump .xlatMisses u.val).doWalk u j v
    match r with
    | .leaf size phys rd wr level => (s, permit v phys size rd wr level write)
    | .fault level psn mal phys =>
      let st : Status := if psn then .poison else .notMapped
      (s, .bad { status := st, addr := v, level := level, write := write, malformed := mal, phys := phys })

/-- The translation unit of a tile (R219). -/
def unitOfTile (t : Nat) : WalkUnit := if h : t / 512 < 7 then ⟨t / 512, h⟩ else 6

/-- Position of a compute die on the ring, clockwise from C0 (01, "The compute ring and non-uniform memory"). -/
def ringPos (d : Nat) : Nat := [0, 1, 2, 5, 4, 3].getD d 0

/-- The ring links from die a to die b for a physical address, and whether the path runs clockwise (R15). -/
def ringPath (a b addr : Nat) : List Nat × Bool :=
  let n := (ringPos b + 6 - ringPos a) % 6
  if n < 3 || (n = 3 && !addr.testBit 8) then ((List.range n).map fun i => (ringPos a + i) % 6, true)
  else ((List.range (6 - n)).map fun i => (ringPos a + 5 - i) % 6, false)

/-- The compute die that holds a physical address: the owner of its stack, or the die of its tile (R15, R198). -/
def dieOf (a : Nat) : Option Nat :=
  match stackOf a with
  | some m => some (m.val / 4)
  | none => (tileOf a).map fun t => t / 512

/-- Count the bytes that a tile of die d moves over the ring: written data along its path, read data along the reverse
(R15, R19). -/
def State.ringBytes (s : State) (d a n : Nat) (write : Bool) : State :=
  match dieOf a with
  | none => s
  | some e =>
    if e = d then s else
    (pieces 256 (n + 1) a n).foldl (fun s p =>
      let (links, cw) := ringPath d e p.1
      links.foldl (fun s l => s.bump .d2dBytes l (if cw == write then 0 else 1) p.2) s) s

/-- Read a job-address range, cut at 64 KiB pages: the bytes, or the first fault; nothing is read beyond it (R228). -/
def State.readJob (s : State) (u : WalkUnit) (j : Job) (v n : Nat) (ring : Bool := false) :
    State × Except Suspend (List Byte) :=
  (pieces 65536 (n + 1) v n).foldl (fun (acc : State × Except Suspend (List Byte)) p =>
    match acc.2 with
    | .error _ => acc
    | .ok bs =>
      let (s, x) := acc.1.translate u j p.1 false
      match x with
      | .bad f => (s, .error f)
      | .ok a =>
        let (s, bad) := s.checkRead a p.2
        match bad with
        | some phys => (s, .error { status := .poison, addr := p.1 + (phys - a), phys := phys })
        | none => (if ring then s.ringBytes u.val a p.2 false else s, .ok (bs ++ s.readPhys a p.2))) (s, .ok [])

/-- Translate every page of a write before anything is written: its physical pieces, or the first fault. -/
def State.mapWrite (s : State) (u : WalkUnit) (j : Job) (v n : Nat) : State × Except Suspend (List (Nat × Nat × Nat)) :=
  (pieces 65536 (n + 1) v n).foldl (fun (acc : State × Except Suspend (List (Nat × Nat × Nat))) p =>
    match acc.2 with
    | .error _ => acc
    | .ok ps =>
      let (s, x) := acc.1.translate u j p.1 true
      match x with
      | .bad f => (s, .error f)
      | .ok a => (s, .ok (ps ++ [(a, p.1 - v, p.2)]))) (s, .ok [])

/-- Write a job-address range: whole, or not at all with the first fault. -/
def State.writeJob (s : State) (u : WalkUnit) (j : Job) (v : Nat) (bs : List Byte) (bad : Bool := false)
    (ring : Bool := false) : State × Option Suspend :=
  let (s, r) := s.mapWrite u j v bs.length
  match r with
  | .error f => (s, some f)
  | .ok ps => (ps.foldl (fun s p =>
      let s := s.writePhys p.1 ((bs.drop p.2.1).take p.2.2) bad
      if ring then s.ringBytes u.val p.1 p.2.2 true else s) s, none)

/-- What a job-address range holds is open from here on, where it translates: free bytes stand in it (log 2). Nothing is
counted, because no unit writes. -/
def State.blurJob (s : State) (u : WalkUnit) (j : Job) (v n : Nat) : State :=
  match (s.mapWrite u j v n).2 with
  | .error _ => s
  | .ok ps =>
    let (bs, s) := s.freeBytes n
    { s with mem := ps.foldl (fun m p => Memory.writeN m p.1 ((bs.drop p.2.1).take p.2.2)) s.mem }

end Sys2Proof.Machine
end

