-- ==== Sys2Proof/Machine/Messages.lean ====
section
/-! DEFINITION. Messages that the hub originates: identity, the endpoint's input of the router, LOW_MARK, and the
ESCROW messages with the escrow books (R262, R263, R281, R397 to R403). -/

namespace Sys2Proof.Machine

/-- Change the fabric. -/
def State.modFab (s : State) (f : Fabric → Fabric) : State := { s with fab := f s.fab }

/-- The oldest live SEQ, or the next one (R276). -/
def State.low (s : State) : BitVec 24 := (s.fab.ort.head?.map Ort.seq).getD s.fab.nextSeq

/-- Place a packet at the endpoint's input of the router (R309). -/
def State.inject (s : State) (p : Pkt) (avoid : Option PortIx := none) (only : Option PortIx := none) : State :=
  s.modFab fun f => { f with inject := f.inject ++ [{ pkt := p, arrived := s.time.work, avoid := avoid, only := only }] }

/-- Send a message of the RSP class or one that the hub originates (R263, R279, R299). -/
def State.message (s : State) (dst : BitVec 16) (ty cls : Nat) (tb : Nat) (bs : List Byte) (seq : Nat := 0) (ce : Bool := false)
    (len : Option Nat := none) (only : Option PortIx := none) : State :=
  s.inject (p := mkPkt { dst := dst, src := s.fid.getD 0xFFFF, ty := ty, cls := cls, len := len.getD bs.length, ce := ce, seq := seq, tb := tb } bs) (only := only)

/-- Send LOW_MARK to a destination and keep its time (R281). -/
def State.sendLow (s : State) (dst : BitVec 16) : State :=
  ((s.message dst 7 1 s.low.toNat []).bump .fabLowMarks).modFab fun f => { f with
    lowTimes := (dst, s.time.work) :: f.lowTimes.filter fun x => x.1 != dst }

/-- 2 µs have passed since the last LOW_MARK to a destination (R281). -/
def State.lowFree (s : State) (dst : BitVec 16) : Bool :=
  s.fab.lowTimes.all fun x => x.1 != dst || decide (x.2 + 2000 ≤ s.time.work)

/-! ## Escrow and contexts -/

/-- Change the collective engine. -/
def State.modColl (s : State) (f : Coll → Coll) : State := { s with coll := f s.coll }

/-- A group by its ID. -/
def State.group (s : State) (g : BitVec 16) : Option Group := s.coll.groups.find? fun x => x.id == g

/-- A context by group and sequence (R387). -/
def State.ctx (s : State) (g : BitVec 16) (q : BitVec 32) : Option Ctx := s.coll.ctxs.find? fun x => x.group == g && x.seq == q

/-- Change a context. -/
def State.modCtx (s : State) (g : BitVec 16) (q : BitVec 32) (f : Ctx → Ctx) : State :=
  s.modColl fun c => { c with ctxs := mapIf (fun x => x.group == g && x.seq == q) f c.ctxs }

/-- Fields of an ESCROW transport block (R397). -/
structure EscMsg where
  eop : Nat
  rank : Nat := 0
  nmemb : Nat := 0
  round : Nat := 0
  slots : Nat := 0
  offset : Nat := 0
  rop : Nat := 0
  ord : Bool := false
  deriving DecidableEq, Repr

/-- Send an ESCROW message to the switch at the far end of a port (R397). -/
def State.escSend (s : State) (p : PortIx) (key : EscrowKey) (m : EscMsg) (bs : List Byte) : State :=
  let tb := (if m.ord then 2 else 0) + m.rop * 2 ^ 2 + m.offset * 2 ^ 4 + m.slots * 2 ^ 16 + m.round * 2 ^ 24 + m.nmemb * 2 ^ 32 +
    m.rank * 2 ^ 48 + key.seq.toNat * 2 ^ 64 + key.group.toNat * 2 ^ 96 + m.eop * 2 ^ 112 + key.job.toNat * 2 ^ 116
  s.message 0xFFFF 10 2 tb bs 0 false none (some p)

/-- Change the escrow book of a port. -/
def State.modBook (s : State) (p : PortIx) (f : EscBook → EscBook) : State :=
  s.modColl fun c => { c with books := c.books.set p (f c.books[p]) }

/-- The key of a context (R398). -/
def Ctx.key (c : Ctx) : EscrowKey := ⟨c.job, c.group, c.seq⟩

/-- Send RELEASE for the grant that a share holds (R399, R403). -/
def State.escRelease (s : State) (c : Ctx) (x : Share) : State :=
  if !x.held then s else
  let s := s.escSend x.port c.key { eop := 6 } []
  let s := s.modBook x.port fun b => { b with
    held := b.held - x.slots, requested := b.requested + x.slots, releasing := b.releasing ++ [(c.key, x.slots)] }
  s.modCtx c.group c.seq fun c => { c with shares := mapIf (fun y => y.port == x.port) (fun y => { y with held := false }) c.shares }

/-- Slots granted for a key that no live share holds: they are counted, and released at once (R398, R403). -/
def State.strayGrant (s : State) (p : PortIx) (key : EscrowKey) (slots : Nat) (ordered : Bool) : State :=
  let s := s.bump .collEscGrants
  let s := if ordered then s else s.bump .collEscUnordered
  (s.escSend p key { eop := 6 } []).modBook p fun b => { b with
    granted := b.granted + slots, requested := b.requested + slots, releasing := b.releasing ++ [(key, slots)] }

/-- Discard a context: its grants are released (R404). -/
def State.dropCtx (s : State) (c : Ctx) : State :=
  (c.shares.foldl (fun s x => s.escRelease c x) s).modColl fun k => { k with
    ctxs := k.ctxs.filter fun x => !(x.group == c.group && x.seq == c.seq) }

/-- Discard the contexts of a job (R404). -/
def State.dropJobCtxs (s : State) (j : BitVec 12) : State :=
  (s.coll.ctxs.filter fun c => c.job == j).foldl (fun s c => s.dropCtx c) s

end Sys2Proof.Machine
end

