-- ==== Sys2Proof/Machine/PassEval.lean ====
section
/-! DEFINITION. The array's passes: what a PASS or a quadrant of a PASS_SPLIT names, the checks at start, the evaluation
of an attempt, what it counts, and its commit (R44 to R58, R101 to R122, R154 to R157). -/

namespace Sys2Proof.Machine

/-! ## Accumulator rows -/

/-- A row address (R101). -/
def Tile.accRow (x : Tile) (a : Nat) : AccRow := ((x.acc.find? fun p => p.1 == a).map Prod.snd).getD {}

/-- Insert a row by rising address; a row of zeros with reset metadata is not listed. -/
def insertRow (a : Nat) (r : AccRow) : List (Nat × AccRow) → List (Nat × AccRow)
  | [] => if r = {} then [] else [(a, r)]
  | p :: ps =>
    if p.1 = a then (if r = {} then ps else (a, r) :: ps)
    else if a < p.1 then (if r = {} then p :: ps else (a, r) :: p :: ps)
    else p :: insertRow a r ps

/-- Write a row address. -/
def Tile.setAccRow (x : Tile) (a : Nat) (r : AccRow) : Tile := { x with acc := insertRow a r x.acc }

/-- Metadata byte of a column half (R103). -/
def AccRow.meta (r : AccRow) (h : Nat) : Nat := if h = 0 then r.meta0.toNat else r.meta1.toNat

/-- Write the metadata byte of a column half. -/
def AccRow.setMeta (r : AccRow) (h v : Nat) : AccRow :=
  if h = 0 then { r with meta0 := BitVec.ofNat 8 v } else { r with meta1 := BitVec.ofNat 8 v }

namespace Meta
/-- POISON, ZERO, KIND, ROWSCALE (R103). -/
def poison (m : Nat) : Bool := m / 128 % 2 = 1
def zero (m : Nat) : Bool := m / 64 % 2 = 1
def kind (m : Nat) : Nat := m / 16 % 4
def rowScale (m : Nat) : Nat := m / 8 % 2
end Meta

/-- A word of a row address as a number. -/
def AccRow.word (r : AccRow) (c : Nat) : Nat := (r.words.getD c 0).toNat

/-! ## What a pass names -/

/-- A queued move. -/
def Tile.move (x : Tile) (id : Nat) : Option QMove := x.queue.find? fun m => m.id == id

/-- The king's direction and rook of a castled pair (R62). -/
def Tile.pair (x : Tile) : Option (Bool × Nat) := match x.castle with | .king south r => some (south, r) | _ => none

/-- The pair as the moves decoded so far will leave it (R64). -/
def Tile.pairView (x : Tile) (t : Nat) : Option (Bool × Nat) :=
  (x.queue.filter fun m => m.state != .done).foldl (fun c m =>
    if Hdr.op m.w = 0x25 then some (bit m.w 32, if bit m.w 32 then t + 32 else t + 1)
    else if Hdr.op m.w = 0x26 then none else c) x.pair

/-- One array or quadrant pass by its fields. -/
structure PassSpec where
  shape : Nat
  south : Bool
  tile : Nat
  rook : Nat
  fmtT : Fmt
  fmtS : Fmt
  blkT : Nat
  blkS : Nat
  mode : AccMode
  r2 : Nat
  sr : Bool
  ceil : Nat
  rows : Nat
  len : Nat
  base : Nat
  ovw : Bool
  src : Nat
  stride : Nat
  scl : Nat
  /-- Ring size; none for a linear source. -/
  ring : Option Nat := none
  deriving DecidableEq, Repr

namespace PassSpec

/-- K and N of the shape (R44). -/
def k (p : PassSpec) : Nat := shapeK p.shape p.south
def n (p : PassSpec) : Nat := shapeN p.shape p.south

/-- Bytes of a streamed row, and the distance between rows (R155). -/
def rowBytes (p : PassSpec) : Nat := p.fmtS.bytes p.k
def step (p : PassSpec) : Nat := if p.stride = 0 then p.rowBytes else p.stride

/-- Where row j of the range and result half h lie: tile, row addresses, column half (R57, R66, R102). -/
def place (p : PassSpec) (j h : Nat) : Nat × List Nat × Nat :=
  let r := p.base + j
  let cap := if p.mode = .ax then 512 else 2048
  let addrs (r : Nat) := if p.mode = .ax then [4 * r, 4 * r + 1, 4 * r + 2, 4 * r + 3] else [r]
  if p.shape < 4 then (p.tile, addrs r, p.shape % 2)
  else if p.shape = 5 && p.south then (if r < cap then p.tile else p.rook, addrs (r % cap), h)
  else if h ≥ 2 then (p.rook, addrs r, h - 2)
  else (p.tile, addrs r, h)

/-- Columns of half h that the pass writes: those below the valid-column count (R53, R55). -/
def cols (p : PassSpec) (nv h : Nat) : List Nat := (List.range (min 16 (p.n - 16 * h))).filter fun c => 16 * h + c < nv

/-- Rows that the pass writes (R104). -/
def written (p : PassSpec) : Nat := min p.rows p.len

/-- The granules of a ring that hold bytes of its rows, in order (R156). -/
def granules (p : PassSpec) : List Nat :=
  if p.step ≤ 256 then List.range (ceilDiv ((p.rows - 1) * p.step + p.rowBytes) 256)
  else (List.range p.rows).flatMap (fun i =>
    (List.range ((i * p.step + p.rowBytes - 1) / 256 - i * p.step / 256 + 1)).map fun g => i * p.step / 256 + g)
    |>.eraseDups

end PassSpec

/-- The codes of MODE (R155) for a pass that passed its checks. -/
def passRate (w : MoveWord) : Option (Fmt × Fmt × Nat × AccMode) :=
  match Fmt.ofCode (fld w 38 35), Fmt.ofCode (fld w 42 39) with
  | some ft, some fs => (rate2 ft fs (fld w 48 47)).map fun r => (ft, fs, r.1, r.2)
  | _, _ => none

/-- The pass of a decoded PASS (R155). -/
def passSpec (t : Nat) (x : Tile) (m : QMove) : Option PassSpec :=
  let w := m.w
  (passRate w).map fun (ft, fs, r2, mode) =>
    { shape := fld w 34 32, south := (x.pair.map Prod.fst).getD false, tile := t, rook := (x.pair.map Prod.snd).getD t
      fmtT := ft, fmtS := fs, blkT := fld w 44 43, blkS := fld w 46 45, mode := mode, r2 := r2, sr := bit w 49
      ceil := fld w 187 180, rows := fld w 113 97, len := fld w 96 84, base := fld w 83 72, ovw := bit w 50
      src := (sramRef w 130).addr m.regs, stride := fld w 129 114, scl := (sramRef w 155).addr m.regs
      ring := if bit w 51 then some (2 ^ (fld w 55 52 + 12)) else none }

/-- Bits of a quadrant record of a split descriptor (R157). -/
def recFld (desc : List Byte) (q hi lo : Nat) : Nat := leNat ((desc.drop (32 * q)).take 32) / 2 ^ lo % 2 ^ (hi + 1 - lo)

/-- A quadrant idles (R157). -/
def quadIdle (desc : List Byte) (q : Nat) : Bool :=
  recFld desc q 48 32 = 0 || recFld desc q 6 0 = 0 || recFld desc q 13 7 = 0 || recFld desc q 88 76 = 0

/-- The pass of quadrant q of a decoded PASS_SPLIT (R157). -/
def splitSpec (t : Nat) (m : QMove) (q : Nat) : Option PassSpec :=
  let w := m.w
  let f := recFld m.desc q
  (passRate w).map fun (ft, fs, r2, mode) =>
    { shape := q, south := false, tile := t, rook := t, fmtT := ft, fmtS := fs, blkT := fld w 44 43, blkS := fld w 46 45
      mode := mode, r2 := r2, sr := bit w 49, ceil := fld w 187 180, rows := f 48 32, len := f 88 76, base := f 75 64
      ovw := f 14 14 = 1, src := f 155 136, stride := f 191 176, scl := f 175 156 }

/-- The pass of a run (R156, R157). -/
def runSpec (t : Nat) (x : Tile) (r : Run) : Option (QMove × PassSpec) :=
  (x.move r.id).bind fun m =>
    match r.quad with
    | some q => (splitSpec t m q.val).map fun p => (m, p)
    | none => (passSpec t x m).map fun p => (m, p)

/-- The stationary operand of a shape (R154). -/
def Cells.load (c : Cells) (shape : Nat) : Option Load :=
  match c with
  | .quads q => if shape < 4 then (q.toArray[shape]?).getD none else none
  | .full l => if shape = 4 then some l else none
  | .pair l => if shape = 5 then some l else none

/-- Put an operand, or nothing, into the cells of a shape (R154, R549). -/
def Cells.put (c : Cells) (shape : Nat) (l : Option Load) : Cells :=
  if shape < 4 then
    match c with
    | .quads q => .quads (q.setIfInBounds shape l)
    | _ => .quads ((Vector.replicate 4 none).setIfInBounds shape l)
  else match l with
    | none => .quads (Vector.replicate 4 none)
    | some l => if shape = 4 then .full l else .pair l

/-! ## The stationary load (R53, R154, R549) -/

/-- The first poisoned word among the bytes that a load reads. -/
def State.loadPoison (s : State) (t src step scl : Nat) (f : Fmt) (blk kk kv nv : Nat) : Option Nat :=
  if s.poisonWords.isEmpty then none else
  let a := (List.range kv).findSome? fun k => s.sramPoison t (src + k * step) (f.bytes nv)
  let per := kk / blockSize blk
  let b := if blk = 0 then none
    else (List.range nv).findSome? fun n => s.sramPoison t (scl + n * per) (ceilDiv kv (blockSize blk))
  a.or b

/-- The operand that a load reads (R154). -/
def State.readLoad (s : State) (t src stride scl : Nat) (f : Fmt) (blk kk nn kv nv : Nat) : Load :=
  let step := if stride = 0 then f.bytes nn else stride
  let per := if blk = 0 then 0 else kk / blockSize blk
  { fmt := f, blk := blk, kv := kv, nv := nv
    elems := (List.range kv).map fun k =>
      let bs := s.sram t (src + k * step) (f.bytes nv)
      (List.range nv).map fun n => eltAt bs f.width n
    scales := if blk = 0 then [] else (List.range nv).map fun n =>
      (s.sram t (scl + n * per) (ceilDiv kv (blockSize blk))).map BitVec.toNat }

/-- Counters of a load: T2 codes 0b10 and blocks with scale 0xFF (R82, R87). -/
def State.countLoad (s : State) (t : Nat) (l : Load) : State :=
  let bad := if l.fmt = .t2 then (l.elems.flatten.filter (· == 2)).length else 0
  let nan := (l.scales.flatten.filter (· == 255)).length
  (s.bump .tileT2InvalidCode (t / 512) 0 bad).bump .tileBlockNanScale (t / 512) 0 nan

/-! ## Checks at start (R107, R551) -/

/-- KIND and ROWSCALE that an attempt commits (R106, R115, R116). -/
def commitKind (mode : AccMode) (attempt : Nat) (escalated : Bool) : Nat × Nat :=
  match mode with
  | .a32 => (0, 0)
  | .int32 => (2, 0)
  | .ax => (3, 0)
  | .a16 => if escalated || attempt ≥ 3 then (0, 0) else if attempt = 2 then (1, 1) else (1, 0)

/-- A change of KIND and ROWSCALE that unwritten columns can follow (R551). -/
def canReencode (m : Nat) (target : Nat × Nat) : Bool :=
  Meta.zero m || (Meta.kind m == target.1 && (target.1 != 1 || Meta.rowScale m == target.2)) ||
  (Meta.kind m == 1 && target.1 == 0) || (Meta.kind m == 1 && target.1 == 1 && target.2 == 1)

/-- A pass mode may add into a half-row of this KIND (R107). -/
def mayAdd (mode : AccMode) (kind : Nat) : Bool :=
  match mode with
  | .a32 | .a16 => kind == 0 || kind == 1
  | .int32 => kind == 2
  | .ax => kind == 3

/-- Half-rows of a pass's range and columns by ascending row address: row of the range, half, metadata, columns written
(R103, R548). A row of the ledger has four row addresses, each with metadata of its own (R102). -/
def State.halfRows (s : State) (p : PassSpec) (nv : Nat) : List (Nat × Nat × Nat × List Nat) :=
  (List.range p.len).flatMap fun j => (List.range (if p.mode = .ax then 4 else 1)).flatMap fun w =>
    (List.range (p.n / 16)).filterMap fun h =>
      let cs := p.cols nv h
      if cs.isEmpty then none else
      let (t, addrs, half) := p.place j h
      some (j, h, ((s.tile t).accRow (addrs.getD w 0)).meta half, cs)

/-- How a pass starts: escalated to A32, and its first attempt (R116, R117). -/
def State.startsAs (s : State) (p : PassSpec) (nv : Nat) : Bool × Nat :=
  if p.mode ≠ .a16 || p.ovw then (false, 1) else
  let ms := ((s.halfRows p nv).map fun x => x.2.2.1).filter fun m => !Meta.zero m
  if ms.any fun m => Meta.kind m == 0 then (true, 1)
  else if ms.any fun m => Meta.kind m == 1 && Meta.rowScale m == 1 then (false, 2)
  else (false, 1)

/-- The refusal of a pass at start, if any (R107, R155, R551). -/
def State.startCheck (s : State) (p : PassSpec) (nv : Nat) : Option Status :=
  let (esc, att) := s.startsAs p nv
  let target := commitKind p.mode att esc
  (s.halfRows p nv).findSome? fun (j, _, m, cs) =>
    if !p.ovw && Meta.poison m then some .accPoisoned
    else if !p.ovw && !Meta.zero m && !mayAdd p.mode (Meta.kind m) then some .accKindMismatch
    else if j < p.written && cs.length < 16 && !canReencode m target then some .accKindMismatch
    else none

/-! ## Attempts (R104 to R122) -/

/-- The value of an FP16 word under its row scale (R101). -/
def fp16Word (w rs : Nat) : Val := (Fmt.fp16.decode (w % 65536)).scale (8 * rs)

/-- The AX96 code of a column of a ledger row from its four row addresses: the quarter of one that is ZERO reads 0
(R102, R103). -/
def ledgerCode (rows : List AccRow) (half c : Nat) : Nat :=
  (rows.zipIdx.map fun (r, i) => if Meta.zero (r.meta half) then 0 else r.word (16 * half + c) * 2 ^ (32 * i)).sum

/-- The element that a pass finds in a column of a half-row at its first contribution, and whether the read rounded
(R107, R116). -/
def readElem (rows : List AccRow) (half c : Nat) (p : PassSpec) (arith : AccMode) (prescale : Bool) : Elem × Bool :=
  let r := rows.headD {}
  let m := r.meta half
  if p.ovw || (rows.all fun r => Meta.zero (r.meta half)) then (.zero, false) else
  let w := r.word (16 * half + c)
  match p.mode with
  | .int32 => (.i (signed 32 w), false)
  | .ax => (.ax (Ax.ofCode (ledgerCode rows half c)), false)
  | _ =>
    if Meta.kind m = 0 then (.f (Fmt.fp32.decode w), false)
    else if arith = .a16 then
      if prescale && Meta.rowScale m = 0 then
        let v := (Fmt.fp16.decode (w % 65536)).scale (-8)
        let r := (Fmt.fp16.round .rne v).1
        (.f r, !(r.eq v) && v != .nan)
      else (.f (Fmt.fp16.decode (w % 65536)), false)
    else (.f (fp16Word w (Meta.rowScale m)), false)

/-- The attempt that a run makes (R115, R119, R122). -/
def attemptOf (p : PassSpec) (m : QMove) (r : Run) (l : Load) (seed : BitVec 64) : Attempt :=
  let arith : AccMode := if p.mode = .a16 && (r.escalated || r.attempt ≥ 3) then .a32 else p.mode
  { cfg := ⟨p.shape, p.south, l.kv, l.nv, p.fmtT, p.fmtS, p.blkT, p.blkS, p.mode, p.sr⟩
    load := l, arith := arith, prescale := p.mode == .a16 && !r.escalated && r.attempt == 2
    rows := p.rows, len := p.len, base := p.base, col0 := if p.shape = 1 || p.shape = 3 then 16 else 0
    ovw := p.ovw, seed := seed, tile := p.tile, passIx := m.passIx
    anchor := if p.mode = .ax then anchorOf p.fmtT p.fmtS l p.ceil + 32 * ((r.attempt : Int) - 1) else 0 }

/-- Bytes of a streamed row: from SRAM, or from the ring granules taken (R155, R156). -/
def State.rowAt (s : State) (p : PassSpec) (r : Run) (i : Nat) : List Byte :=
  match p.ring with
  | none => s.sram p.tile (p.src + i * p.step) p.rowBytes
  | some _ =>
    let o := i * p.step
    let g := (p.granules.idxOf (o / 256)) * 256 + o % 256
    (r.ringBytes.drop g).take p.rowBytes

/-- The streamed rows and their scales (R85, R155). -/
def State.stream (s : State) (p : PassSpec) (r : Run) : Stream := fun i =>
  let bs := s.rowAt p r i
  let per := if p.blkS = 0 then 0 else p.k / blockSize p.blkS
  ((List.range p.k).map fun k => eltAt bs p.fmtS.width k, (s.sram p.tile (p.scl + i * per) per).map BitVec.toNat)

/-- The first streamed row that reads a poisoned used word or scale, and where (R55, R59, R549). -/
def State.streamPoison (s : State) (p : PassSpec) (kv : Nat) : Option (Nat × Nat) :=
  if s.poisonWords.isEmpty then none else
  let per := if p.blkS = 0 then 0 else p.k / blockSize p.blkS
  (List.range p.rows).findSome? fun i =>
    ((if p.ring.isSome then none else s.sramPoison p.tile (p.src + i * p.step) (p.fmtS.bytes kv)).or
    (if p.blkS = 0 then none else s.sramPoison p.tile (p.scl + i * per) (ceilDiv kv (blockSize p.blkS)))).map fun a => (i, a)

/-- What an attempt came to in one half-row: row, half, columns with their outcome, whether a read rounded. -/
abbrev HalfOut := Nat × Nat × List (Nat × ElemOut × Bool)

/-- Evaluate an attempt (R104 to R122). -/
def State.evalPass (s : State) (p : PassSpec) (a : Attempt) (st : Stream) : List HalfOut :=
  (List.range p.written).flatMap fun j => (List.range (p.n / 16)).filterMap fun h =>
    let cs := p.cols a.load.nv h
    if cs.isEmpty then none else
    let (t, addrs, half) := p.place j h
    let rows := addrs.map (s.tile t).accRow
    some (j, h, cs.map fun c =>
      let (e, lost) := readElem rows half c p a.arith a.prescale
      (c, a.elem st j (16 * h + c) e, lost))

/-- The streamed row at which an attempt overflows (R115, R122). -/
def overflowRow (os : List HalfOut) : Option Nat :=
  os.foldl (fun a o => o.2.2.foldl (fun a e => minOpt a e.2.1.overflow) a) none

/-- A run with its move, its pass, its operand and its outcome. -/
structure Eval where
  m : QMove
  p : PassSpec
  l : Load
  a : Attempt
  st : Stream
  out : List HalfOut

/-- Streamed rows that an array can have read: all of a linear region; of a ring those whose granules it has taken (R47,
R156). -/
def Run.rowsRead (p : PassSpec) (r : Run) : Nat :=
  if p.ring.isNone || r.taken ≥ p.granules.length then p.rows else
  ((List.range p.rows).takeWhile fun i =>
    decide (p.granules.idxOf ((i * p.step + p.rowBytes - 1) / 256) < r.taken)).length

/-- Evaluate the first n streamed rows of a run, or all of them. -/
def State.evalRows (s : State) (t : Nat) (r : Run) (n : Option Nat := none) : Option Eval :=
  let x := s.tile t
  (runSpec t x r).bind fun (m, p) =>
  (r.load.or (x.cells.load p.shape)).map fun l =>
    let p := { p with rows := min p.rows (n.getD p.rows) }
    let a := attemptOf p m r l (((s.job x.job).map fun j => j.p.seed).getD 0)
    let st := s.stream p r
    ⟨m, p, l, a, st, s.evalPass p a st⟩

/-- Evaluate a run of a tile; none while a ring granule is missing (R47). -/
def State.evalRun (s : State) (t : Nat) (r : Run) : Option Eval :=
  (runSpec t (s.tile t) r).bind fun (_, p) =>
    if p.ring.isSome && r.taken < p.granules.length then none else s.evalRows t r

/-- Words of an element (R101, R102). -/
def Elem.word (e : Elem) (kind w : Nat) : BitVec 32 :=
  BitVec.ofNat 32 (match e with
    | .zero => 0
    | .f v => if kind = 1 then (Fmt.fp16.encode .rne false 0 v).1 else (Fmt.fp32.encode .rne false 0 v).1
    | .i z => (z % 2 ^ 32).toNat
    | .ax x => x.code / 2 ^ (32 * w) % 2 ^ 32)

/-- An unwritten column in the new KIND and ROWSCALE, and whether it was rounded (R551). -/
def reencode (w : BitVec 32) (m : Nat) (target : Nat × Nat) : BitVec 32 × Bool :=
  if Meta.zero m then (0, false)
  else if Meta.kind m = 1 && target.1 = 0 then
    (BitVec.ofNat 32 (Fmt.fp32.encode .rne false 0 (fp16Word w.toNat (Meta.rowScale m))).1, false)
  else if Meta.kind m = 1 && target.1 = 1 && target.2 = 1 && Meta.rowScale m = 0 then
    let v := (Fmt.fp16.decode (w.toNat % 65536)).scale (-8)
    let r := (Fmt.fp16.round .rne v).1
    (BitVec.ofNat 32 (Fmt.fp16.encode .rne false 0 r).1, !(r.eq v) && v != .nan)
  else (w, false)

/-- Row addresses of a commit or an attempt in which an FP16 value was rounded when read × 2^-8: those of columns that the
pass reads, and of columns that it leaves and re-encodes (R116, R130, R551). -/
def State.roundedRows (s : State) (p : PassSpec) (target : Option (Nat × Nat)) (os : List HalfOut) : List (Nat × Nat) :=
  (os.filterMap fun o =>
    let (t, addrs, half) := p.place o.1 o.2.1
    let old := (s.tile t).accRow (addrs.headD 0)
    let kept := match target with
      | none => false
      | some k => (List.range 16).any fun c =>
        !(o.2.2.any fun e => e.1 == c) && (reencode (old.words.getD (16 * half + c) 0) (old.meta half) k).2
    if kept || (o.2.2.any fun e => e.2.2) then some (t, addrs.headD 0) else none).eraseDups

/-- Commit one half-row (R106, R551). -/
def State.commitHalf (s : State) (p : PassSpec) (target : Nat × Nat) (o : HalfOut) : State :=
  let (t, addrs, half) := p.place o.1 o.2.1
  s.modTile t fun x => addrs.zipIdx.foldl (fun (x : Tile) (a, w) =>
    let r := x.accRow a
    let words := (List.range 32).map fun i =>
      if i / 16 ≠ half then r.words.getD i 0 else
      match o.2.2.find? fun e => e.1 == i % 16 with
      | some e => e.2.1.e.word target.1 w
      | none => (reencode (r.words.getD i 0) (r.meta half) target).1
    x.setAccRow a (({ r with words := words } : AccRow).setMeta half (target.1 * 16 + target.2 * 8))) x

/-- The scale codes of blocks of streamed rows that hold used elements (R87, R122). -/
def usedScales (p : PassSpec) (l : Load) (st : Stream) (rows : List Nat) : List Nat :=
  if p.blkS = 0 then [] else
  rows.flatMap fun i => (st i).2.take (ceilDiv l.kv (blockSize p.blkS))

/-- Count the scale blocks that an attempt reads for the first time: those of streamed rows lo to hi - 1 (R87, R122). -/
def State.countScales (s : State) (e : Eval) (lo hi : Nat) : State :=
  let d := e.p.tile / 512
  let cs := usedScales e.p e.l e.st ((List.range (hi - lo)).map (· + lo))
  let s := s.bump .tileBlockNanScale d 0 (cs.filter (· == 255)).length
  if e.p.mode = .ax then s.bump .tileLedgerCeilingExceeded d 0 (cs.filter fun c => c != 255 && c > e.p.ceil).length else s

/-- Invalid non-finite AX96 codes among the elements that an AX pass adds into (R95). -/
def State.invalidRead (s : State) (e : Eval) : Nat :=
  if e.p.mode ≠ .ax || e.p.ovw then 0 else
  (e.out.map fun o =>
    let (t, addrs, half) := e.p.place o.1 o.2.1
    let rows := addrs.map (s.tile t).accRow
    (o.2.2.filter fun x => ax96Invalid (ledgerCode rows half x.1)).length).sum

/-- What the rows of an attempt counted (R95, R111, R112, R116, R122); `target` is the KIND and ROWSCALE of its commit. -/
def State.countOut (s : State) (e : Eval) (target : Option (Nat × Nat) := none) : State :=
  let d := e.p.tile / 512
  let es := e.out.flatMap fun o => o.2.2.map fun x => x.2.1
  let rounded := (s.roundedRows e.p target e.out).length
  let invalid := s.invalidRead e
  let s := s.bump .tileAccA32Overflow d 0 (es.map ElemOut.a32ovf).sum
  let s := s.bump .tileLedgerDustEvents d 0 (es.map ElemOut.dustEvents).sum
  let s := s.bump .tileAccInt32Wrapped d 0 (e.out.filter fun o => o.2.2.any fun x => x.2.1.wrapped).length
  (s.bump .tileAccPrescaleRounded d 0 rounded).bump .tileCvtAx96Invalid d 0 invalid

/-! ## Steps of an attempt (R45, R46, R75, R115, R549) -/

/-- Twice the rate at which an attempt streams: the third attempt of A16, and an escalated pass, run at the rate of A32
(R115, R117). -/
def Run.rate2 (p : PassSpec) (r : Run) : Nat := if p.mode = .a16 && (r.escalated || r.attempt ≥ 3) then 2 else p.r2

/-- Steps that an attempt occupies its array: streaming, and its pipeline latency where the pass before does not drain
meanwhile (R45, R46). -/
def Run.steps (p : PassSpec) (r : Run) : Nat :=
  streamSteps p.rows (r.rate2 p) + (if r.chained then 0 else latency p.shape)

/-- Streamed rows that have entered the array in its first n steps. -/
def Run.entered (p : PassSpec) (r : Run) (n : Nat) : Nat := min p.rows (ceilDiv (n * r.rate2 p) 2)

/-- Change one queued move. -/
def State.modMove (s : State) (t id : Nat) (f : QMove → QMove) : State :=
  s.modTile t fun x => { x with queue := mapIf (fun m => m.id == id) f x.queue }

/-- Count steps in which an array was active (R75). The quadrants of a PASS_SPLIT are active together, so theirs are kept
until the last of them has ended. -/
def State.addBusy (s : State) (t : Nat) (r : Run) (n : Nat) : State :=
  match r.quad with
  | none => s.bump .tileArrayBusySteps (t / 512) 0 n
  | some q => s.modMove t r.id fun m => { m with busy := m.busy.set q.val (m.busy.getD q.val 0 + n) }

/-- No quadrant of a PASS_SPLIT is in flight any more: the steps of the one that took longest count (R75). -/
def State.flushBusy (s : State) (t id : Nat) : State :=
  let x := s.tile t
  if x.runs.any fun y => y.id == id then s else
  match x.move id with
  | none => s
  | some m =>
    (s.bump .tileArrayBusySteps (t / 512) 0 (m.busy.foldl max 0)).modMove t id fun m => { m with busy := [0, 0, 0, 0] }

/-- An attempt ends without a commit after it has streamed `out` rows to the accumulator and read `read` rows: what it read
and what its products, sums and reads counted stays, although its working copy is discarded, and so do its steps (R75,
R111, R112, R116, R120, R122, R549; log 14). -/
def State.stopAttempt (s : State) (t : Nat) (r : Run) (out read steps : Nat) : State :=
  let s := match s.evalRows t r (some out), s.evalRows t r (some read) with
    | some e, some f => (s.countScales f r.seen (max r.seen (min read f.p.rows))).countOut e
    | _, _ => s
  s.addBusy t r steps

/-- An attempt stops on streamed row i, ⌊i/ρ⌋ + latency + 1 steps after it began (R115, R549). -/
def State.stopOnRow (s : State) (t : Nat) (r : Run) (p : PassSpec) (i : Nat) : State :=
  let n := 2 * i / r.rate2 p + latency p.shape
  s.stopAttempt t r (i + 1) (max (i + 1) (min (r.rowsRead p) (r.entered p n))) (n + 1)

/-- An attempt stops on a row, or after a number of steps, that the cause does not tell: both are free (log 2, log 14). -/
def State.stopSomewhere (s : State) (t : Nat) (r : Run) (p : PassSpec) (extra : Nat := 0) : State :=
  let (v, s) := s.free
  let n := v.toNat % (r.steps p + extra + 1)
  let k := min (r.rowsRead p) (r.entered p n)
  s.stopAttempt t r k k n

end Sys2Proof.Machine
end

