-- ==== Sys2Proof/Machine/PpeQueue.lean ====
section
/-! DEFINITION. The submission queue of the projection engine: which PROJECT moves a tile's copy engine submits, and when
(R163, R178, R182). -/

namespace Sys2Proof.Machine

/-- Change the PPE. -/
def State.modPpe (s : State) (f : Ppe → Ppe) : State := { s with ppe := f s.ppe }

/-- The slot that a move word names (R163). -/
def projectSlot (w : MoveWord) : Nat := fld w 34 32

/-- The operands of PROJECT (R163). -/
structure ProjectSpec where
  slot : Nat
  ifmt : Nat
  nvec : Nat
  rtal : Nat
  rten : Bool
  sk : Nat
  dk : Nat
  src : Nat
  dst : Nat
  deriving DecidableEq, Repr

/-- The fields of a PROJECT move (R163). -/
def projectSpec (w : MoveWord) (r : Regs) : ProjectSpec :=
  { slot := projectSlot w, ifmt := fld w 38 35, nvec := fld w 59 39, rtal := fld w 69 64, rten := bit w 70, sk := fld w 72 71
    dk := fld w 74 73, src := (kindRef w 96 (fld w 72 71)).addr r, dst := (kindRef w 149 (fld w 74 73)).addr r }

/-- The job whose moves a tile's units carry out: RUNNING, or DONE with moves still to run (R140, R243). -/
def State.unitJob (s : State) (t : Nat) : Option Job :=
  let x := s.tile t
  if x.job = 0 || !x.prepared then none else
  (s.job x.job).bind fun j => if j.state == .running || j.state == .done then some j else none

/-- A unit of a tile may start a move: its tile runs, and no pre-emption or save is under way (R236, R248). -/
def State.mayStart (s : State) (t : Nat) : Bool :=
  s.tileRuns t && ((s.unitJob t).map fun j => j.preempt.isNone && !j.saving).getD false

/-- A move is suspended (R227). -/
def QMove.suspended (m : QMove) : Bool := match m.state with | .suspended _ => true | _ => false

/-- A copy-engine move may run: started, or among the first 32 in flight with none suspended (R136, R227). -/
def Tile.copyRuns (x : Tile) (m : QMove) : Bool :=
  m.state == .started || (m.state == .queued &&
    (x.queue.filter fun y => y.unit == .copy && y.state != .done && y.id < m.id).length < 32 &&
    !(x.queue.any fun y => y.unit == .copy && y.suspended))

/-- A PROJECT of a tile is in the submission queue. -/
def Ppe.holds (p : Ppe) (job : BitVec 12) (t id : Nat) : Bool := p.queue.any fun e => e.job == job && e.tile == t && e.id == id

/-- Submit the tile's PROJECT moves that its copy engine runs, while the queue has room (R182). -/
def State.kickPpe (s : State) (t : Nat) : State :=
  if !s.mayStart t then s else
  match s.unitJob t with
  | none => s
  | some j =>
    ((s.tile t).queue.filter fun m => Hdr.op m.w == 0x50).foldl (fun s m =>
      if (s.tile t).copyRuns m && m.failing.isNone && !s.ppe.holds j.id t m.id && s.ppe.queue.length < 256 then
        let c := projectSpec m.w m.regs
        let e : Project := ⟨j.id, t, m.id, c.slot, m.done, c.nvec, s.time.work⟩
        (s.modPpe fun p => { p with queue := p.queue ++ [e] }).modMove t m.id fun m => { m with state := .started }
      else s) s

/-- The queue has room: the tiles that hold a PROJECT for a full queue submit it (R182). -/
def State.refillPpe (s : State) : State :=
  (s.tiles.filter fun p => p.2.queue.any fun m => Hdr.op m.w == 0x50 && m.state == .queued).foldl (fun s p => s.kickPpe p.1) s

/-- Submissions leave the queue (R182, R184): their places are filled anew. -/
def State.dropPpe (s : State) (p : Project → Bool) : State :=
  (s.modPpe fun x => { x with queue := x.queue.filter fun e => !p e }).refillPpe

/-- A queued PROJECT leaves its place (R182). -/
def State.leavePpe (s : State) (job : BitVec 12) (t id : Nat) : State := s.dropPpe fun e => e.job == job && e.tile == t && e.id == id

end Sys2Proof.Machine
end

