-- ==== Sys2Proof/Machine/SeqOps.lean ====
section
/-! DEFINITION. What every decoded move shares: dependency holds, predicates, refusals, the program counter and loops,
completion, stops, and the end of a job (R135 to R143, R168, R244). -/

namespace Sys2Proof.Machine

/-- A tile's registers read with s0 = 0 (R132). -/
def Tile.reg (x : Tile) (i : Nat) : BitVec 64 := x.regs.get i

/-- Write a scalar register; s0 discards it (R132). -/
def Tile.setReg (x : Tile) (i : Nat) (v : BitVec 64) : Tile :=
  if i = 0 then x else { x with regs := x.regs.setIfInBounds i v }

/-- A predicate; p0 reads 1 (R132). -/
def Tile.pred (x : Tile) (i : Nat) : Bool := i == 0 || x.preds.getLsbD i

/-- Write a predicate; p0 discards it (R132). -/
def Tile.setPred (x : Tile) (i : Nat) (b : Bool) : Tile :=
  if i = 0 then x
  else { x with preds := (x.preds &&& ~~~(BitVec.ofNat 8 (2 ^ i))) ||| (if b then BitVec.ofNat 8 (2 ^ i) else 0) }

/-- Moves of a unit that have not completed (R136). -/
def Tile.busy (x : Tile) (u : TUnit) : Bool := x.queue.any fun m => m.unit == u

/-- 256 decoded moves wait to start (R135). -/
def Tile.full (x : Tile) : Bool := (x.queue.filter fun m => m.state == .queued).length ≥ 256

/-- A dependency hold of R136 for a move that executes: a register still to be written, or a WAITU unit. -/
def Tile.mustHold (x : Tile) (w : MoveWord) : Bool :=
  let late := x.queue.filterMap fun m => lateWrite m.w
  (readsOf w).regs.any (fun r => r != 0 && late.contains r) ||
  (Hdr.waitArray w && x.busy .array) || (Hdr.waitMv w && x.busy .mv) ||
  (Hdr.waitVec w && x.busy .vec) || (Hdr.waitCopy w && x.busy .copy)

/-- A move that executes waits at decode without a dependency hold: for one of the four descriptor buffers (R235, log 18), or
as a HALT for every earlier move (R170). The sequencer stays RUNNING (R134). -/
def Tile.mustStay (x : Tile) (w : MoveWord) : Bool :=
  (Hdr.op w == 0x22 && (x.queue.filter fun m => Hdr.op m.w == 0x22).length ≥ 4) ||
  (Hdr.op w == 0x06 && !x.queue.isEmpty)

/-! ## Abandonment and the choice of the job that runs (R61, R118, R247, R248) -/

/-- Remove a run. -/
def State.dropRun (s : State) (t : Nat) (r : Run) : State :=
  s.modTile t fun x => { x with runs := x.runs.filter fun y => !(y.id == r.id && y.quad == r.quad) }

/-- The attempt of a run is cut short at a step that the cause does not tell (R61, R248). -/
def State.cutRun (s : State) (t : Nat) (r : Run) : State :=
  match runSpec t (s.tile t) r with
  | none => s
  | some (_, p) => s.stopSomewhere t r p

/-- Every run of a tile is cut short and dropped. -/
def State.dropRuns (s : State) (t : Nat) (p : Run → Bool) : State :=
  let rs := (s.tile t).runs.filter p
  let s := rs.foldl (fun s r => s.cutRun t r) s
  let s := s.modTile t fun x => { x with runs := x.runs.filter fun r => !p r }
  rs.foldl (fun s r => s.flushBusy t r.id) s

/-- The job's work on a pass ends without commit; it starts again from its beginning (R61, R118): the attempt to follow
is recorded, 0 for none. -/
def State.abandonRun (s : State) (t : Nat) (r : Run) (attempt : Nat) : State :=
  let s := (s.dropRun t r).bump .tileArrayAbandoned (t / 512)
  let ix := (r.quad.map Fin.val).getD 0
  (s.modMove t r.id fun m =>
    let ats := if m.attempts.isEmpty then [0, 0, 0, 0] else m.attempts
    let going := (s.tile t).runs.any fun y => y.id == r.id
    { m with attempts := ats.set ix attempt, state := if going then m.state else .queued }).flushBusy t r.id

/-- Two tile groups share a tile (R242). -/
def groupsOverlap (a b : JobParams) : Bool :=
  (a.dieMask &&& b.dieMask) != 0 && a.row0 < b.row0 + b.nrows && b.row0 < a.row0 + a.nrows &&
  a.col0 < b.col0 + b.ncols && b.col0 < a.col0 + a.ncols

/-- A job holds its tiles, or is being put back on them (R244). -/
def Job.holds (j : Job) : Bool := j.state == .running || j.restoring

/-- A job of higher priority competes for tiles of a job (R242, R247). -/
def Job.above (k j : Job) : Bool := k.id != j.id && groupsOverlap k.p j.p && k.p.priority ≥ j.p.priority

/-- A job is runnable and does not run (R247): a PREEMPTED one where no job of higher priority holds or wants tiles of its
group. The recursion goes up the eight priorities. -/
def State.runnable (s : State) : Nat → Job → Bool
  | 0, _ => false
  | f + 1, j =>
    !j.restoring && (((j.state == .loaded || j.state == .idle) && j.startWanted) ||
      (j.state == .preempted && !s.jobs.any fun k => k.above j && (k.holds || s.runnable f k)))

/-- Under an urgent request the passes in flight are abandoned, but for those from a ring (R156, R248). -/
def State.abandonRuns (s : State) (t : Nat) : State :=
  (s.tile t).runs.foldl (fun s r =>
    match (s.tile t).queue.find? fun m => m.id == r.id with
    | some m =>
      if Hdr.op m.w == 0x21 && bit m.w 51 then s
      else (s.cutRun t r).abandonRun t r (m.attempts.getD ((r.quad.map Fin.val).getD 0) 0)
    | none => s.dropRun t r) s

/-- The start of period n and its flag fall, in 1/16 ns (R250). -/
def startT (p : JobParams) (n : Int) : Int := p.phase.toNat + n * (16 * p.period)
def fallT (p : JobParams) (n : Int) : Int := startT p n + 16 * (p.deadline : Int)

/-- Global time as a number of 1/16 ns. -/
def State.globalT (s : State) : Int := s.time.global.toNat

/-- The flag fall of the period in force is due and has not been carried out (R250, R256). -/
def State.fallDue (s : State) (j : Job) : Bool :=
  match j.period with
  | some p => j.p.periodic && p.started && p.n != p.fallen && decide (fallT j.p p.n ≤ s.globalT)
  | none => false

/-- Issue a pre-emption request to a job that holds tiles (R247 to R249). A flag fall that is due goes first (R256). -/
def State.askPreempt (s : State) (k : Job) (urgent : Bool) : State :=
  if k.preempt.isSome || k.saving || k.restoring || s.fallDue k then s else
  let s := (s.bump .jobPreemptions).bump .jobPreemptionsUrgent 0 0 (if urgent then 1 else 0)
  let s := s.modJob k.id fun b => { b with
    preempt := some urgent, preemptT := s.time.work, preemptSteps := s.steps.toList, preemptLate := false }
  if urgent then (jobTiles k.p).foldl (fun s t => if (s.tile t).job == k.id then s.abandonRuns t else s) s else s

/-- Begin to prepare the tiles of a LOADED job (R243). -/
def State.beginJob (s : State) (j : Job) : State :=
  let s := (jobTiles j.p).foldl (fun s t => s.modTile t fun x => { x with
    job := j.id, prepared := false, queue := [], late := [], runs := [], seq := .halted, wait := .none, waitTal := none
    finishing := false }) s
  s.modJob j.id fun b => { b with state := .running, startWanted := false, preparing := jobTiles j.p }

/-- A runnable job takes its tiles: it starts, or its restore begins (R243, R247). -/
def State.takeTiles (s : State) (j : Job) : State :=
  if j.state == .loaded then s.beginJob j
  else s.modJob j.id fun b => { b with restoring := true, startWanted := false, preemptT := s.time.work }

/-- One runnable job: it waits for a job of higher priority, asks those of lower priority to go, or takes its tiles
(R247). -/
def State.tryJob (s : State) (id : BitVec 12) : State :=
  match s.job id with
  | none => s
  | some j =>
    if !s.runnable 8 j || (s.jobs.any fun k => k.above j && (k.holds || s.runnable 8 k)) then s else
    let low := s.jobs.filter fun k => k.id != id && groupsOverlap k.p j.p && k.holds
    if low.isEmpty then s.takeTiles j else low.foldl (fun s k => s.askPreempt k j.p.urgent) s

/-- Each tile runs the highest-priority job that is RUNNING or runnable on it (R247). -/
def State.scheduleJobs (s : State) : State :=
  (List.range 8).foldl (fun s i =>
    (s.jobs.filter fun j => j.p.priority == 7 - i).foldl (fun s j => s.tryJob j.id) s) s

/-! ## Jobs that end (R244) -/

/-- What a job has of one of its tiles: the saved tile, or the tile that it holds (R235, R243). -/
def State.partOf (s : State) (j : Job) (t : Nat) : Option Tile :=
  match j.saved.find? fun v => v.tile == t with
  | some v => some v.st
  | none => let x := s.tile t; if x.job == j.id && x.prepared then some x else none

/-- Tiles of a job whose sequencer is in a state (R134, R244). -/
def State.tilesIn (s : State) (j : Job) (q : SeqState) : Nat :=
  ((jobTiles j.p).filter fun t => ((s.partOf j t).map Tile.seq) == some q).length

/-- Post JOB_DONE of a job with so many STOPPED tiles (R244, R457). -/
def State.jobDoneEvent (s : State) (j : BitVec 12) (code stopped : Nat) (st : Status) : State :=
  s.event .jobDone ⟨8, j.setWidth 24⟩ (leBytes 2 j.toNat ++ leBytes 1 code ++ leBytes 2 stopped ++ leBytes 2 st.code.toNat)

/-- A RUNNING job whose every tile is HALTED or STOPPED enters DONE (R244). -/
def State.checkDone (s : State) (j : BitVec 12) : State :=
  match s.job j with
  | none => s
  | some b =>
    let all := (jobTiles b.p).all fun t =>
      let x := s.tile t
      x.job == j && x.prepared && (x.seq == .halted || x.seq == .stopped)
    if b.state == .running && b.preparing.isEmpty && !b.saving && all then
      let st := (((jobTiles b.p).filterMap fun t => (s.tile t).stop).head?).getD .success
      ((s.modJob j fun b => { b with state := .done, endStatus := st, preempt := none }).jobDoneEvent j 4 (s.tilesIn b .stopped) st).scheduleJobs
    else s

/-- The fields that a fault record takes from a tile (R225). -/
def State.tileRec (s : State) (t : Nat) (unit : Nat) (st : Status) : FaultRec :=
  { status := st, unit := unit, job := (s.tile t).job, tile := BitVec.ofNat 16 t, pc := (s.tile t).pc, step := s.stepCount t }

/-- The suspended moves of a job's tiles: tile and number (R227). -/
def State.suspendedMoves (s : State) (j : Job) : List (Nat × Nat) :=
  (jobTiles j.p).flatMap fun t => match s.partOf j t with
    | some x => (x.queue.filter QMove.suspended).map fun m => (t, m.id)
    | none => []

/-- The records of suspended moves that are discarded read DISCARDED (R225, R234). -/
def State.discardRecords (s : State) (j : BitVec 12) (ms : List (Nat × Nat)) : State :=
  let f (r : FaultRec) : FaultRec :=
    if r.job == j && (r.mv.map ms.contains).getD false then { r with flags := r.flags ||| 0x80 } else r
  { s with faultQ := s.faultQ.map f, moveFaults := s.moveFaults.map f }

/-- End a job (R227, R234, R244): its tiles are halted, their moves discarded, and JOB_DONE is posted. -/
def State.endJob (s : State) (j : BitVec 12) (st : Status) : State :=
  match s.job j with
  | none => s
  | some b =>
    if b.state == .ended then s else
    let stopped := s.tilesIn b .stopped
    let s := s.discardRecords j (s.suspendedMoves b)
    let s := (jobTiles b.p).foldl (fun s t =>
      if (s.tile t).job == j then
        (s.dropRuns t fun _ => true).modTile t fun x => { x with
          queue := [], late := [], runs := [], wait := .none, waitTal := none
          seq := if x.seq == .stopped then .stopped else .halted }
      else s) s
    let s := s.modPpe fun p => { p with queue := p.queue.filter fun e => e.job != j }
    ((((s.dropJobCtxs j).modJob j fun b => { b with
      state := .ended, endStatus := st, preparing := [], startWanted := false, saving := false, restoring := false
      preempt := none, saved := [] }).jobDoneEvent j 5 stopped st).scheduleJobs).refillPpe

/-- The access of a refused move: a poisoned word of tile SRAM is named (R140, R157, R225). -/
def refusal (st : Status) (phys : Nat := 0) : Suspend :=
  { status := st, addr := if st = .poison then phys % sramSize else 0, phys := phys }

/-- Enter STOPPED with a fault record (R140, R143, R225). Under policy END a fault of R224 ends the job (R227). -/
def State.stopTile (s : State) (t : Nat) (f : Suspend) : State :=
  let s := (s.modTile t fun x => { x with seq := .stopped, wait := .none, stop := some f.status }).bump .tileSeqRefused (t / 512)
  let j := (s.tile t).job
  let s := s.fault (f.record (s.tileRec t 0 f.status))
  if f.status.isFault && ((s.job j).map fun b => b.p.policy == 2).getD false then s.endJob j .jobFaulted else s.checkDone j

/-- Running past the last move stops the program (R143). -/
def State.fetchCheck (s : State) (t : Nat) : State :=
  let x := s.tile t
  if x.seq = .running && x.wait != .yield_ && x.pc ≥ x.len then s.stopTile t (refusal .programEnd) else s

/-- Restart a tile at its period entry, its registers and predicates kept (R172). -/
def State.restartTile (s : State) (t : Nat) : State :=
  ((s.modTile t fun x => { x with
    seq := .running, wait := .none, waitTal := none, pc := x.periodEntry, loops := [], rets := [], finishing := false }).bump
    .tileSeqFlagFallRestarts (t / 512)).fetchCheck t

/-- A decoded move carries an epoch that is over: what it still writes and counts is discarded (R254). -/
def State.expired (s : State) (j : Job) (m : QMove) : Bool := j.p.periodic && m.epoch != s.epoch j

/-- Count local writes and tally increments discarded for an old epoch (R254). -/
def State.countExpired (s : State) (j : Job) (n : Nat) : State :=
  match j.period with | some p => s.bump .periodWritesDiscarded p.slot 0 n | none => s

/-- What the decode of the move at pc does to the active loops (R168), innermost first: one whose END is elsewhere stays,
one that has run its count is popped and the search goes on outwards, and the first one with a count left takes its back
edge. The loops left, and LOOP + 1 where a back edge is taken (log 18). -/
def backEdge (pc : Nat) : List LoopEntry → List LoopEntry × Option Nat
  | [] => ([], none)
  | l :: ls =>
    if l.end_ = pc then
      if l.rem > 1 then ({ l with rem := l.rem - 1 } :: ls, some (l.start + 1)) else backEdge pc ls
    else let (ks, p) := backEdge pc ls; (l :: ks, p)

/-- Move the PC past a decoded move, or to a taken target (R167, R168). A move at END counts its loop in either case; where
it is a taken jump, the PC is its target (log 18). -/
def Tile.advance (x : Tile) (taken : Option Nat) : Tile :=
  let (ls, p) := backEdge x.pc x.loops
  { x with loops := ls, pc := (taken.or p).getD (x.pc + 1) }

/-- What the checks of a move at decode answer. -/
inductive Decoded where
  /-- Refused with a status, and the physical address of a poisoned word (R140, R157). -/
  | refuse (st : Status) (phys : Nat := 0)
  /-- An access of the sequencer faulted: what the walk changed stands (R224, R227). -/
  | fault (s : State) (f : Suspend)
  /-- Decoded: the state, the taken target, and whether the sequencer completes it now with its DTEN tally (R137). -/
  | ok (s : State) (taken : Option Nat := none) (completes : Bool := true)
  deriving DecidableEq, Repr

/-- Where the move that the program counter names lies in the tile's SRAM (R149). -/
def Tile.fetchAddr (x : Tile) : Nat := x.pbase + 32 * x.pc

/-- The move that the sequencer fetches (R135, R149). -/
def State.moveAt (s : State) (t : Nat) : MoveWord := BitVec.ofNat 256 (leNat (s.sram t (s.tile t).fetchAddr 32))

/-- The job on a tile whose sequencer may decode: the tile runs, the job is RUNNING, and no pre-emption request stops
decode (R248), unless the move is the YIELD that it stops at (R173). -/
def State.decodes (s : State) (t : Nat) (yields : Bool := false) : Option Job :=
  let x := s.tile t
  let castled := match x.castle with | .rook _ => true | _ => false
  if s.tileRuns t && !castled && !x.finishing && x.wait != .yield_ &&
    (x.seq == .running || (x.seq == .waiting && x.wait == .dep)) then
    (s.holder t).bind fun j => if (yields || j.preempt.isNone) && !j.saving then some j else none
  else none

/-- Counters of a refused move beside the stop (R63, R75, R385). -/
def State.countRefusal (s : State) (t : Nat) (op : Nat) : State :=
  let s := if unitOf op = some .array then s.bump .tileArrayRefused (t / 512) else s
  let s := if op = 0x25 then s.bump .tileCastleRefused (t / 512) else s
  if op = 0x58 then s.bump .collRefused else s

/-- The DTAL of a move that completes later than its decode (R137). -/
def dtalOf (w : MoveWord) : Option Nat := if Hdr.dten w then some (Hdr.dtal w) else none

/-- Complete the decode of a move (R135, R137, R140, R168). -/
def State.finishDecode (s : State) (t : Nat) (w : MoveWord) (j : BitVec 12) (d : Decoded) : State :=
  match d with
  | .refuse st phys => (s.countRefusal t (Hdr.op w)).stopTile t (refusal st phys)
  | .fault s f => s.stopTile t f
  | .ok s taken completes =>
    let s := s.modTile t fun x => x.advance taken
    let s := if completes && Hdr.dten w then s.arrive j t (Hdr.dtal w) 1 else s
    s.fetchCheck t

/-- Fetch the move w at the program counter: nothing happens where the sequencer does not decode now or another word
stands there; a poisoned word stops the program (R135, R149, log 12). -/
def State.fetch (s : State) (t : Nat) (w : MoveWord) (yields : Bool) (f : Job → State) : State :=
  match s.decodes t yields with
  | none => s
  | some j =>
    if s.moveAt t ≠ w then s else
    match s.sramPoison t (s.tile t).fetchAddr 32 with
    | some p => s.stopTile t (refusal .poison p)
    | none => f j

/-- Decode the move w at the program counter (R135, R136, R142): hold while 256 moves wait to start, hold for a dependency,
refuse a reserved opcode, skip on a false predicate, refuse reserved bits of the header, then make the checks of the move. -/
def State.decodeMove (s : State) (t : Nat) (w : MoveWord) (yields : Bool) (body : State → Job → Tile → Decoded) : State :=
  s.fetch t w yields fun j =>
    let x := s.tile t
    let off := x.pred (Hdr.psel w) == Hdr.pneg w
    let hold := !x.full && !off && x.mustHold w
    let stay := x.full || (!off && x.mustStay w)
    let x := { x with seq := if hold then .waiting else .running, wait := if hold then .dep else .none }
    if hold || stay then s.setTile t x else
    let s := (s.setTile t x).bump .tileSeqMoves (t / 512)
    if (unitOf (Hdr.op w)).isNone then s.finishDecode t w j.id (.refuse .reservedValue)
    else if off then s.finishDecode t w j.id (.ok s none false)
    else if !clear w Hdr.resv then s.finishDecode t w j.id (.refuse .reservedValue)
    else s.finishDecode t w j.id (body s j x)

/-- Decode a move of one opcode; another word changes nothing (log 8). -/
def State.decode (s : State) (t : Nat) (w : MoveWord) (op : Nat) (body : State → Job → Tile → Decoded) : State :=
  if Hdr.op w ≠ op then s else s.decodeMove t w false body

/-- Place a decoded move in its unit's queue with what it captured (R135). -/
def State.enqueue (s : State) (t : Nat) (w : MoveWord) (j : Job) (x : Tile) (f : QMove → QMove := id) : State :=
  let m : QMove := f { id := x.nextId, w := w, pc := x.pc, regs := x.regs, epoch := s.epoch j, passIx := x.passIx, convIx := x.convIx }
  s.modTile t fun x => { x with queue := x.queue ++ [m], nextId := x.nextId + 1 }

/-- Wake a waiting sequencer: the wait completes, with its DTEN tally; RUNNING again, then the next fetch
(R134, R137, R138). -/
def State.wake (s : State) (t : Nat) : State :=
  let x := s.tile t
  let s := s.setTile t { x with seq := .running, wait := .none, waitTal := none }
  (match x.waitTal with | some k => s.arrive x.job t k 1 | none => s).fetchCheck t

/-- The first move of a unit that has not completed. -/
def Tile.front (x : Tile) (u : TUnit) : Option QMove := x.queue.find? fun m => m.unit == u && m.state != .done

/-- The packets beyond `done` that have been receipted, as the SENT mask (R225, R229). -/
def QMove.sentMask (m : QMove) : BitVec 256 := m.sent.foldl (fun a p => a ||| BitVec.ofNat 256 (2 ^ (p - m.done))) 0

/-- A move faults (R224, R227): a record, then suspension under HOLD and HOLD_TIMED, or the end of the job under END. -/
def State.suspend (s : State) (t : Nat) (m : QMove) (unit : Nat) (f : Suspend) (nextSrc nextDst done : Nat) : State :=
  match s.job (s.tile t).job with
  | none => s
  | some j =>
    let f := { f with since := s.time.work }
    let hold := j.p.policy ≠ 2
    let r : FaultRec := f.record { s.tileRec t unit f.status with
      flags := if hold then 0x10 else 0, pc := m.pc, done := done, nextSrc := nextSrc, nextDst := nextDst, sent := m.sentMask
      mv := if hold then some (t, m.id) else none }
    let s := if m.resumed then s.bump .faultRefaults else s
    if hold then (s.modMove t m.id fun m => { m with state := .suspended f }).fault r
    else (s.fault r).endJob j.id .jobFaulted

end Sys2Proof.Machine
end

