-- ==== Sys2Proof/Machine/PassOps.lean ====
section
/-! DEFINITION. Ends of passes and array moves: refusals at start, the moves at the head of the array queue (DRAIN, CLEAR,
CASTLE, UNCASTLE), and faults of passes (R58 to R67, R108, R141, R158). -/

namespace Sys2Proof.Machine

/-! ## Ends of passes and array moves -/

/-- Mark a move of the tile done: it completes at MOVE_COMPLETION (R137). -/
def State.moveDone (s : State) (t id : Nat) : State := s.modMove t id fun m => { m with state := .done }

/-- End the pass of a run: a quadrant's status byte, or the whole PASS; a PASS_SPLIT ends with its last quadrant
(R58, R157). -/
def State.endRun (s : State) (t : Nat) (r : Run) (status : Nat) : State :=
  let s := s.dropRun t r
  match r.quad with
  | none => s.moveDone t r.id
  | some q =>
    let going := (s.tile t).runs.any fun y => y.id == r.id
    (s.modMove t r.id fun m =>
      let qs := m.quads.set q.val status
      { m with quads := qs, state := if qs.all (· != 3) then .done else if going then m.state else .queued }).flushBusy t r.id

/-- A queued array move whose turn has come: every array move before it has ended (R42, R45). -/
def Tile.nextArray (x : Tile) : Option QMove :=
  (x.front .array).bind fun m => if m.state == .queued then some m else none

/-- A move refused at start (R141): no side effect; the sequencer stops at it, and later moves are discarded. -/
def State.refuseAtStart (s : State) (t : Nat) (m : QMove) (st : Status) : State :=
  let s := s.modTile t fun x => { x with
    queue := x.queue.filter fun y => y.id < m.id || (y.id > m.id && y.state != .queued)
    seq := .stopped, wait := .none, waitTal := none, stop := some st, pc := m.pc }
  let s := s.bump .tileAccRefusedAtStart (t / 512)
  (s.fault { s.tileRec t 0 st with pc := m.pc }).checkDone (s.tile t).job

/-! ## DRAIN, CLEAR, CASTLE and UNCASTLE at the head of the array queue -/

/-- Tile and row address of row r of a king's or a tile's range (R66). -/
def accPlace (t : Nat) (x : Tile) (r : Nat) : Nat × Nat :=
  match x.pair with
  | some (true, rook) => if r < 2048 then (t, r) else (rook, r - 2048)
  | _ => (t, r)

/-- CLEAR (R108): every metadata byte of the range and halves to its reset value. -/
def State.applyClear (s : State) (t : Nat) (m : QMove) : State :=
  let x := s.tile t
  (List.range (fld m.w 56 44)).foldl (fun s k =>
    let (u, a) := accPlace t x (fld m.w 43 32 + k)
    s.modTile u fun y =>
      let r := y.accRow a
      let r := if bit m.w 57 then r.setMeta 0 0x40 else r
      y.setAccRow a (if bit m.w 58 then r.setMeta 1 0x40 else r)) s

/-- The output rows of a DRAIN: the row addresses each is made from (R158). The addresses of a ledger row of which one is
AX96 make one output row. None where such a ledger row does not lie wholly in the range. -/
def drainRows (ledger : Nat → Bool) : Nat → Nat → Nat → Option (List (List Nat))
  | 0, _, _ => some []
  | f + 1, r, stop =>
    if r ≥ stop then some []
    else if ledger (r / 4) then
      if r % 4 = 0 && r + 4 ≤ stop then (drainRows ledger f (r + 4) stop).map ([r, r + 1, r + 2, r + 3] :: ·) else none
    else (drainRows ledger f (r + 1) stop).map ([r] :: ·)

/-- A half-row holds a quarter of AX96 elements (R103). -/
def AccRow.isAx (r : AccRow) (h : Nat) : Bool := !Meta.zero (r.meta h) && Meta.kind (r.meta h) == 3

/-- What a column of an output row holds. -/
inductive DrainIn where
  /-- Of a ZERO half-row (R103). -/
  | zero
  | val (v : Val)
  | ax (code : Nat)
  /-- In a ledger row, of a half that holds another KIND: R158 states no result (log 40). -/
  | other
  deriving DecidableEq, Repr

/-- A column of an output row (R101, R102, R158). -/
def drainVal (rows : List AccRow) (half c : Nat) : DrainIn :=
  let r := rows.headD {}
  let m := r.meta half
  if rows.all fun r => Meta.zero (r.meta half) then .zero
  else if rows.length = 4 then
    (if rows.all fun r => Meta.zero (r.meta half) || r.isAx half then .ax (ledgerCode rows half c) else .other)
  else
    let w := r.word (16 * half + c)
    match Meta.kind m with
    | 0 => .val (Fmt.fp32.decode w)
    | 1 => .val (fp16Word w (Meta.rowScale m))
    | _ => .val (Val.ofInt (signed 32 w))

/-- Rounding of a conversion control for element i of a converting move (R89, R90, R113). -/
def cvtRnd (ctl : Nat) (seed : BitVec 64) (tile : Nat) (issue : BitVec 32) (i : Nat) : Rnd :=
  match ctl / 2 with
  | 1 => .sr (philoxU seed issue.toNat (tile * 2 ^ 20) i 2)
  | 2 => .rtz
  | _ => .rne

/-- Count what a list of conversions counted (R91, R92). -/
def State.countCvt (s : State) (d : Nat) (fs : List CvtFlags) : State :=
  (s.bump .tileCvtSaturated d 0 (fs.filter CvtFlags.saturated).length).bump .tileCvtNanLost d 0
    (fs.filter CvtFlags.nanLost).length

/-- Convert one drained element: its code, what it counted, and an invalid AX96 code read (R95, R96, R158). A non-finite
element exported as AX96 is written as R95 gives it. -/
def drainElem (df : Fmt) (ctl : Nat) (anchor : Int) (r : Rnd) (v : DrainIn) : Option (Nat × CvtFlags × Bool) :=
  match v with
  | .zero => some (if df = .ax96 then packAx96 0 anchor 0 else 0, {}, false)
  | .ax c =>
    if df = .ax96 then some (if ax96Invalid c then ax96Nonfinite .nan else c, {}, ax96Invalid c)
    else let (x, f) := df.encode r (ctl % 2 = 1) anchor (decodeAx96 c); some (x, f, ax96Invalid c)
  | .val v => let (x, f) := df.encode r (ctl % 2 = 1) anchor v; some (x, f, false)
  | .other => none

/-- A KIND converts to a destination format (R83, R91, R96). -/
def drainable (kind : Nat) (df : Fmt) : Bool := df != .pa6 && (df != .e8m0 || kind == 0 || kind == 4)

/-- What a DRAIN names (R158). -/
structure DrainSpec where
  df : Fmt
  ctl : Nat
  anchor : Int
  halves : List Nat
  base : Nat
  len : Nat
  dst : Nat
  stride : Nat
  mdst : Option Nat
  deriving DecidableEq, Repr

/-- The fields of a DRAIN word. -/
def drainSpec (w : MoveWord) (r : Regs) : DrainSpec :=
  { df := (Fmt.ofCode (fld w 62 59)).getD .fp32, ctl := fld w 65 63, anchor := signed 16 (fld w 177 162)
    halves := (if bit w 57 then [0] else []) ++ (if bit w 58 then [1] else []), base := fld w 43 32, len := fld w 56 44
    dst := (sramRef w 112).addr r, stride := fld w 111 96, mdst := if bit w 66 then some ((sramRef w 137).addr r) else none }

namespace DrainSpec
/-- Columns and bytes of an output row, and the distance between rows (R158). -/
def cols (p : DrainSpec) : Nat := 16 * p.halves.length
def bytes (p : DrainSpec) : Nat := p.df.bytes p.cols
def step (p : DrainSpec) : Nat := if p.stride = 0 then p.bytes else p.stride
/-- Output row k lies in tile SRAM (R139). -/
def fits (p : DrainSpec) (k : Nat) : Bool :=
  p.dst + k * p.step + p.bytes ≤ sramSize && (p.mdst.all fun m => decide (m + 2 * k + 2 ≤ sramSize))
end DrainSpec

/-- A row address of a DRAIN as committed (R66). -/
def State.drainRow (s : State) (t r : Nat) : AccRow := let (u, a) := accPlace t (s.tile t) r; (s.tile u).accRow a

/-- The output rows of a DRAIN, as its rows stand; none where a ledger row does not lie wholly in its range. -/
def State.drainOuts (s : State) (t : Nat) (p : DrainSpec) : Option (List (List Nat)) :=
  drainRows (fun g => (List.range 4).any fun i => p.halves.any fun h => (s.drainRow t (4 * g + i)).isAx h)
    p.len p.base (p.base + p.len)

/-- Write output row k of a DRAIN (R108, R158): what lies past the end of tile SRAM is not written (R139). -/
def State.drainOut (s : State) (t : Nat) (m : QMove) (p : DrainSpec) (k : Nat) (rows : List AccRow) : State :=
  let d := t / 512
  let seed := ((s.job (s.tile t).job).map fun j => j.p.seed).getD 0
  let (s, es) := (p.halves.zipIdx.flatMap fun (h, hi) => (List.range 16).map fun c => (h, hi, c)).foldl
    (fun (acc : State × List (Nat × CvtFlags × Bool)) (h, hi, c) =>
      match drainElem p.df p.ctl p.anchor (cvtRnd p.ctl seed t m.convIx (k * p.cols + hi * 16 + c)) (drainVal rows h c) with
      | some e => (acc.1, acc.2 ++ [e])
      | none => let (v, s) := acc.1.free; (s, acc.2 ++ [(v.toNat % 2 ^ p.df.width, {}, false)])) (s, [])
  let off := p.dst + k * p.step
  let fit := if off + p.bytes ≤ sramSize then p.cols else 8 * (sramSize - off) / p.df.width
  let a := sramBase t + off
  let es := es.take fit
  let s := s.writeSram a (packElts p.df.width (es.map fun e => e.1)) false
  let s := s.countCvt d (es.map fun e => e.2.1)
  let s := s.bump .tileCvtAx96Invalid d 0 (es.filter fun e => e.2.2).length
  let s := p.halves.zipIdx.foldl (fun s (h, hi) =>
    let n := (min (16 * (hi + 1)) fit - 16 * hi) * p.df.width / 8
    if n > 0 && rows.any fun r => Meta.poison (r.meta h) then
      let ws := (pieces 8 (n + 1) (a + p.df.width * 16 * hi / 8) n).map fun p => p.1 / 8
      let s : State := { s with poisonWords := ws.filter (fun w => !s.poisonWords.contains w) ++ s.poisonWords }
      s.bump .tileAccPoisonDrained d
    else s) s
  match p.mdst with
  | none => s
  | some md =>
    if fit < p.cols then s else
    let (s, bs) := [0, 1].foldl (fun (acc : State × List Byte) h =>
      let v := BitVec.ofNat 8 ((rows.headD {}).meta h)
      if rows.all fun r => r.meta h == (rows.headD {}).meta h then (acc.1, acc.2 ++ [v])
      else let (f, s) := acc.1.free; (s, acc.2 ++ [f.setWidth 8])) (s, [])
    s.writeSram (sramBase t + md + 2 * k) (bs.take (sramSize - (md + 2 * k))) false

/-- DRAIN (R108, R158): the rows as committed, converted and written to SRAM; or the status that refuses it at start. Rows
whose KIND was not known at decode may reach past the end of tile SRAM: the DRAIN ends there with a fault record (R139,
log 40). -/
def State.applyDrain (s : State) (t : Nat) (m : QMove) : Except Status State :=
  let p := drainSpec m.w m.regs
  let bad := (List.range p.len).any fun k => p.halves.any fun h =>
    let b := (s.drainRow t (p.base + k)).meta h
    !Meta.zero b && !drainable (Meta.kind b) p.df
  match s.drainOuts t p with
  | none => .error .accKindMismatch
  | some outs =>
    if bad then .error .accKindMismatch else
    let stop := (outs.zipIdx.find? fun (_, k) => !p.fits k).map Prod.snd
    let go := outs.zipIdx.take ((stop.map (· + 1)).getD outs.length)
    let s' := go.foldl (fun s (addrs, k) => s.drainOut t m p k (addrs.map (s.drainRow t))) s
    .ok (match stop with
      | none => s'
      | some k => s'.fault { s'.tileRec t 1 .lengthRange with
          pc := m.pc, done := k, nextSrc := p.base + (outs.take k).flatten.length, nextDst := p.dst + k * p.step })

/-- CASTLE at the rook's castle latch (R62 to R65): refused there when another king has taken the rook or the rook's
sequencer is not halted. -/
def State.applyCastle (s : State) (t : Nat) (m : QMove) : Except Status State :=
  let south := bit m.w 32
  let r := if south then t + 32 else t + 1
  let y := s.tile r
  if y.castle ≠ .none || !(y.seq == .halted || y.seq == .parked) then .error .rookBusy else
  let (mine, held) := (s.stepCount t, s.stepCount r)
  let s := s.modTile t fun x => { x with castle := .king south r, heldSteps := mine }
  .ok ((s.modTile r fun y => { y with castle := .rook t, heldSteps := held }).bump .tileCastleEvents (t / 512))

/-- Part a pair (R62, R65): the rook's step counter resumes from its held value, the king's goes on from the pair's steps;
the pair's operand is held no more. -/
def State.part (s : State) (t : Nat) : State :=
  match (s.tile t).pair with
  | none => s
  | some (_, r) =>
    let (mine, held) := (s.stepCount t, s.stepCount r)
    let s := s.modTile t fun x => { x with
      castle := .none, stepBase := s.baseFor t mine
      cells := match x.cells with | .pair _ => .quads (Vector.replicate 4 none) | c => c }
    s.modTile r fun y => { y with castle := .none, stepBase := s.baseFor r held }

/-- Carry out the array moves at the head of the queue that need no further event, in order (R42, R64, R108). A
LOAD_STATIONARY begins its load stall there (R44). -/
def State.advanceArray (s : State) (t : Nat) : Nat → State
  | 0 => s
  | f + 1 =>
    if !s.mayStart t then s else
    match (s.tile t).nextArray with
    | none => s
    | some m =>
      let go (r : Except Status State) : State := match r with
        | .error e =>
          let s := if Hdr.op m.w = 0x25 then s.bump .tileCastleRefused (t / 512) else s
          s.refuseAtStart t m e
        | .ok s => (s.moveDone t m.id).advanceArray t f
      match Hdr.op m.w with
      | 0x20 => s.modMove t m.id fun m => { m with state := .started }
      | 0x23 => go (s.applyDrain t m)
      | 0x24 => go (.ok (s.applyClear t m))
      | 0x25 => go (s.applyCastle t m)
      | 0x26 => go (.ok (if (s.tile t).pair.isSome then (s.part t).bump .tileCastleEvents (t / 512) else s))
      | _ => s

/-- Carry out what the array can, after a decode or an end. -/
def State.kickArray (s : State) (t : Nat) : State := s.advanceArray t ((s.tile t).queue.length)

/-! ## Faults of passes -/

/-- Set POISON on every half-row of a pass's range (R60, R106). -/
def State.poisonRange (s : State) (p : PassSpec) : State :=
  (List.range p.len).foldl (fun s j => (List.range (p.n / 16)).foldl (fun s h =>
    let (t, addrs, half) := p.place j h
    s.modTile t fun x => addrs.foldl (fun x a =>
      let r := x.accRow a
      x.setAccRow a (r.setMeta half (r.meta half % 128 + 128))) x) s) s

/-- Abort the pass of a run with an array fault (R59, R60, R67): its range is poisoned, a record is written, and the
move goes on or completes. -/
def State.faultRun (s : State) (t : Nat) (r : Run) (m : QMove) (p : PassSpec) (st : Status) (q : Nat) (rook : Bool)
    (phys : Nat := 0) : State :=
  let s := s.poisonRange p
  let s := s.bump .tileQuadFaults (t / 512) q
  let quad := r.quad.isSome || p.shape < 4
  let s := s.fault { s.tileRec t 1 st with
    pc := m.pc, phys := phys, quad := if quad then q else 0
    flags := (if quad then 1 else 0) ||| (if rook then 2 else 0) }
  (s.endRun t r 1).kickArray t

end Sys2Proof.Machine
end

