-- ==== Sys2Proof/Machine/Array.lean ====
section
/-! DEFINITION. Array moves and the events of the array: loads, passes, splits, repeats, faults, commits, DRAIN, CLEAR,
CASTLE, UNCASTLE (R44 to R68, R101 to R122, R154 to R158). -/

namespace Sys2Proof.Machine

/-- A buffer of 6-bit elements starts on a 3-byte group, and so does each of its rows: a stride that is not a multiple of 3
is refused with the buffer (R77, log 10). -/
def groupOk (f : Fmt) (src step : Nat) : Bool := f == .pa6 || f.width != 6 || (src % 3 == 0 && step % 3 == 0)

/-- A SHAPE against the pair that the tile is in when the move is decoded (R154, R64). -/
def shapeCheck (shape : Nat) (pair : Option (Bool × Nat)) : Option Status :=
  if shape = 5 && pair.isNone then some .castleInvalid
  else if shape < 5 && pair.isSome then some .castled
  else none

/-- A format may be block-scaled in the array or the MV unit (R84). -/
def blockable (f : Fmt) : Bool := [Fmt.e4m3, .e5m2, .e3m2, .e2m3, .e2m1, .t2].contains f

/-- The first status of a list of checks. -/
def firstOf (cs : List (Option Status)) : Option Status := cs.findSome? id

/-- An SRAM reference is outside the address space: the sum is 2^20 or more, whatever the count (R151). -/
def offSram (a : Nat) : Option Status := if a ≥ sramSize then some .lengthRange else none

/-- A job reference whose sum is 2^48 or more (R151). -/
def offJob (a : Nat) : Option Status := if a ≥ 2 ^ 48 then some .lengthRange else none

/-- A refusal when a condition holds. -/
def when? (b : Bool) (st : Status) : Option Status := if b then some st else none

/-- A no-op of a count of 0: it completes at once and changes no tally (R139). -/
def Decoded.noop (s : State) : Decoded := .ok s none false

/-- A move placed in its unit's queue. -/
def Decoded.queued (s : State) : Decoded := .ok s none false

/-- The checks of LOAD_STATIONARY at decode (R53, R77, R84, R99, R139, R154). -/
def loadChecks (t : Nat) (w : MoveWord) (x : Tile) : Option Status :=
  let shape := fld w 34 32
  let pair := x.pairView t
  let south := (pair.map Prod.fst).getD false
  let (kv, nv, blk) := (fld w 47 41, fld w 54 48, fld w 40 39)
  match Fmt.ofCode (fld w 38 35) with
  | none => some .reservedValue
  | some f =>
    let (kk, nn) := (shapeK shape south, shapeN shape south)
    let step := if fld w 79 64 = 0 then f.bytes nn else fld w 79 64
    let src := (sramRef w 80).addr x.regs
    let scl := (sramRef w 105).addr x.regs
    let ok := [Fmt.fp16, .bf16, .e4m3, .e5m2, .e3m2, .e2m3, .e2m1, .int8, .int4, .t2].contains f
    firstOf [
      when? (!clear w [(255, 130), (63, 55)] || shape > 5 || blk = 3) .reservedValue,
      when? (kv > kk || nv > nn) .lengthRange,
      when? (shape < 5 && pair.isSome) .castled,
      when? (!groupOk f src step) .alignment,
      when? (!ok || (blk != 0 && !blockable f)) .formatUnsupported,
      offSram src, if blk = 0 then none else offSram scl,
      shapeCheck shape pair,
      when? (kv != 0 && nv != 0 && (src + (kv - 1) * step + f.bytes nv > sramSize ||
        (blk != 0 && scl + (nv - 1) * (kk / blockSize blk) + ceilDiv kv (blockSize blk) > sramSize))) .lengthRange]

/-- LOAD_STATIONARY at decode (R154). -/
def execLoadStationary (t : TileIx) (w : MoveWord) (s : State) : Out :=
  .next ((s.decode t w 0x20 fun s j x =>
    match loadChecks t w x with
    | some e => .refuse e
    | none => if fld w 47 41 = 0 || fld w 54 48 = 0 then .noop s else .queued (s.enqueue t w j x)).kickArray t)

/-- A load ends (R44, R549): the cells hold what it read, or nothing after POISON. -/
def State.endLoad (s : State) (t : TileIx) (m : QMove) : State :=
  let w := m.w
  let x := s.tile t
  let shape := fld w 34 32
  let south := (x.pair.map Prod.fst).getD false
  let f := (Fmt.ofCode (fld w 38 35)).getD .e4m3
  let (kk, nn) := (shapeK shape south, shapeN shape south)
  let (kv, nv, blk) := (fld w 47 41, fld w 54 48, fld w 40 39)
  let (src, scl) := ((sramRef w 80).addr m.regs, (sramRef w 105).addr m.regs)
  let step := if fld w 79 64 = 0 then f.bytes nn else fld w 79 64
  let s := s.bump .tileArrayLoadSteps (t / 512) 0 (loadStall shape south)
  let s := match x.pair with
    | some (_, r) => s.modTile r fun y => { y with cells := .quads (Vector.replicate 4 none) }
    | none => s
  let s := match s.loadPoison t src step scl f blk kk kv nv with
    | some phys =>
      (s.modTile t fun x => { x with cells := x.cells.put shape none }).fault
        { s.tileRec t 1 .poison with pc := m.pc, phys := phys }
    | none =>
      let l := s.readLoad t src (fld w 79 64) scl f blk kk nn kv nv
      (s.modTile t fun x => { x with cells := x.cells.put shape (some l) }).countLoad t l
  (s.moveDone t m.id).kickArray t

/-- LOAD_STALL_END (R44, R549): the load at the head of the array queue ends. A load that has begun ends also under a
pre-emption request (R173, R248). -/
def execLoadStallEnd (t : TileIx) (s : State) : Out :=
  match (s.tile t).front .array with
  | none => .next s
  | some m =>
    let on := m.state == .started && s.tileRuns t && (s.unitJob t).isSome
    when_ s (Hdr.op m.w == 0x20 && (on || (m.state == .queued && s.mayStart t))) fun s => s.endLoad t m

/-- Reserved encodings of the fields that PASS and PASS_SPLIT share (R84, R119, R155). -/
def passReserved (w : MoveWord) : Bool :=
  fld w 38 35 = 15 || fld w 42 39 = 15 || fld w 44 43 = 3 || fld w 46 45 = 3 || fld w 48 47 = 3 ||
  (fld w 48 47 = 2 && fld w 187 180 = 255)

/-- Block-code checks that PASS and PASS_SPLIT share (R84, R86). -/
def passBlocks (w : MoveWord) (kk : Nat) : List (Option Status) :=
  let ft := (Fmt.ofCode (fld w 38 35)).getD .pa6
  let fs := (Fmt.ofCode (fld w 42 39)).getD .pa6
  let (bt, bs) := (fld w 44 43, fld w 46 45)
  [when? ((bt != 0 && !blockable ft) || (bs != 0 && !blockable fs)) .formatUnsupported,
   when? (kk = 16 && (bt = 1 || bs = 1)) .blockMismatch,
   when? (bt != bs && !(ft == .t2 && bt = 0)) .blockMismatch]

/-- An A16 pass that names SR (R110). -/
def a16Sr (w : MoveWord) : Option Status := when? (fld w 48 47 = 1 && bit w 49) .formatUnsupported

/-- The largest row count at a rate (R49). -/
def maxRows (r2 : Nat) : Nat := if r2 = 1 then 32768 else 65536

/-- The checks of PASS at decode (R49 to R51, R77, R86, R104, R110, R139, R155, R156). -/
def passChecks (t : Nat) (w : MoveWord) (x : Tile) : Option Status :=
  let shape := fld w 34 32
  let pair := x.pairView t
  let south := (pair.map Prod.fst).getD false
  let kk := shapeK shape south
  let r2 := ((passRate w).map fun r => r.2.2.1).getD 2
  let fs := (Fmt.ofCode (fld w 42 39)).getD .e4m3
  let (rows, len, base) := (fld w 113 97, fld w 96 84, fld w 83 72)
  let cap := (if fld w 48 47 = 2 then 512 else 2048) * (if shape = 5 && south then 2 else 1)
  let ring := bit w 51
  let size := 2 ^ (fld w 55 52 + 12)
  let src := (sramRef w 130).addr x.regs
  let scl := (sramRef w 155).addr x.regs
  let step := if fld w 129 114 = 0 then fs.bytes kk else fld w 129 114
  let bs := fld w 46 45
  firstOf ([
    when? (!clear w [(255, 188), (71, 71), (63, 62)] || shape > 5 || passReserved w || fld w 55 52 > 7) .reservedValue,
    when? (rows > maxRows r2) .lengthRange,
    when? (passRate w).isNone .formatUnsupported,
    when? (shape < 4 && pair.isSome) .castled,
    when? (!groupOk fs src step) .alignment] ++ passBlocks w kk ++ [
    when? (len > cap || (len != 0 && base + len > cap)) .lengthRange,
    a16Sr w, offSram src, if bs = 0 then none else offSram scl,
    shapeCheck shape pair,
    when? (ring && src % size != 0) .alignment,
    when? (ring && fld w 48 47 != 0) .ringUnsupported,
    when? (rows != 0 && len != 0 && ((if ring then src + size else src + (rows - 1) * step + fs.bytes kk) > sramSize ||
      (bs != 0 && scl + rows * (kk / blockSize bs) > sramSize))) .lengthRange])

/-- A PASS or PASS_SPLIT placed in the queue with the index that it will take when it starts (R114): the passes before it
that are still to start count first. -/
def State.enqueuePass (s : State) (t : Nat) (w : MoveWord) (j : Job) (x : Tile) (f : QMove → QMove := id) : State :=
  let ahead := (x.queue.filter fun m => (Hdr.op m.w == 0x21 || Hdr.op m.w == 0x22) && !m.began).length
  s.enqueue t w j x fun m => f { m with passIx := x.passIx + BitVec.ofNat 32 ahead }

/-- PASS at decode (R155, R156): a no-op pass counts in the pass index at once (R114). -/
def execPass (t : TileIx) (w : MoveWord) (s : State) : Out :=
  .next (s.decode t w 0x21 fun s j x =>
    match passChecks t w x with
    | some e => .refuse e
    | none =>
      if fld w 113 97 = 0 || fld w 96 84 = 0 then .noop (s.setTile t { x with passIx := x.passIx + 1 })
      else .queued (s.enqueuePass t w j x))

/-- Overlap of two row ranges (R57). -/
def overlaps (a n b m : Nat) : Bool := a < b + m && b < a + n

/-- The accumulator range of a quadrant record passes the last address (R104). -/
def quadRange (w : MoveWord) (d : List Byte) (q : Nat) : Bool :=
  let cap := if fld w 48 47 = 2 then 512 else 2048
  recFld d q 88 76 > cap || (recFld d q 88 76 != 0 && recFld d q 75 64 + recFld d q 88 76 > cap)

/-- Strides of a quadrant record (R157): stationary, streamed. -/
def quadSteps (ft fs : Fmt) (d : List Byte) (q : Nat) : Nat × Nat :=
  (if recFld d q 31 16 = 0 then ft.bytes 16 else recFld d q 31 16,
   if recFld d q 191 176 = 0 then fs.bytes 16 else recFld d q 191 176)

/-- Alignment of the buffers of a quadrant record that does not idle (R77). -/
def quadAligned (ft fs : Fmt) (d : List Byte) (q : Nat) : Option Status :=
  let (st, ss) := quadSteps ft fs d q
  when? (!quadIdle d q && (!groupOk ft (recFld d q 115 96) st || !groupOk fs (recFld d q 155 136) ss)) .alignment

/-- Extents of a quadrant record past tile SRAM (R139, R154). -/
def quadExtents (w : MoveWord) (ft fs : Fmt) (d : List Byte) (q : Nat) : Option Status :=
  let (st, ss) := quadSteps ft fs d q
  let (rows, kv, nv) := (recFld d q 48 32, recFld d q 6 0, recFld d q 13 7)
  let (bt, bs) := (blockSize (fld w 44 43), blockSize (fld w 46 45))
  when? (!quadIdle d q && (
    recFld d q 115 96 + (kv - 1) * st + ft.bytes nv > sramSize || recFld d q 155 136 + (rows - 1) * ss + fs.bytes 16 > sramSize ||
    (bt != 0 && recFld d q 135 116 + (nv - 1) * (16 / bt) + ceilDiv kv bt > sramSize) ||
    (bs != 0 && recFld d q 175 156 + rows * (16 / bs) > sramSize))) .lengthRange

/-- Two quadrants of one column half write overlapping rows (R57). -/
def quadsOverlap (d : List Byte) (a b : Nat) : Bool :=
  !quadIdle d a && !quadIdle d b &&
  overlaps (recFld d a 75 64) (recFld d a 88 76) (recFld d b 75 64) (recFld d b 88 76)

/-- Reserved bits of the four quadrant records (R157). -/
def quadReserved (d : List Byte) : Bool :=
  (List.range 4).any fun q => recFld d q 255 192 != 0 || recFld d q 95 89 != 0 || recFld d q 63 49 != 0 || recFld d q 15 15 != 0

/-- The checks of PASS_SPLIT at decode, with the address of a poisoned word of its descriptor, in the order of R548: the
reserved bits of the word, and of the records where the descriptor can be read; then the rules in the order of the manual
(R51, R53, R57, R64, R77, R84, R86, R104, R110, R157, R139). -/
def State.splitChecks (s : State) (t : Nat) (w : MoveWord) (x : Tile) : Option (Status × Nat) :=
  let a := (sramRef w 55).addr x.regs
  let r2 := ((passRate w).map fun r => r.2.2.1).getD 2
  let ft := (Fmt.ofCode (fld w 38 35)).getD .e4m3
  let fs := (Fmt.ofCode (fld w 42 39)).getD .e4m3
  let inside := a % 32 = 0 && a + 128 ≤ sramSize
  let phys := if inside then s.sramPoison t a 128 else none
  let read := inside && phys.isNone
  let d := s.sram t a 128
  let onDesc (c : Option Status) : Option Status := if read then c else none
  let e := firstOf ([
    when? (!clear w [(34, 32), (255, 188), (179, 80)] || passReserved w) .reservedValue,
    onDesc (when? (quadReserved d) .reservedValue),
    onDesc (when? ((List.range 4).any fun q => recFld d q 48 32 > maxRows r2) .lengthRange),
    when? (passRate w).isNone .formatUnsupported,
    onDesc (when? ((List.range 4).any fun q => recFld d q 6 0 > 16 || recFld d q 13 7 > 16) .lengthRange),
    onDesc (when? (quadsOverlap d 0 2 || quadsOverlap d 1 3) .accOverlap),
    when? (x.pairView t).isSome .castled,
    onDesc ((List.range 4).findSome? fun q => quadAligned ft fs d q)] ++ passBlocks w 16 ++ [
    onDesc (when? ((List.range 4).any fun q => quadRange w d q) .lengthRange),
    a16Sr w,
    onDesc ((List.range 4).findSome? fun q => quadExtents w ft fs d q),
    when? (a % 32 != 0) .alignment,
    when? (a + 128 > sramSize) .lengthRange,
    when? phys.isSome .poison])
  e.map fun e => (e, if e == .poison then phys.getD 0 else 0)

/-- PASS_SPLIT at decode (R157): the descriptor is read and captured. -/
def execPassSplit (t : TileIx) (w : MoveWord) (s : State) : Out :=
  .next (s.decode t w 0x22 fun s j x =>
    match s.splitChecks t w x with
    | some (e, phys) => .refuse e phys
    | none =>
      let d := s.sram t ((sramRef w 55).addr x.regs) 128
      .queued (s.enqueuePass t w j x fun m =>
        { m with desc := d, quads := (List.range 4).map fun q => if quadIdle d q then 2 else 3 }))

/-- Take the next granule of a started ring pass (R156): FILL falls by 1, its bytes are read, SPACE rises by 1. -/
def State.takeGranule (s : State) (t : Nat) (r : Run) (m : QMove) (p : PassSpec) (kv : Nat) : State :=
  let x := s.tile t
  let fill := ((x.tallies.toArray[fld m.w 61 56]?).getD 0).toNat
  if fill = 0 then s else
  let g := p.granules.getD r.taken 0
  let o := g * 256 % (p.ring.getD 4096)
  let bad := if s.poisonWords.isEmpty then none else (List.range p.rows).findSome? fun i =>
    let lo := i * p.step
    let hi := lo + p.fmtS.bytes kv
    if lo < g * 256 + 256 && g * 256 < hi then
      (s.sramPoison t (p.src + (max lo (g * 256) - g * 256 + o)) (min hi (g * 256 + 256) - max lo (g * 256))).map fun a => (i, a)
    else none
  let bytes := s.sram t (p.src + o) 256
  let s := s.setTile t { x with
    tallies := x.tallies.setIfInBounds (fld m.w 61 56) (BitVec.ofNat 32 (fill - 1))
    runs := mapIf (fun y => y.id == r.id) (fun y => { y with taken := y.taken + 1, ringBytes := y.ringBytes ++ bytes, bad := y.bad.or bad }) x.runs }
  let s := s.bump .tileTallyConsumed (t / 512)
  if bit m.w 70 then s.addTally t (fld m.w 69 64) 1 else s

/-- Count the repeat that an attempt number means when it starts (R115, R118, R122). -/
def State.countRepeat (s : State) (p : PassSpec) (attempt : Nat) : State :=
  let d := p.tile / 512
  if p.mode = .ax then (if attempt ≥ 2 then s.bump .tileLedgerAnchorRepeats d else s)
  else if p.mode ≠ .a16 then s
  else if attempt = 2 then
    (if p.shape < 4 then s.bump .tileQuadRescaleRepeats d p.shape else s.bump .tileArrayRescaleRepeats d)
  else if attempt = 3 then
    (if p.shape < 4 then s.bump .tileQuadA32Fallbacks d p.shape else s.bump .tileArrayA32Fallbacks d)
  else s

/-- A move of the array starts: a pass that starts for the first time takes its pass index (R114). -/
def State.startMove (s : State) (t : Nat) (m : QMove) : State :=
  let s := s.modMove t m.id fun m => { m with state := .started, began := true }
  if m.began then s else s.modTile t fun x => { x with passIx := x.passIx + 1 }

/-- Begin the run of a pass that passed its check at start (R115 to R118); `chained` where the pass before it drains its
pipeline meanwhile (R46). -/
def State.beginRun (s : State) (t : Nat) (m : QMove) (p : PassSpec) (nv : Nat) (q : Option QuadIx) (l : Option Load)
    (chained : Bool := false) : State :=
  let (esc, att) := s.startsAs p nv
  let want := m.attempts.getD ((q.map Fin.val).getD 0) 0
  let s := if want > 0 then s.countRepeat p want else s
  let s := if esc then s.bump .tileAccEscalated (t / 512) else s
  s.modTile t fun x => { x with
    runs := x.runs ++ [{ id := m.id, quad := q, attempt := if want > 0 then want else att, escalated := esc, load := l
                         chained := chained }] }

/-- Valid columns of what the cells of a shape hold; all where they hold nothing (R53). -/
def PassSpec.nvOf (p : PassSpec) (l : Option Load) : Nat := (l.map Load.nv).getD p.n

/-- Start a PASS: checked against its rows, then against what its cells hold (R107, R155, R548, R551). -/
def State.startPass (s : State) (t : Nat) (m : QMove) : State :=
  match passSpec t (s.tile t) m with
  | none => s
  | some p =>
    let l := (s.tile t).cells.load p.shape
    match s.startCheck p (p.nvOf l) with
    | some e => s.refuseAtStart t m e
    | none =>
      match l with
      | none => s.refuseAtStart t m .stationaryMismatch
      | some l =>
        if l.fmt ≠ p.fmtT || l.blk ≠ p.blkT then s.refuseAtStart t m .stationaryMismatch
        else
          let drains := (s.tile t).runs.any fun r => r.quad.isNone
          (s.beginRun t m p l.nv none none drains).startMove t m

/-- The stationary load of one quadrant of a PASS_SPLIT (R56, R549): the quadrant begins with what it read, or holds
nothing where it read a poisoned word, whose address is answered. -/
def State.startQuad (s : State) (t : Nat) (m : QMove) (q : QuadIx) (p : PassSpec) : State × Option Nat :=
  let f := recFld m.desc q.val
  let step := if f 31 16 = 0 then p.fmtT.bytes 16 else f 31 16
  match s.loadPoison t (f 115 96) step (f 135 116) p.fmtT p.blkT 16 (f 6 0) (f 13 7) with
  | some phys =>
    let s := s.modTile t fun x => { x with cells := x.cells.put q.val none }
    (s.beginRun t m p (f 13 7) (some q) none, some phys)
  | none =>
    let l := s.readLoad t (f 115 96) (f 31 16) (f 135 116) p.fmtT p.blkT 16 16 (f 6 0) (f 13 7)
    let s := (s.modTile t fun x => { x with cells := x.cells.put q.val (some l) }).countLoad t l
    (s.beginRun t m p (f 13 7) (some q) (some l), none)

/-- Start a PASS_SPLIT: every quadrant that has not ended begins, and then those whose load was poisoned fault (R58, R61,
R107, R549). The half-rows of one quadrant's range are checked in ascending order (R548); between quadrants, whose ranges
that rule does not order, all of Q0's come first, then those of Q1, Q2 and Q3 (DESIGN CHOICE, log 19). -/
def State.startSplit (s : State) (t : Nat) (m : QMove) : State :=
  let qs := (List.finRange 4).filterMap fun q =>
    if m.quads.getD q.val 2 == 3 then (splitSpec t m q.val).map fun p => (q, p) else none
  match qs.findSome? fun (q, p) => s.startCheck p (recFld m.desc q.val 13 7) with
  | some e => s.refuseAtStart t m e
  | none =>
    let s := s.startMove t m
    if qs.isEmpty then s.moveDone t m.id else
    let s := s.bump .tileArrayLoadSteps (t / 512) 0 16
    let (s, bad) := qs.foldl (fun (acc : State × List (QuadIx × PassSpec × Nat)) (q, p) =>
      let (s, b) := acc.1.startQuad t m q p
      (s, match b with | some a => acc.2 ++ [(q, p, a)] | none => acc.2)) (s, [])
    bad.foldl (fun s (q, p, a) => s.faultRun t { id := m.id, quad := some q } m p .poison q.val false a) s

/-- A PASS on the operand already loaded may start while the passes before it drain their pipelines, when their rows are
disjoint (R46). -/
def mayOverlap (t : Nat) (x : Tile) (m : QMove) : Bool :=
  Hdr.op m.w == 0x21 && (x.queue.filter fun y => y.id < m.id && y.unit == .array && y.state != .done).all fun y =>
    Hdr.op y.w == 0x21 && y.state == .started &&
    match passSpec t x m, passSpec t x y, x.runs.find? fun r => r.id == y.id with
    | some p, some q, some r =>
      (q.ring.isNone || r.taken ≥ q.granules.length) &&
      fld m.w 34 32 == fld y.w 34 32 && !overlaps p.base p.len q.base q.len
    | _, _, _ => false

/-- PASS_START (R107, R156): the next queued pass is checked and begins; a ring pass that waits takes its next granule. -/
def execPassStart (t : TileIx) (s : State) : Out :=
  let x := s.tile t
  let wants := x.runs.findSome? fun r => (runSpec t x r).bind fun (m, p) =>
    if p.ring.isSome && r.taken < p.granules.length then some (r, m, p) else none
  match wants with
  | some (r, m, p) =>
    when_ s (s.tileRuns t && (s.unitJob t).isSome) fun s =>
      s.takeGranule t r m p (((x.cells.load p.shape).map Load.kv).getD p.k)
  | none =>
    match x.queue.find? fun m => m.unit == .array && m.state == .queued with
    | none => .next s
    | some m =>
      when_ s (s.mayStart t && ((x.nextArray.map QMove.id) == some m.id || mayOverlap t x m)) fun s =>
        if Hdr.op m.w = 0x21 then s.startPass t m
        else if Hdr.op m.w = 0x22 then (s.startSplit t m).kickArray t
        else s

/-- The run of an event that names a quadrant: that quadrant of a PASS_SPLIT, else the pass in flight. -/
def Tile.runOf (x : Tile) (q : Option QuadIx) : Option Run :=
  x.runs.find? fun r => r.quad.isNone || r.quad == q

/-- An attempt stops at the row i where it overflowed (R115, R118, R122): its working copy is discarded, and the next
attempt begins; under a pre-emption request the pass is abandoned and the attempt to follow is recorded. -/
def State.overflowed (s : State) (t : Nat) (r : Run) (e : Eval) (i : Nat) : State :=
  let s := s.stopOnRow t r e.p i
  if ((s.unitJob t).bind Job.preempt).isSome then s.abandonRun t r (r.attempt + 1)
  else
    (s.countRepeat e.p (r.attempt + 1)).modTile t fun x => { x with
      runs := mapIf (fun y => y.id == r.id && y.quad == r.quad)
        (fun y => { y with
          attempt := y.attempt + 1, chained := false
          seen := max y.seen (max (i + 1) (r.entered e.p (2 * i / r.rate2 e.p + latency e.p.shape))) }) x.runs }

/-- ATTEMPT_OVERFLOW (R115, R118, R122). -/
def execAttemptOverflow (t : TileIx) (q : Option QuadIx) (s : State) : Out :=
  match (s.tile t).runOf q with
  | none => .next s
  | some r =>
    match s.evalRun t r with
    | none => .next s
    | some e =>
      match overflowRow e.out with
      | none => .next s
      | some i =>
        when_ s (s.tileRuns t && (s.unitJob t).isSome && r.attempt < 3 && ((s.streamPoison e.p e.l.kv).all fun x => i < x.1)) fun s =>
          s.overflowed t r e i

/-- The status of an array fault cause (R60). -/
def causeStatus : ArrayCause → Status
  | .stationaryParity => .stationaryParity
  | .poison => .poison
  | .accUncorrectable => .accUncorrectable
  | .ledgerOverflow => .ledgerOverflow

/-- The quadrant of a pass holds an active cell: rows below its KV and columns below its NV (R53, R60). The rook of a pair
holds the columns from 32 of a horizontal pair and the rows from 32 of a vertical one (R62). -/
def activeQuad (p : PassSpec) (l : Option Load) (q : Nat) (rook : Bool) : Bool :=
  match l with
  | none => false
  | some l =>
    if p.shape < 4 then p.shape == q && !rook
    else
      let row := 16 * (q / 2) + (if rook && p.south then 32 else 0)
      let col := 16 * (q % 2) + (if rook && !p.south then 32 else 0)
      (!rook || p.shape == 5) && row < l.kv && col < l.nv

/-- The run, move and pass of a tile that an array fault in a quadrant meets. -/
def Tile.hit (x : Tile) (t : Nat) (q : QuadIx) (rook : Bool) : Option (Run × QMove × PassSpec) :=
  (x.runOf (some q)).bind fun r => (runSpec t x r).bind fun (m, p) =>
    if activeQuad p (r.load.or (x.cells.load p.shape)) q.val rook then some (r, m, p) else none

/-- A used SRAM word of a run is found uncorrectable, and is poisoned from then on (R550): of a row it has read, or still
reads, which one is free (log 2). Where it is. -/
def State.findPoison (s : State) (t : Nat) (r : Run) (p : PassSpec) (kv : Nat) : State × Nat × Nat :=
  let (v, s) := s.free
  let i := v.toNat % max 1 (r.rowsRead p)
  let o := i * p.step + v.toNat / 2 ^ 20 % max 1 (p.fmtS.bytes kv)
  let w := (sramBase t + p.src + (match p.ring with | some n => o % n | none => o)) / 8
  let s : State := { s with poisonWords := if s.poisonWords.contains w then s.poisonWords else w :: s.poisonWords }
  (s.bump .tileSramUncorrectable (t / 512), i, 8 * w)

/-- ARRAY_FAULT (R59, R60, R67, R549): the pass that meets the cause aborts, and its attempt stops where it met it; in a
quadrant that idles in a PASS_SPLIT the fault is counted and recorded only. A parity error needs an active cell, an
accumulator error a row that the pass adds into, and a ledger overflow its third overflow (R60, R122). -/
def execArrayFault (t : TileIx) (cause : ArrayCause) (q : QuadIx) (rook : Bool) (s : State) : Out :=
  let x := s.tile t
  let st := causeStatus cause
  match x.hit t q rook with
  | some (r, m, p) =>
    let third := match s.evalRun t r with
      | some e => if e.p.mode == AccMode.ax && r.attempt == 3 then overflowRow e.out else none
      | none => none
    let meets := match cause with
      | .ledgerOverflow => third.isSome
      | .accUncorrectable => !p.ovw
      | _ => true
    when_ s (s.tileRuns t && (s.unitJob t).isSome && meets) fun s =>
      match cause with
      | .ledgerOverflow =>
        ((s.bump .tileLedgerOverflowFaults (t / 512)).stopOnRow t r p (third.getD 0)).faultRun t r m p st q.val rook
      | .poison =>
        let kv := ((r.load.or (x.cells.load p.shape)).map Load.kv).getD p.k
        let (s, i, phys) := match (s.streamPoison p kv).or r.bad with
          | some (i, a) => (s, i, a)
          | none => s.findPoison t r p kv
        (s.stopOnRow t r p i).faultRun t r m p st q.val rook phys
      | _ => (s.stopSomewhere t r p 1).faultRun t r m p st q.val rook
  | none =>
    let idle := (x.runOf (some q)).isNone && x.queue.any fun m => Hdr.op m.w == 0x22 && m.state == .started
    when_ s (s.tileRuns t && (s.unitJob t).isSome && idle && cause == .stationaryParity && !rook) fun s =>
      (s.bump .tileQuadFaults (t / 512) q.val).fault { s.tileRec t 1 st with
        pc := 0, quad := q.val, flags := 1 ||| (if rook then 2 else 0) }

/-- HANDSHAKE_TIMEOUT (R60, R549): an active cell has made no progress for 4,096 steps; the attempt has occupied its array
for up to its streaming, those steps, its latency and 1 step. -/
def execHandshakeTimeout (t : TileIx) (q : QuadIx) (rook : Bool) (s : State) : Out :=
  match (s.tile t).hit t q rook with
  | some (r, m, p) =>
    when_ s (s.tileRuns t && (s.unitJob t).isSome) fun s =>
      (s.stopSomewhere t r p 4097).faultRun t r m p .handshakeTimeout q.val rook
  | none => .next s

/-- Commit an attempt that neither overflowed nor met poison (R106, R111, R112, R551). -/
def State.commitRun (s : State) (t : Nat) (r : Run) (e : Eval) : State :=
  let target := commitKind e.p.mode r.attempt r.escalated
  let s := (s.countScales e r.seen e.p.rows).countOut e (some target)
  let s := e.out.foldl (fun s o => s.commitHalf e.p target o) s
  let d := t / 512
  let s := (s.bump .tileArrayPasses d).addBusy t r (r.steps e.p)
  let s := if e.p.shape < 4 then s.bump .tileQuadPasses d e.p.shape else s
  let s := if e.p.ring.isSome && (((s.unitJob t).bind Job.preempt) == some true) then s.bump .tileArrayRingNotAbandoned d else s
  (s.endRun t r 0).kickArray t

/-- An attempt may commit: evaluated without overflow and without poison in what it reads (R59, R106, R115). -/
def State.mayCommit (s : State) (t : Nat) (r : Run) (e : Eval) : Bool :=
  s.tileRuns t && (s.unitJob t).isSome && (overflowRow e.out).isNone && r.bad.isNone && (s.streamPoison e.p e.l.kv).isNone

/-- PASS_COMMIT (R44, R106): the first PASS in flight ends; its rows are committed at once. -/
def execPassCommit (t : TileIx) (s : State) : Out :=
  match (s.tile t).runs.head? with
  | none => .next s
  | some r =>
    match s.evalRun t r with
    | none => .next s
    | some e => when_ s (r.quad.isNone && s.mayCommit t r e) fun s => s.commitRun t r e

/-- QUADRANT_COMMIT (R58): a quadrant pass of a PASS_SPLIT commits at its own end. -/
def execQuadrantCommit (t : TileIx) (q : QuadIx) (s : State) : Out :=
  match (s.tile t).runs.find? fun r => r.quad == some q with
  | none => .next s
  | some r =>
    match s.evalRun t r with
    | none => .next s
    | some e => when_ s (s.mayCommit t r e) fun s => s.commitRun t r e

/-- The range checks that DRAIN and CLEAR share (R139, R158). -/
def accRange (w : MoveWord) (pair : Option (Bool × Nat)) : Bool :=
  let cap := match pair with | some (true, _) => 4096 | _ => 2048
  fld w 56 44 ≤ cap && fld w 43 32 + fld w 56 44 ≤ cap

/-- A DRAIN converts (R133): its format is not the KIND of the first half-row it names, as committed at its decode. -/
def State.drainConverts (s : State) (t : Nat) (x : Tile) (w : MoveWord) (df : Fmt) : Bool :=
  let (u, a) := accPlace t x (fld w 43 32)
  let m := ((s.tile u).accRow a).meta (if bit w 57 then 0 else 1)
  [Fmt.fp32, .fp16, .int32, .ax96].getD (Meta.kind m) .fp32 != df

/-- Output rows that a DRAIN of a range writes at the least: each ledger row wholly in it may be one (R158). -/
def leastOuts (base len : Nat) : Nat := len - 3 * ((base + len) / 4 - ceilDiv base 4)

/-- The extent of a DRAIN, as far as decode knows it, lies in tile SRAM (R139): where no array move is still to run its rows
stand as they will be read; else only the fewest output rows are known (log 40). -/
def State.drainFits (s : State) (t : Nat) (x : Tile) (p : DrainSpec) : Bool :=
  let n := if x.queue.any fun m => m.unit == .array && m.state != .done then leastOuts p.base p.len
    else ((s.drainOuts t p).map List.length).getD 0
  n = 0 || p.fits (n - 1)

/-- The checks of DRAIN at decode (R77, R83, R89, R96, R139, R158). -/
def State.drainChecks (s : State) (t : Nat) (w : MoveWord) (x : Tile) : Option Status :=
  match Fmt.ofCode (fld w 62 59) with
  | none => some .reservedValue
  | some df =>
    let rnd := fld w 65 64
    let dst := (sramRef w 112).addr x.regs
    firstOf [
      when? (!clear w [(255, 178), (95, 67)] || rnd = 3 || (df == .ax96 && fld w 177 162 = 0x8000)) .reservedValue,
      when? (!groupOk df dst (fld w 111 96)) .alignment,
      when? (rnd != 0 && (df == .fp32 || df == .ax96)) .formatUnsupported,
      when? (df == .pa6) .formatUnsupported,
      when? (!accRange w (x.pairView t)) .lengthRange,
      offSram dst, if bit w 66 then offSram ((sramRef w 137).addr x.regs) else none,
      when? (fld w 56 44 != 0 && fld w 58 57 != 0 && !s.drainFits t x (drainSpec w x.regs)) .lengthRange]

/-- DRAIN at decode (R133, R158). -/
def execDrain (t : TileIx) (w : MoveWord) (s : State) : Out :=
  .next ((s.decode t w 0x23 fun s j x =>
    match s.drainChecks t w x with
    | some e => .refuse e
    | none =>
      let s := if s.drainConverts t x w ((Fmt.ofCode (fld w 62 59)).getD .fp32) then s.setTile t { x with convIx := x.convIx + 1 } else s
      if fld w 56 44 = 0 || fld w 58 57 = 0 then .noop s else .queued (s.enqueue t w j x)).kickArray t)

/-- CLEAR at decode (R108, R158). -/
def execClear (t : TileIx) (w : MoveWord) (s : State) : Out :=
  .next ((s.decode t w 0x24 fun s j x =>
    if !onlyUses w [(58, 57), (56, 44), (43, 32)] then .refuse .reservedValue
    else if !accRange w (x.pairView t) then .refuse .lengthRange
    else if fld w 56 44 = 0 || fld w 58 57 = 0 then .noop s
    else .queued (s.enqueue t w j x)).kickArray t)

/-- The checks of CASTLE at decode (R62, R63). -/
def State.castleChecks (s : State) (t : TileIx) (w : MoveWord) (j : Job) (x : Tile) : Option Status :=
  let south := bit w 32
  let inside := if south then t.val % 512 / 32 < 15 else t.val % 32 < 31
  let r := if south then t.val + 32 else t.val + 1
  let y := s.tile r
  firstOf [
    when? (!clear w [(255, 33)]) .reservedValue,
    when? (!inside || !jobHas j.p r || s.tileOffline r || (x.pairView t).isSome || y.castle != .none) .castleInvalid,
    when? (!(y.seq == .halted || y.seq == .parked)) .rookBusy]

/-- CASTLE at decode (R62, R63). -/
def execCastle (t : TileIx) (w : MoveWord) (s : State) : Out :=
  .next ((s.decode t w 0x25 fun s j x =>
    match s.castleChecks t w j x with
    | some e => .refuse e
    | none => .queued (s.enqueue t w j x)).kickArray t)

/-- UNCASTLE at decode (R64): on a tile that is not a king it is a no-op. -/
def execUncastle (t : TileIx) (w : MoveWord) (s : State) : Out :=
  .next ((s.decode t w 0x26 fun s j x =>
    if !clear w [(255, 32)] then .refuse .reservedValue
    else if (x.pairView t).isNone then .noop s
    else .queued (s.enqueue t w j x)).kickArray t)

end Sys2Proof.Machine
end

