-- ==== Sys2Proof/Machine/ZcpOps.lean ====
section
/-! DEFINITION. What every ZCP command shares: acceptance of its source, the replay cache, the management lock, the module
state, replies and the configuration chain (R433 to R450, R475, R548). -/

namespace Sys2Proof.Machine

/-! ## Sources and replies -/

/-- A request from this source reaches the control processor (R311, R433). -/
def State.accepts (s : State) (src : ZcpSrc) : Bool :=
  match src with
  | .udp i _ _ => s.host.ifaces[i].up
  | .mfp p f => s.ports[p].usable || (s.ports[p].state == .held && (s.ports[p].peer.map Identity.fid) == some f)
  | .linkLocal p => s.ports[p].pastFec

/-- An entry of the source filter matches a source (R449). -/
def filterMatches (e : FilterEntry) (src : ZcpSrc) : Bool :=
  match e, src with
  | .ip pre len, .udp _ ip _ => len ≤ 128 && pre.toNat / 2 ^ (128 - len) == ip.toNat / 2 ^ (128 - len)
  | .fid lo hi, .mfp _ f => lo.toNat ≤ f.toNat && f.toNat ≤ hi.toNat
  | .port p, .linkLocal q => p == q
  | _, _ => false

/-- The source filter lets a source pass (R449). -/
def filterAllows (es : List FilterEntry) (src : ZcpSrc) : Bool := es.isEmpty || es.any fun e => filterMatches e src

/-- The 24 bytes that identify a source (R475): an IPv4 address, which stands in the low 32 bits, as its IPv4-mapped one. -/
def sourceBytes (src : ZcpSrc) : List Byte :=
  match src with
  | .udp i ip port =>
    let mapped := if ip.toNat < 2 ^ 32 then ip.toNat + 0xFFFF * 2 ^ 32 else ip.toNat
    leBytes 1 0 ++ leBytes 1 i.val ++ leBytes 2 port.toNat ++ (leBytes 16 mapped).reverse ++ leBytes 4 0
  | .mfp p f => leBytes 1 1 ++ leBytes 1 p.val ++ leBytes 2 f.toNat ++ leBytes 20 0
  | .linkLocal p => leBytes 1 2 ++ leBytes 1 p.val ++ leBytes 22 0

/-- Send one ZCP packet to a source: a datagram, or a CONTROL message, out of a HELD port only to its peer (R311, R433). -/
def State.sendZcp (s : State) (src : ZcpSrc) (pkt : List Byte) : State :=
  match src with
  | .udp _ _ _ => s.emit (.zcp src pkt)
  | .mfp p f =>
    let peer := s.ports[p].state == .held && (s.ports[p].peer.map Identity.fid) == some f
    s.message f 8 0 0 pkt 0 false none (if peer then some p else none)
  | .linkLocal p => s.message 0xFFFF 8 0 0 pkt 0 false none (some p)

/-- Parameter bytes in one reply packet (R435, R439). -/
def replyRoom (src : ZcpSrc) (ver2 : Bool) (maxReply : Nat) : Nat :=
  match src with
  | .udp _ _ _ => (if !ver2 || maxReply = 0 then 1400 else maxReply) - 32
  | _ => 224

/-- Reply fragments from index k (R438, R439, R443). -/
def replyPackets (src : ZcpSrc) (e : ReplayEntry) (maxReply k : Nat) (body : List Byte) : List (List Byte) :=
  let room := max 1 (replyRoom src e.ver2 maxReply)
  let n := max 1 (ceilDiv body.length room)
  let one (i : Nat) (more : Bool) (bs : List Byte) :=
    zcpPacket (if e.ver2 then 2 else 1) (if more then 5 else 1) e.seq e.op.toNat e.status.toNat (targetCode e.target) e.tag i n bs
  if k ≥ n then [one k false []]
  else ((List.range n).drop k).map fun i => one i (i + 1 < n) ((body.drop (room * i)).take room)

/-- Send a reply (R439). -/
def State.sendReply (s : State) (src : ZcpSrc) (e : ReplayEntry) (maxReply k : Nat) (body : List Byte) : State :=
  (replyPackets src e maxReply k body).foldl (fun s p => s.sendZcp src p) s

/-! ## Replay cache (R441 to R443) -/

/-- The cached reply of a source and sequence. -/
def Zcp.cached (z : Zcp) (src : ZcpSrc) (seq : BitVec 32) : Option ReplayEntry :=
  (z.caches.find? fun c => c.src == src).bind fun c => c.entries.find? fun e => e.seq == seq

/-- Discard the oldest bodies while bodies take more than 32 MiB (R441). -/
def trimBodies : Nat → List ReplayCache → List ReplayCache
  | 0, cs => cs
  | n + 1, cs =>
    let es := cs.flatMap fun c => c.entries.filter fun (e : ReplayEntry) => e.body.isSome
    if (es.map fun e => (e.body.getD []).length).sum ≤ 2 ^ 25 then cs else
    match es.foldl (fun (a : Option ReplayEntry) e =>
      match a with | none => some e | some x => if e.time < x.time then some e else some x) none with
    | none => cs
    | some o => trimBodies n (cs.map fun c => { c with entries := mapIf (fun e => e == o) (fun (e : ReplayEntry) => { e with body := none }) c.entries })

/-- Keep a final reply: 256 for a source, 64 sources (R441). -/
def State.cacheReply (s : State) (src : ZcpSrc) (e : ReplayEntry) : State :=
  let cs := s.zcp.caches
  let (cs, evicted) :=
    match cs.find? fun c => c.src == src with
    | some _ => (mapIf (fun (c : ReplayCache) => c.src == src) (fun c => { c with last := s.clock, entries := (e :: c.entries).take 256 }) cs, false)
    | none =>
      let c : ReplayCache := ⟨src, s.clock, [e]⟩
      if cs.length < 64 then (c :: cs, false) else
      match cs.foldl (fun (a : Option ReplayCache) x =>
        match a with | none => some x | some y => if x.last < y.last then some x else some y) none with
      | none => (c :: cs, false)
      | some o => (c :: cs.filter fun x => x.src != o.src, true)
  let s := { s with zcp := { s.zcp with caches := trimBodies 16384 cs } }
  if evicted then s.bump .zcpReplaySourceEvicted else s

/-- Mark a source active (R441). -/
def State.touchSource (s : State) (src : ZcpSrc) : State :=
  { s with zcp := { s.zcp with caches := mapIf (fun c => c.src == src) (fun c => { c with last := s.clock }) s.zcp.caches } }

/-- Answer a duplicate (R442, R443). -/
def State.answerDuplicate (s : State) (src : ZcpSrc) (e : ReplayEntry) (maxReply rfrag : Nat) : State :=
  let s := (s.bump .zcpReplayDuplicates).touchSource src
  match e.body with
  | some b => s.sendReply src e maxReply (if e.ver2 then rfrag else 0) b
  | none => s.sendReply src { e with status := Status.replayEvicted.code } maxReply 0 []

/-! ## Requests in hand (R444, R445) -/

/-- A request in hand as the header of its reply. -/
def Waiting.head (w : Waiting) (st : Status) (body : List Byte) (time : Nat) : ReplayEntry :=
  { seq := w.seq, op := w.op, target := w.target, ver2 := w.ver2, tag := w.tag, status := st.code, body := some body, time := time }

/-- The request of a source and sequence that is in hand. -/
def Zcp.inHand (z : Zcp) (src : ZcpSrc) (seq : BitVec 32) : Option Waiting := z.waiting.find? fun w => w.src == src && w.seq == seq

/-- The value of the parameter of a TYPE (R437), empty where there is none. -/
def paramOf (type : Nat) : Nat → List Byte → List Byte
  | 0, _ => []
  | n + 1, bs =>
    if bs.length < 4 then [] else
    let len := leNat ((bs.drop 2).take 2)
    if leNat (bs.take 2) = type then (bs.drop 4).take len else paramOf type n (bs.drop (4 + ceilDiv len 4 * 4))

/-- A parameter of a request as a number. -/
def Waiting.param (w : Waiting) (type : Nat) : Nat := leNat (paramOf type w.bytes.length w.bytes)

/-- What a request names, in TARGET or in its parameters, as a kind and a range of indices (R444): the KINDs of R436, 32 for
route entries and 33 for window indices. -/
def Waiting.names (w : Waiting) : List (Nat × Nat × Nat) :=
  let one (k i : Nat) : Nat × Nat × Nat := (k, i, i + 1)
  (if w.target.kind = 0 then [] else [one w.target.kind.toNat w.target.index.toNat]) ++
  match w.op.toNat with
  | 0x0404 => if w.target.kind = 0 then [(4, 0, 16)] else []
  | 0x0410 => [(32, w.param 1, w.param 1 + (paramOf 2 w.bytes.length w.bytes).length / 8)]
  | 0x0411 => [(32, w.param 1, w.param 1 + w.param 2)]
  | 0x0420 => [one 33 (w.param 1), one 8 (w.param 2 / 2 ^ 20 % 4096), one 8 (w.param 2 / 2 ^ 32 % 4096)]
  | 0x0421 => [one 33 (w.param 1)]
  | 0x0422 => [one 33 (w.param 1)]
  | 0x0441 => [one 8 (w.param 1 / 2 ^ 16 % 4096)]
  | 0x0510 => [one 8 (w.param 2)]
  | _ => []

/-- Two requests name the same instance: they run one after the other (R444). -/
def Waiting.clash (a b : Waiting) : Bool :=
  a.names.any fun x => b.names.any fun y => x.1 == y.1 && x.2.1 < y.2.2 && y.2.1 < x.2.2

/-- A queued request may start beside those before it (R444): its source's are all started, none names its instance. -/
def mayStartZcp (before : List Waiting) (w : Waiting) : Bool :=
  !(before.any fun x => (x.src == w.src && x.started.isNone) || x.clash w)

/-- A new request starts at once (R444): fewer than 8 execute, and it waits for none of those in hand. -/
def Zcp.takes (z : Zcp) (w : Waiting) : Bool :=
  (z.waiting.filter fun x => x.started.isSome).length < 8 && mayStartZcp z.waiting w

/-- Start queued requests in order while fewer than 8 execute (R444). -/
def startZcp (clock : Nat) : Nat → List Waiting → List Waiting → List Waiting
  | _, before, [] => before
  | room, before, w :: ws =>
    if w.started.isNone && room > 0 && mayStartZcp before w
    then startZcp clock (room - 1) (before ++ [{ w with started := some clock }]) ws
    else startZcp clock room (before ++ [w]) ws

/-- Let queued requests start (R444). -/
def State.startQueued (s : State) : State :=
  { s with zcp := { s.zcp with
    waiting := startZcp s.clock (8 - (s.zcp.waiting.filter fun x => x.started.isSome).length) [] s.zcp.waiting } }

/-- Opcodes of change commands that do not extend the configuration chain (R475). -/
def unchained : List Nat := [0x0323, 0x0305, 0x0712, 0x0721, 0x0010, 0x0011, 0x0110, 0x0111, 0x0902]

/-- Extend the configuration chain by a change command that replies SUCCESS (R475). -/
def State.extendConfig (s : State) (w : Waiting) : State :=
  { s with sec := { s.sec with
    config := shake256 64 (s.sec.config ++ sourceBytes w.src ++ leBytes 2 w.op.toNat ++ leBytes 4 (targetCode w.target) ++
      leBytes 4 w.bytes.length ++ w.bytes)
    configCount := s.sec.configCount + 1 } }.bump .secConfigExtends

/-- The final reply of a request (R439, R441, R445, R475): it leaves the queue, and the next may start. -/
def State.reply (s : State) (w : Waiting) (change : Bool) (st : Status) (body : List Byte) : State :=
  let (st, body) := if body.length > 65536 then (Status.lengthRange, []) else (st, body)
  let e := w.head st body s.clock
  let s := { s with zcp := { s.zcp with waiting := s.zcp.waiting.filter fun x => !(x.src == w.src && x.seq == w.seq) } }
  let s := if change && st = .success && !unchained.contains w.op.toNat then s.extendConfig w else s
  ((s.sendReply w.src e w.maxReply 0 body).cacheReply w.src e).startQueued

/-! ## Commands -/

/-- What a command answers. -/
inductive Ans where
  | ok (s : State) (vs : List (List Byte) := [])
  /-- Refused; the parameter named in item 1 (R451), or other bytes. -/
  | err (s : State) (st : Status) (param : Option Nat := none) (item : List Byte := [])
  /-- It goes on executing: the reply is sent when it completes (R445). -/
  | later (s : State)

/-- How a command is used (R450): whether it changes, its target, whether it may run before READY and during a freeze. -/
structure Use where
  op : Nat
  change : Bool := true
  target : Target := {}
  early : Bool := false
  frozen : Bool := false
  /-- The management lock does not refuse it (R448). -/
  free : Bool := false
  /-- Reserved values that its target or parameters hold (R11, R436, R437). -/
  bad : Option Status := none
  /-- A counter of its own refusals, and its instance. -/
  count : Option (CtrId × Nat) := none

/-- The request that a typed command stands for. -/
def requestInHand (r : ZcpReq) (u : Use) (clock : Nat) : Waiting :=
  { src := r.src, seq := r.seq, op := BitVec.ofNat 16 u.op, target := u.target, ver2 := r.ver2, tag := r.tag
    maxReply := r.maxReply, bytes := r.bytes, started := some clock }

/-- The refusal that a command meets before its own conditions (R436, R448, R450, R548). -/
def State.refusal (s : State) (r : ZcpReq) (u : Use) : Option Ans :=
  match u.bad with
  | some e => some (.err s e)
  | none =>
    if r.ver2 && r.maxReply ≠ 0 && (r.maxReply < 512 || r.maxReply > 9000) then some (.err s .reservedValue)
    else if !u.change then none
    else match s.zcp.lock with
      | some (h, _) =>
        if h ≠ r.src && !u.free then some (.err s .locked none (sourceBytes h))
        else none
      | none => none

/-- The module state refuses a change command (R450). -/
def State.stateRefusal (s : State) (u : Use) : Option Ans :=
  if !u.change then none
  else if !s.boot.ready && !u.early then some (.err (s.bump .zcpRefused) .notReady)
  else if s.dbg.frozen && !u.frozen then some (.err (s.bump .zcpRefused) .frozen)
  else none

/-- The lock ends at lease expiry (R448). -/
def State.dropLock (s : State) : State :=
  match s.zcp.lock with
  | some (_, till) => if till ≤ s.clock then { s with zcp := { s.zcp with lock := none } }.event .lock {} [2] else s
  | none => s

/-- Execute a request that has started, and reply or leave it executing. -/
def State.runZcp (s : State) (w : Waiting) (u : Use) (r : ZcpReq) (body : State → Ans) : State :=
  let s := s.dropLock
  let early := (s.refusal r u).orElse fun _ => s.stateRefusal u
  match early.getD (body s) with
  | .ok s vs => s.reply w u.change .success (items vs)
  | .err s st p i =>
    let s := match u.count with
      | some (c, k) => s.bump c k
      | none => s
    s.reply w u.change st (match p with | some k => items [leBytes 2 k] | none => if i.isEmpty then [] else items [i])
  | .later s =>
    { s with zcp := { s.zcp with
      waiting := s.zcp.waiting.filter (fun x => !(x.src == w.src && x.seq == w.seq)) ++ [{ w with later := true }] } }

/-- One ZCP command (R433 to R450, R548). A request that waits in hand is executed once it has started; one that does not
arrives, and executes at once where it may, or waits, or is answered BUSY (R444). -/
def State.zcpStep (s : State) (r : ZcpReq) (u : Use) (body : State → Ans) : State :=
  if !s.live || !s.accepts r.src then s
  else if !filterAllows s.zcp.filter r.src then s.bump .zcpFiltered
  else match s.zcp.inHand r.src r.seq with
  | some w =>
    if w.started.isSome && w.op.toNat == u.op && !w.later then s.runZcp w u r body
    else ((s.bump .zcpReplayDuplicates).touchSource r.src).sendReply r.src (w.head .inProgress [] 0) r.maxReply 0 []
  | none =>
    match s.zcp.cached r.src r.seq with
    | some e => s.answerDuplicate r.src e r.maxReply r.rfrag
    | none =>
      let w := requestInHand r u s.clock
      let t := s.touchSource r.src
      if s.zcp.takes w then t.runZcp w u r body
      else if (s.zcp.waiting.filter fun x => x.started.isNone).length ≥ 64 then
        (t.bump .zcpBusy).sendReply r.src (w.head .busy [] 0) r.maxReply 0 []
      else { t with zcp := { t.zcp with waiting := t.zcp.waiting ++ [{ w with started := none }] } }

/-- A command that completes later sends its final reply to every request of an opcode that a test selects (R445). -/
def State.finishZcp (s : State) (op : Nat) (p : Waiting → Bool) (change : Bool) (st : Status) (vs : List (List Byte)) : State :=
  (s.zcp.waiting.filter fun w => w.later && w.op.toNat == op && p w).foldl (fun s w => s.reply w change st (items vs)) s

end Sys2Proof.Machine
end

