-- ==== Sys2Proof/Machine/BoardOps.lean ====
section
/-! DEFINITION. Flash and firmware images, pins, lasers off, loss of power, and power-up from the mask ROM (R22 to R37,
R458 to R475). -/

namespace Sys2Proof.Machine

/-! ## Firmware images (R464 to R471) -/

/-- ASCII bytes of a string. -/
def ascii (x : String) : List Byte := x.toUTF8.toList.map fun b => BitVec.ofNat 8 b.toNat

/-- A byte of a bank; an erased byte reads 0xFF (log 24). -/
def Bank.byte (b : Bank) (isB : Bool) (k : Nat) : Byte :=
  if b.manufactured then Config.factoryImage isB k else ((b.cells.find? fun c => c.1 == k).map Prod.snd).getD 0xFF

/-- Bytes of a bank. -/
def Bank.bytes (b : Bank) (isB : Bool) (a n : Nat) : List Byte := (List.range n).map fun k => b.byte isB (a + k)

/-- A field of a bank's image header (R465). -/
def Bank.field (b : Bank) (isB : Bool) (a n : Nat) : Nat := leNat (b.bytes isB a n)

/-- A bank of the flash: false A, true B (R464). -/
def Flash.bank (f : Flash) (isB : Bool) : Bank := if isB then f.bankB else f.bankA

/-- Change a bank. -/
def Flash.setBank (f : Flash) (isB : Bool) (b : Bank) : Flash := if isB then { f with bankB := b } else { f with bankA := b }

/-- Verification of a bank (R466): none when it passes. -/
def Flash.verify (f : Flash) (isB : Bool) : Option Status :=
  let b := f.bank isB
  let g := b.field isB
  let zero (a n : Nat) : Bool := (b.bytes isB a n).all fun x => x == 0
  let len := g 16 4
  let key := b.bytes isB 32 64
  if b.bytes isB 0 4 ≠ ascii "XAFW" || g 4 4 ≠ 1 || g 13 1 ≠ 1 || len < 1 || len > 117407744 ||
    !(zero 14 2 && zero 20 12 && zero 29952 2816) then some .fwInvalid
  else if shake256 64 key ≠ Config.fwKeyHash then some .fwInvalid
  else if !Config.verify key (ascii "XA-4024 FW") (b.bytes isB 0 160) (b.bytes isB 160 29792) then some .fwInvalid
  else if shake256 64 (b.bytes isB 0x8000 len) ≠ b.bytes isB 96 64 then some .fwInvalid
  else if g 12 1 < f.rollback then some .fwRollback
  else none

/-- Attempt count of a bank (R467). -/
def Flash.attempts (f : Flash) (isB : Bool) : Nat := if isB then f.attemptsB else f.attemptsA

/-- Set the attempt count of a bank: the boot record is written over its older copy (R467). -/
def Flash.setAttempts (f : Flash) (isB : Bool) (n : Nat) : Flash :=
  let f := { f with recSeq := f.recSeq + 1 }
  if isB then { f with attemptsB := n } else { f with attemptsA := n }

/-- The mask ROM chooses a bank (R467): the flash after it, and the bank booted. -/
def Flash.choose (f : Flash) : Flash × Option Bool :=
  let (b, f) := if f.attempts f.sel ≥ 3 then (!f.sel, f) else (f.sel, f.setAttempts f.sel (f.attempts f.sel + 1))
  let got : Option Bool := if (f.verify b).isNone then some b else if (f.verify (!b)).isNone then some (!b) else none
  match got with
  | none => (f, none)
  | some g => (if g = f.sel then f else { f with sel := g, recSeq := f.recSeq + 1 }, some g)

/-! ## Pins (R25 to R35) -/

/-- The places of the boundary-scan register, as connector pins in ascending number: every pin but GND, PRESENT_N and the
test port (R25, R28). -/
def scanPins : List Nat := (List.range 22).map (· + 2) ++ [25, 27, 28, 29, 30, 32, 33, 34, 35, 43, 44, 45, 46, 47, 48]

/-- What the module drives on a connector pin, by the pin numbers of R25; none is high-impedance. PRESENT_N is tied low
even without power; every other pin is high-impedance without 48 V (R26). Open-drain outputs are released when they are high.
Under EXTEST the boundary-scan register controls the outputs, but never releases THERMTRIP_N (R29). The idle level of the I3C
pins is high (log 39). -/
def State.drives (s : State) (pin : Nat) : Option Bool :=
  let drain (low : Bool) : Option Bool := if low then some false else none
  let scanned : Bool := s.board.bsr.getLsbD (scanPins.idxOf pin)
  let ext : Bool := s.board.tap == .extest
  if pin = 26 then some false
  else if s.board.vin = 0 then none
  else if 2 ≤ pin && pin ≤ 23 then some (if ext then scanned else true)
  else if pin = 27 then drain (if ext then !scanned else !s.board.pgood)
  else if pin = 28 then drain (s.board.thermtrip || (ext && !scanned))
  else if pin = 30 then drain (if ext then !scanned else s.board.freezeOutLow)
  else none

/-- The level at a connector pin: what the module drives, else what the rack gives it. A released output is pulled high by
the rack or, for SLOT_ID, by the module; reserved pins are left open and their level is free (R25, R35). -/
def State.pinLevel (s : State) (open_ : BitVec 64) (pin : Nat) : Bool :=
  match s.drives pin with
  | some v => v
  | none =>
    if pin = 25 then !s.board.resetLow
    else if pin = 29 then !s.board.freezeInLow
    else if 32 ≤ pin && pin ≤ 35 then s.board.slotPins.getLsbD (pin - 32)
    else if 43 ≤ pin then open_.getLsbD (pin - 43)
    else true

/-! ## Losing power and reset (R22, R31, R32, R463) -/

/-- Laser-off on every bay's bus (R31, R32): EN is written 0, and no watchdog follows. The reset or the shutdown that sends
it has ended EXTEST, so that the buses are the module's again (log 39). -/
def State.lasersOff (s : State) : State :=
  (List.finRange 11).foldl (fun s b =>
    let c := s.bays[b].ctrl &&& 0xFFFF007F#32
    { s with bays := s.bays.set b { s.bays[b] with ctrl := c } }.emit (.i3c b 0x100 (leBytes 4 c.toNat))) s

/-- What neither a loss of power nor a reset loses (R463): flash and fuses, and what the model keeps of its own. -/
def State.blank (s : State) : State :=
  { State.reset with
    clock := s.clock, fresh := s.fresh, flash := s.flash, outbox := s.outbox, pending := s.pending
    board := { s.board with
      rails := false, pgood := false, freezeOutLow := false, slotId := 0, tap := .idcode, bsr := 0, tdo := 0 } }

/-- Every rail is turned off (R22): state is lost. With the 48 V input gone the housekeeping domain goes too (R31, R32); an
input of 0 mV is what counts as gone (log 39). -/
def State.railsOff (s : State) (mv : Nat) : State :=
  let s := s.blank
  { s with board := { s.board with
    vin := mv, inputOff := true
    thermtrip := s.board.thermtrip && mv != 0, railFault := s.board.railFault && mv != 0 } }

/-- Thermal shutdown (R32): THERMTRIP_N is latched, the lasers are commanded off, and the rails are turned off. -/
def State.thermalShutdown (s : State) : State :=
  let s := s.lasersOff.blank
  { s with board := { s.board with thermtrip := true } }

/-- The logic is reset with the rails kept up (R31, R463). -/
def State.resetLogic (s : State) : State :=
  let b := s.lasersOff.blank
  { b with
    board := { b.board with rails := true, pgood := s.board.pgood, slotId := s.board.slotId }
    boot := { b.boot with startT := s.clock }
    sec := { b.sec with rom := s.sec.rom } }

/-! ## Power-up (R458 to R468) -/

/-- The persistent host settings record as the security engine hashes it (R475); its layout is the model's (log 24). -/
def hostRecord (xs : List PersistHost) : List Byte :=
  xs.flatMap fun x => leBytes 1 x.iface ++
    leBytes 2 (x.mgmt.getD 0) ++
    leBytes 1 x.ipv4.length ++ x.ipv4.flatMap (fun a => leBytes 4 a.toNat) ++
    leBytes 1 x.ipv6.length ++ x.ipv6.flatMap (fun a => leBytes 16 a.toNat)

/-- The address table that static settings give: IPv4 at 0 to 3, IPv6 at 4 to 7 (R411). -/
def staticAddrs (v4 : List (BitVec 32)) (v6 : List (BitVec 128)) : Vector (Option (BitVec 128)) 8 :=
  Vector.ofFn fun k => if k.val < 4 then (v4[k.val]?).map (BitVec.setWidth 128) else v6[k.val - 4]?

/-- Apply the persistent host settings (R410, R429). -/
def State.applyPersistent (s : State) : State :=
  s.flash.hostSettings.foldl (fun s x =>
    let s := { s with host := { s.host with mgmtPort := x.mgmt.getD s.host.mgmtPort } }
    if h : x.iface < 16 then
      { s with host := { s.host with ifaces := s.host.ifaces.set x.iface { s.host.ifaces[x.iface] with
          ipv4 := x.ipv4, ipv6 := x.ipv6, addrs := staticAddrs x.ipv4 x.ipv6 } } }
    else s) s

/-- Stacks OFFLINE after training (R37, R208, R209). -/
def trainedStack (b : BootResult) (m : StackIx) : Stack :=
  { offline := b.offlineStacks.contains m, spareUsed := b.sparedStacks.contains m }

/-- The OFFLINE rows: two or more of the 33 physical tiles failed (R36, R460). -/
def offlineRowsOf (failed : List (DieIx × Fin 16 × Fin 33)) : List (DieIx × Fin 16) :=
  ((failed.map fun x => (x.1, x.2.1)).dedup).filter fun r => ((failed.filter fun x => (x.1, x.2.1) == r).dedup).length ≥ 2

/-- The physical tile that the spare mapping binds a logical name to, none in an OFFLINE row: the names take the tiles of
their row in the implementation's order, and the spare stands in for a tile that failed (R9, R458). -/
def Boot.physical (x : Boot) (d : DieIx) (r : Fin 16) (c : Fin 32) : Option (Fin 33) :=
  if x.offlineRows.contains (d, r) then none else
  let p := Config.spareOrder d r c.castSucc
  some (if x.failedTiles.contains (d, r, p) then Config.spareOrder d r 32 else p)

/-- A step that has not ended by its limit ends there (R458, R460). -/
def limitBoot (b : BootResult) : BootResult :=
  { b with hbmNs := min b.hbmNs 5000000000, selftestNs := min b.selftestNs 3000000000, cartridgeNs := min b.cartridgeNs 5050000000 }

/-- Power-up from step 2, the mask ROM (R458, R462, R466 to R475), up to the start of steps 9 and 10. -/
def State.bootUp (s : State) (b : BootResult) : State :=
  let b := limitBoot b
  let selected := s.flash.sel
  let (f, got) := s.flash.choose
  let s := { s with flash := f }
  match got with
  | none => { s with boot := { s.boot with step := .failedVerify } }
  | some bank =>
    let fell := bank != selected
    let img := f.bank bank
    let s := { s with
      boot := { s.boot with
        step := .running, running := bank, fellBack := fell, fwStartT := s.clock
        certMismatch := Config.publicKey != (Config.certificate.drop 40).take 64
        failedTiles := b.failedTiles, offlineRows := offlineRowsOf b.failedTiles, hbmNs := b.hbmNs, selftestNs := b.selftestNs, cartridgeNs := b.cartridgeNs
        linksT := s.clock + b.hbmNs + b.selftestNs + b.cartridgeNs }
      sec := { s.sec with
        firmware := shake256 64 (img.bytes bank 0 160)
        config := shake256 64 (ascii "XA-CFG" ++ hostRecord f.hostSettings)
        plan := List.replicate 64 0, configCount := 0 }
      hbm := Vector.ofFn fun m : Fin 24 => trainedStack b m
      clock := s.clock + b.hbmNs + b.selftestNs
      time := { s.time with
        global := s.time.global + BitVec.ofNat 64 (16 * (b.hbmNs + b.selftestNs)), work := s.time.work + b.hbmNs + b.selftestNs } }
    let s := b.sparedStacks.foldl (fun s m => s.bump .memPcSpared m.val) s
    let s := s.applyPersistent
    if fell then s.setFlag .fwFallback 0 0 else s

end Sys2Proof.Machine
end

