-- ==== Sys2Proof/Machine/Boot.lean ====
section
/-! DEFINITION. Power, reset, READY, the pins and the test port (R22, R28 to R35, R458 to R470). -/

namespace Sys2Proof.Machine

/-- The rails come up and power-up runs (R22, R458): step 1 samples SLOT_ID, measures the mask ROM and starts global time
at 0; a rail that does not regulate ends it (R460). While RESET_N is low it goes no further than the rails (R31). -/
def State.railsOn (s : State) (mv : Nat) (b : BootResult) : State :=
  let s := { s with board := { s.board with vin := mv, inputOff := false } }
  if !b.railsOk then { s with board := { s.board with railFault := true } } else
  let s := { s with
    board := { s.board with rails := true, pgood := true, slotId := s.board.slotPins }
    boot := { s.boot with startT := s.clock }
    sec := { s.sec with rom := Config.romMeasure } }
  if s.board.resetLow then s else s.bootUp b

/-- The input may start the rails (R22, R32, R460). -/
def Board.mayStart (x : Board) (mv : Nat) : Bool :=
  !x.rails && !x.thermtrip && !x.railFault && mv > 39000 && mv ≤ (if x.inputOff then 60000 else 63000)

/-- POWER_UP (R22, R458). -/
def execPowerUp (mv : Nat) (b : BootResult) (s : State) : Out :=
  .next (if s.board.mayStart mv then s.railsOn mv b else { s with board := { s.board with vin := mv } })

/-- INPUT_BACK_IN_RANGE (R22): the rails restart within 39.0 V to 60.0 V. -/
def execInputBackInRange (mv : Nat) (b : BootResult) (s : State) : Out :=
  .next (if s.board.mayStart mv && s.board.inputOff then s.railsOn mv b else { s with board := { s.board with vin := mv } })

/-- INPUT_UNDERVOLTAGE (R22, R31). -/
def execInputUndervoltage (mv : Nat) (s : State) : Out := when_ s (mv < 37000) fun s => s.railsOff mv

/-- INPUT_OVERVOLTAGE (R22). That an input above the absolute maxima of R534 may damage the module is left out (log 39). -/
def execInputOvervoltage (mv : Nat) (s : State) : Out := when_ s (mv > 63000) fun s => s.railsOff mv

/-- RAIL_FAULT (R30): PGOOD is pulled low. The test port keeps its instruction and its register (log 39). -/
def execRailFault (s : State) : Out :=
  when_ s s.board.rails fun s => { s with board := { s.board with pgood := false } }

/-- RESET_N_ASSERT (R31): no effect while THERMTRIP_N is latched. -/
def execResetNAssert (s : State) : Out :=
  .next (
    let s := if s.board.rails && !s.board.thermtrip && !s.board.resetLow then s.resetLogic else s
    { s with board := { s.board with resetLow := true } })

/-- RESET_N_RELEASE (R31, R462): power-up continues from the mask ROM step. -/
def execResetNRelease (b : BootResult) (s : State) : Out :=
  when_ s s.board.resetLow fun s =>
    let s := { s with board := { s.board with resetLow := false } }
    if s.board.rails && !s.board.thermtrip then s.bootUp b else s

/-- BOOT_WATCHDOG (R460): 40 s from firmware start without READY; power-up runs again from step 2. -/
def execBootWatchdog (b : BootResult) (s : State) : Out :=
  when_ s (s.live && !s.boot.ready && s.boot.fwStartT + 40000000000 ≤ s.clock) fun s => s.resetLogic.bootUp b

/-- Fuses are blown one by one until the counter equals SVN; a bank that falls behind reads ROLLBACK (R470, R472). -/
def State.advanceRollback (s : State) : State :=
  let f := s.flash
  let svn := (f.bank s.boot.running).field s.boot.running 12 1
  if svn ≤ f.rollback || svn > 64 then s else
  let other := !s.boot.running
  let f := { f with rollback := svn }
  let b := f.bank other
  { s with flash := if b.field other 12 1 < svn && b.state != .empty then f.setBank other { b with state := .rollback } else f }

/-- The module is READY (R459, R467, R470). -/
def State.becomeReady (s : State) : State :=
  let s := { s with
    boot := { s.boot with
      ready := true, totalNs := s.clock - s.boot.startT }
    flash := s.flash.setAttempts s.boot.running 0 }
  let s := s.advanceRollback.event .ready {} [1]
  if !s.board.freezeInLow then s else
  let (v, s) := s.free
  if v.getLsbD 0 then (s.bump .boardFreezeInEvents).freeze .pin 0
  else { s with board := { s.board with freezeInLow := false } }

/-- READY (R459, R467, R470): steps 9 and 10 have both ended, which the tick finds. A FREEZE_IN_N that is low starts a freeze at once (R33); whether the pin is still low then is its outside's (log 25). -/
def execReady (s : State) : Out :=
  when_ s (s.live && !s.boot.ready && !s.dbg.frozen && s.boot.ethernetNs.isSome && s.boot.fabricNs.isSome) fun s => s.becomeReady

/-- FREEZE_IN_N_FALL (R33, R34): ignored until READY, and by a frozen module. -/
def execFreezeInNFall (s : State) : Out :=
  .next (
    let s := { s with board := { s.board with freezeInLow := true } }
    if s.live && s.boot.ready && !s.dbg.frozen then (s.bump .boardFreezeInEvents).freeze .pin 0
    else if s.live && s.boot.ready then s.freeze .pin 0 else s)

/-- SLOT_ID_CHANGE (R35). -/
def execSlotIdChange (pins : BitVec 4) (s : State) : Out :=
  .next (
    let s' := { s with board := { s.board with slotPins := pins } }
    if s.board.rails && pins != s.board.slotPins then s'.bump .boardSlotIdChanged else s')

/-! ## Test port (R28, R29) -/

/-- JTAG_BYPASS (R28). -/
def execJtagBypass (s : State) : Out :=
  when_ s s.board.pgood fun s => { s with board := { s.board with tap := .bypass } }

/-- JTAG_IDCODE (R28). -/
def execJtagIdcode (s : State) : Out :=
  when_ s s.board.pgood fun s => { s with board := { s.board with
    tap := .idcode
    tdo := BitVec.ofNat 37 (Config.siliconRev.toNat * 2 ^ 28 + 0x4024 * 2 ^ 12 + Config.jep106.toNat * 2 + 1) } }

/-- JTAG_SAMPLE_PRELOAD (R28): the pins are captured and the boundary-scan register is preloaded. -/
def execJtagSamplePreload (preload : BitVec 37) (s : State) : Out :=
  when_ s s.board.pgood fun s =>
    let (v, s) := s.free
    let bits := (List.range 37).map fun k => if s.pinLevel v (scanPins.getD k 0) then 2 ^ k else 0
    { s with board := { s.board with tap := .samplePreload, tdo := BitVec.ofNat 37 bits.sum, bsr := preload } }

/-- JTAG_EXTEST (R29): the boundary-scan register drives the output pins (State.drives), and no laser enable is sent. -/
def execJtagExtest (s : State) : Out :=
  when_ s s.board.pgood fun s => { s with board := { s.board with tap := .extest } }

end Sys2Proof.Machine
end

