-- ==== Sys2Proof/Machine/FabricOps.lean ====
section
/-! DEFINITION. What every fabric command shares: identity, ports, the outstanding request table, the peer list,
sending and retransmitting, where a job's tile memory lies, and the fabric moves of a tile (R229, R246, R262 to R291). -/

namespace Sys2Proof.Machine

/-! ## Where a job's tile SRAM lies (R235, R246) -/

/-- Stacks of a die that are online (R37, R235). -/
def State.onlineStacks (s : State) (d : Nat) : List Nat :=
  (List.range 4).filter fun k => !((s.hbm.toArray[4 * d + k]?.map Stack.offline).getD true)

/-- Physical base of a tile's block in the job's save areas (R235). -/
def State.saveBlock (s : State) (j : Job) (t : Nat) : Option Nat :=
  let d := t / 512
  let on := s.onlineStacks d
  let mine := (jobTiles j.p).filter fun u => u / 512 == d
  match mine.findIdx? (· == t) with
  | none => none
  | some i =>
    if on.isEmpty then none else
    match on[i % on.length]? with
    | none => none
    | some k => ((j.p.saveBases[d]?).bind fun bs => bs[k]?).map fun b => b + 4096 + i / on.length * 0x147000

/-- Physical base of a tile's SRAM as one job sees it: on the tile while the job holds it, in the save area while the job
is saved (R246). -/
def State.sramOf (s : State) (j : Job) (t : Nat) : Option Nat :=
  if (s.tile t).job == j.id && (s.tile t).prepared && !s.heldByOther j.id t then some (sramBase t)
  else if j.state == .preempted || j.state == .idle then s.saveBlock j t
  else none

/-- Where an inbound access to a physical address goes for the job that owns the window: an address, or none where it must
be retried (R246). A tile of a DONE or ENDED job that another job holds is retried as well (log 20). -/
def State.redirect (s : State) (j : Job) (a : Nat) : Option Nat :=
  match tileOf a with
  | none => some a
  | some t =>
    if !jobHas j.p t then some a else
    match s.sramOf j t with
    | some b => some (b + a % sramSize)
    | none => if (j.state == .done || j.state == .ended) && !s.heldByOther j.id t then some a else none

/-! ## The outstanding request table (R276, R277) -/

/-- A tile owns an entry. -/
def OrtOwner.ofTile (o : OrtOwner) (t : Nat) : Bool := match o with | .move _ u _ _ => u == t | .coll _ _ _ => false

/-- The collective engine owns an entry. -/
def OrtOwner.isColl (o : OrtOwner) : Bool := match o with | .coll _ _ _ => true | .move _ _ _ _ => false

/-- An entry can be allocated (R276). -/
def State.canAlloc (s : State) (o : OrtOwner) : Bool :=
  let live := s.fab.ort
  live.length < 16384 && (s.fab.nextSeq - s.low).toNat < 2 ^ 22 &&
  (match o with
   | .coll _ _ _ => true
   | .move _ t _ _ => (live.filter fun e => !e.owner.isColl).length < 14336 && (live.filter fun e => e.owner.ofTile t).length < 2048)

/-- Bring a destination into the peer list, at its full rate; a full list gives up the least recently used (R281, R289). -/
def State.touchPeer (s : State) (dst : BitVec 16) : State :=
  match s.fab.peers.find? fun p => p.dst == dst with
  | some _ => s.modFab fun f => { f with peers := mapIf (fun p => p.dst == dst) (fun p => { p with used := s.time.work }) f.peers }
  | none =>
    let new : Peer := { dst := dst, used := s.time.work, lastRaise := s.time.work }
    if s.fab.peers.length < 1024 then s.modFab fun f => { f with peers := f.peers ++ [new] }
    else
      let oldest := s.fab.peers.foldl (fun (a : Option Peer) p =>
        match a with | none => some p | some q => if p.used < q.used then some p else some q) none
      match oldest with
      | none => s
      | some o => (s.sendLow o.dst).modFab fun f => { f with peers := (f.peers.filter fun p => p.dst != o.dst) ++ [new] }

/-- Count a request packet on its way out (R293). -/
def State.countTx (s : State) (q : Request) : State := (s.bump .fabTxPackets).bump .fabTxBytes 0 0 q.payload.length

/-- First send of a request: SEQ, ORT entry, ordered predecessor (R276, R284). -/
def State.sendReq (s : State) (q : Request) (o : OrtOwner) (only : Option PortIx := none) : State :=
  let seq := s.fab.nextSeq
  let prev := if q.ord then
      ((s.fab.lastOrd.find? fun x => x.1 == q.dst).map Prod.snd).filter fun x => s.fab.ort.any fun e => e.seq == x
    else none
  let q := { q with seq := seq, src := s.fid.getD 0xFFFF, opv := prev.isSome, oprev := prev.getD 0 }
  let s := s.modFab fun f => { f with
    nextSeq := seq + 1
    ort := f.ort ++ [{ seq := seq, q := q, owner := o, first := s.time.work, last := s.time.work }]
    lastOrd := if q.ord then (q.dst, seq) :: f.lastOrd.filter (fun x => x.1 != q.dst) else f.lastOrd }
  (((s.bump .fabOrtIssued).countTx q).touchPeer q.dst).inject (reqPkt q) none only

/-- Change one ORT entry. -/
def State.modOrt (s : State) (seq : BitVec 24) (f : Ort → Ort) : State :=
  s.modFab fun x => { x with ort := mapIf (fun e => e.seq == seq) f x.ort }

/-- A live entry. -/
def State.entry (s : State) (seq : BitVec 24) : Option Ort := s.fab.ort.find? fun e => e.seq == seq

/-- Retransmit a live entry with its SEQ, EPOCH and payload (R282). -/
def State.resend (s : State) (e : Ort) (cause : CtrId) (avoid : Option PortIx := none) : State :=
  let s := s.modOrt e.seq fun e => { e with last := s.time.work, wait := .none }
  ((s.bump cause).countTx e.q).inject (reqPkt e.q) avoid

/-- Retire an entry; its destination is due a LOW_MARK, and an ordered packet that waits for it is sent again (R277, R281,
R282). -/
def State.retire (s : State) (e : Ort) : State :=
  let s := s.modFab fun f => { f with
    ort := f.ort.filter fun x => x.seq != e.seq }
  let s := (s.touchPeer e.q.dst).modFab fun f => { f with
    peers := mapIf (fun p => p.dst == e.q.dst) (fun p => { p with retired := true }) f.peers }
  (s.fab.ort.filter fun x => x.wait == .order && x.q.opv && x.q.oprev == e.seq && x.q.dst == e.q.dst).foldl
    (fun s x => s.resend x .fabTxRetransmitOrder) s

/-- A receipt with CE halves the rate to its sender, at most once in 8 µs; 8 µs without CE count from it (R289). -/
def State.cutRate (s : State) (dst : BitVec 16) : State :=
  let s := s.modFab fun f => { f with peers := mapIf (fun p => p.dst == dst) (fun p => { p with lastRaise := s.time.work }) f.peers }
  match s.fab.peers.find? fun p => p.dst == dst with
  | none => s
  | some p =>
    if (p.lastCut.map fun t => decide (t + 8000 ≤ s.time.work)).getD true then
      (s.modFab fun f => { f with
        peers := mapIf (fun p => p.dst == dst) (fun p => { p with rate := max 1 (p.rate / 2), lastCut := some s.time.work }) f.peers }).bump
        .fabCongRateCuts
    else s

/-! ## Fabric moves of a tile (R162, R229, R269 to R274) -/

/-- A tile as a job sees it, whether it holds the tile or is saved. -/
def State.modJobTile (s : State) (job : BitVec 12) (t : Nat) (f : Tile → Tile) : State :=
  match (s.job job).bind fun j => j.saved.find? fun x => x.tile == t with
  | some _ => s.modJob job fun j => { j with saved := mapIf (fun x => x.tile == t) (fun x => { x with st := f x.st }) j.saved }
  | none => if (s.tile t).job == job then s.modTile t f else s

/-- A tile as a job sees it. -/
def State.jobTile (s : State) (job : BitVec 12) (t : Nat) : Option Tile :=
  match (s.job job).bind fun j => j.saved.find? fun x => x.tile == t with
  | some x => some x.st
  | none => if (s.tile t).job == job then some (s.tile t) else none

/-- A decoded move or one that has completed with packets outstanding. -/
def Tile.fabMove (x : Tile) (id : Nat) : Option QMove := (x.queue ++ x.late).find? fun m => m.id == id

/-- Change a decoded move or one that has completed with packets outstanding. -/
def Tile.modFabMove (x : Tile) (id : Nat) (f : QMove → QMove) : Tile :=
  { x with queue := mapIf (fun m => m.id == id) f x.queue, late := mapIf (fun m => m.id == id) f x.late }

/-- The operands of a fabric move (R162). -/
structure FabSpec where
  op : Nat
  fid : BitVec 16
  ord : Bool
  rten : Bool
  rtal : Nat
  rtile : Nat
  len : Nat
  waddr : Nat
  lk : Nat
  laddr : Nat
  lten : Bool
  ltal : Nat
  aop : Nat
  deriving DecidableEq, Repr

/-- The fields of a fabric move (R162). -/
def fabSpec (w : MoveWord) (r : Regs) : FabSpec :=
  { op := Hdr.op w, fid := BitVec.ofNat 16 (fld w 47 32), ord := bit w 48, rten := bit w 56, rtal := fld w 55 50, rtile := fld w 68 57
    len := fld w 127 96, waddr := fld w 175 128, lk := fld w 230 229, laddr := (kindRef w 176 (fld w 230 229)).addr r
    lten := bit w 237, ltal := fld w 236 231, aop := fld w 72 69 }

/-- Operand width of an ATOMIC in bytes (R162, R271). -/
def aopWidth (aop : Nat) : Nat := if aop ∈ [0, 2, 3, 5, 7, 8, 10, 12, 13] then 4 else 8

/-- Packets of a fabric move (R269 to R272). -/
def FabSpec.packets (c : FabSpec) : Nat := if c.op = 0x41 || c.op = 0x42 then ceilDiv c.len 256 else 1

/-- Payload of packet i of a move: its bytes, or the fault that its source meets (R269, R300). -/
def State.fabPayload (s : State) (t : Nat) (j : Job) (m : QMove) (c : FabSpec) (i : Nat) : State × Except Suspend (List Byte) :=
  if c.op = 0x41 then
    let n := min 256 (c.len - 256 * i)
    let a := c.laddr + 256 * i
    if c.lk = 1 then s.readJob (unitOfTile t) j a n true else
    match s.sramPoison t a n with
    | some p => (s, .error { status := .poison, addr := max a (p % sramSize), phys := p })
    | none => (s, .ok (s.sram t a n))
  else if c.op = 0x43 then
    let w := aopWidth c.aop
    let a := (m.regs.get (fld m.w 77 73)).toNat % 2 ^ (8 * w)
    let b := (m.regs.get (fld m.w 82 78)).toNat % 2 ^ (8 * w)
    (s, .ok (if c.aop ≥ 13 then leBytes w b ++ leBytes w a else leBytes w a))
  else if c.op = 0x44 then (s, .ok (leBytes 4 c.len))
  else (s, .ok [])

/-- Packet i of a fabric move (R263, R268 to R272). -/
def fabRequest (j : Job) (m : QMove) (c : FabSpec) (i : Nat) (bs : List Byte) : Request :=
  { dst := c.fid, src := 0, cls := if j.p.periodic then 3 else 0, job := j.id
    op := BitVec.ofNat 4 (c.op - 0x41), aop := if c.op = 0x43 then BitVec.ofNat 4 c.aop else 0
    ord := c.ord, last := i + 1 == c.packets, epoch := if j.p.periodic then m.epoch else 0, seq := 0
    len := BitVec.ofNat 9 (if c.op = 0x42 then min 256 (c.len - 256 * i) else bs.length)
    rten := (c.rten && c.op != 0x42) || c.op == 0x44, rtal := BitVec.ofNat 6 c.rtal, rtile := BitVec.ofNat 12 c.rtile
    waddr := BitVec.ofNat 48 (c.waddr + if c.op = 0x41 || c.op = 0x42 then 256 * i else 0), payload := bs }

/-- Live entries of a decoded move (R276). -/
def State.outstanding (s : State) (job : BitVec 12) (t id : Nat) : Nat :=
  (s.fab.ort.filter fun e => match e.owner with | .move j u k _ => j == job && u == t && k == id | .coll _ _ _ => false).length

/-- The addresses and the bytes at which a fabric move stands after so many packets (R228, R229). -/
def FabSpec.stand (c : FabSpec) (done : Nat) : Nat × Nat × Nat :=
  let bytes := if c.op = 0x41 || c.op = 0x42 then min c.len (256 * done) else 0
  if c.op = 0x42 then (c.waddr + bytes, c.laddr + bytes, bytes) else (c.laddr + bytes, c.waddr + bytes, bytes)

/-- Suspend a fabric move whose outstanding packets have all been answered (R229): it returns to the queue if it had
already completed. -/
def State.suspendFab (s : State) (t : Nat) (m : QMove) (f : Suspend) : State :=
  let c := fabSpec m.w m.regs
  let s := s.modTile t fun x => { x with
    late := x.late.filter fun y => y.id != m.id
    queue := if x.queue.any fun y => y.id == m.id then mapIf (fun y => y.id == m.id) (fun y => { y with failing := none }) x.queue
      else { m with failing := none } :: x.queue }
  let (nsrc, ndst, bytes) := c.stand m.done
  s.suspend t m 4 f nsrc ndst bytes

/-- Advance one fabric move (R229, R269): send what its span and the ORT admit; complete or suspend it. -/
def State.pump (t id : Nat) : Nat → State → State
  | 0, s => s
  | n + 1, s =>
    match (s.tile t).fabMove id, s.job (s.tile t).job with
    | some m, some j =>
      let c := fabSpec m.w m.regs
      let out := s.outstanding j.id t id
      let inQueue := (s.tile t).queue.any fun y => y.id == id
      match m.failing with
      | some f => if out = 0 then s.suspendFab t m f else s
      | none =>
        if m.suspended then s
        else if !inQueue then
          (if out = 0 then s.modTile t fun x => { x with late := x.late.filter fun y => y.id != id } else s)
        else if m.next < c.packets then
          if !(s.tile t).copyRuns m || m.next ≥ m.done + 256 then s
          else if m.sent.contains m.next then
            State.pump t id n (s.modMove t id fun m => { m with next := m.next + 1 })
          else if !s.canAlloc (.move j.id t id m.next) then s.modMove t id fun m => { m with state := .started }
          else
            match s.fabPayload t j m c m.next with
            | (s, .error f) => State.pump t id n (s.modMove t id fun m => { m with failing := some f, state := .started })
            | (s, .ok bs) =>
              let s := s.modMove t id fun m => { m with next := m.next + 1, state := .started }
              State.pump t id n (s.sendReq (fabRequest j m c m.next bs) (.move j.id t id m.next))
        else
          let waits := c.op == 0x42 || (c.op == 0x43 && (lateWrite m.w).isSome)
          if m.completed then
            s.modTile t fun x => { x with
              queue := x.queue.filter fun y => y.id != id
              late := if out = 0 then x.late else x.late ++ [{ m with state := .done }] }
          else if !waits || out = 0 then s.modMove t id fun m => { m with state := .done } else s
    | _, _ => s

/-- A local SIGNAL is applied (R272); one of an old epoch is discarded (R254). -/
def State.localSignal (s : State) (t : Nat) (j : Job) (m : QMove) : State :=
  let c := fabSpec m.w m.regs
  if (s.tile t).copyRuns m && m.state == .queued then
    (if s.expired j m then s.countExpired j 1 else s.arrive j.id c.rtile c.rtal c.len).modMove t m.id fun m =>
      { m with state := .done }
  else s

/-- Let every fabric move of a tile advance in decode order (R136, R269), while the tile's units may run. -/
def State.kickFab (s : State) (t : Nat) : State :=
  match s.job (s.tile t).job with
  | none => s
  | some j =>
    let x := s.tile t
    let runs := s.working && j.preempt.isNone && !j.saving
    let ms := x.late ++ x.queue.filter fun m => 0x41 ≤ Hdr.op m.w && Hdr.op m.w ≤ 0x44
    ms.foldl (fun s m =>
      if Hdr.op m.w = 0x44 && bit m.w 49 then (if runs && s.tileRuns t then s.localSignal t j m else s)
      else if runs && s.tileRuns t || m.failing.isSome || x.late.any (fun y => y.id == m.id) then s.pump t m.id 600 else s) s

/-- Packet ix of a move has been receipted (R228, R229). -/
def QMove.receipted (m : QMove) (ix : Nat) : QMove :=
  let sent := ix :: m.sent
  let done := (List.range 257).foldl (fun d _ => if sent.contains d then d + 1 else d) m.done
  { m with done := done, sent := sent.filter fun k => k ≥ done }

/-- Record the receipt of a packet with its owner, and let the tile's moves go on. -/
def State.credited (s : State) (o : OrtOwner) : State :=
  match o with
  | .move job t id ix => (s.modJobTile job t fun x => x.modFabMove id fun m => m.receipted ix).kickFab t
  | .coll _ _ _ => s

/-- The move that an entry belongs to, if it still exists. -/
def State.ownerMove (s : State) (o : OrtOwner) : Option QMove :=
  match o with
  | .move job t id _ => (s.jobTile job t).bind fun x => x.fabMove id
  | .coll _ _ _ => none

/-- A move fails on the answer to one of its packets: it sends no more, and faults once the rest are answered
(R229, R291). -/
def State.failMove (s : State) (o : OrtOwner) (f : Suspend) : State :=
  match o with
  | .move job t id _ =>
    (s.modJobTile job t fun x => x.modFabMove id fun m => { m with failing := some (m.failing.getD f) }).kickFab t
  | .coll _ _ _ => s

end Sys2Proof.Machine
end

