-- ==== Sys2Proof/Machine/CollOps.lean ====
section
/-! DEFINITION. The collective engine: its steps, its packets, its shares in the switch, results and faults
(R383 to R405). -/

namespace Sys2Proof.Machine

/-- Size of a group (R381). -/
def Group.size (g : Group) : Nat := g.fids.length

/-- CRC-16 of R298 over the definition of a record: bytes 0–39 and 60–71 in order, each most significant bit first
(R382). -/
def defCrc (r : GroupRecord) : Nat :=
  let bs := (List.range 40 ++ (List.range 12).map (· + 60)).map fun k => recField r k 1
  (crc16 (bs.flatMap fun b => (List.range 8).map fun k => b.testBit (7 - k))).toNat

/-- THRESH, CTIMEOUT in ns, ESC_WAIT and ESC_TIMEOUT in ns (R380). -/
def Group.thresh (g : Group) : Nat := if recField g.record 60 4 = 0 then 65536 else recField g.record 60 4
def Group.ctimeout (g : Group) : Nat := (if recField g.record 64 4 = 0 then 1000 else recField g.record 64 4) * 1000000
def Group.escWait (g : Group) : Nat := (if recField g.record 68 2 = 0 then 1000 else recField g.record 68 2) * 1000
def Group.escTimeout (g : Group) : Nat := (if recField g.record 70 2 = 0 then 100 else recField g.record 70 2) * 1000

/-- DTYPE of an issue. -/
def Issue.fmt (c : Issue) : Fmt := (collFmt c.dtype).getD .fp32
/-- Values travel wide (R391). -/
def Issue.wide (c : Issue) : Bool := carriesWide c.op c.rop c.fmt
/-- Bytes of a travelling data element. -/
def Issue.eb (c : Issue) : Nat := if c.wide then 4 else elemBytes c.fmt
/-- A step's data travel wide: partial sums of a BF16 or FP16 reduction (R391). -/
def Issue.stepWide (c : Issue) (final : Bool) : Bool := c.wide && !final
/-- Size per rank S (R383). -/
def Issue.size (c : Issue) : Nat := c.count * elemBytes c.fmt

/-- Bytes that this member reads from SRC and writes to DST (R383). -/
def Issue.srcBytes (c : Issue) (g : Group) : Nat :=
  if c.op = 3 && g.rank ≠ c.root then 0 else srcElems c.op g.size c.count * elemBytes c.fmt
def Issue.dstBytes (c : Issue) (g : Group) : Nat :=
  if c.op = 4 && g.rank ≠ c.root then 0 else dstElems c.op g.size c.count * elemBytes c.fmt

/-- SRC equals DST, which R383 allows for all-reduce and broadcast. -/
def Issue.inPlace (c : Issue) : Bool := c.src == c.dst && (c.op == 0 || c.op == 3)

/-- SRC and DST overlap otherwise, which leaves DST undefined (R383). -/
def Issue.overlaps (c : Issue) (g : Group) : Bool :=
  !c.inPlace && 0 < c.srcBytes g && 0 < c.dstBytes g && c.src < c.dst + c.dstBytes g && c.dst < c.src + c.srcBytes g

/-- The steps of a part (R393). -/
def partSteps (g : Group) (c : Issue) (x : Part) : List CStep :=
  collSteps c.op g.size g.rank c.root c.count x.lo x.hi (c.size ≤ g.thresh)

/-- The whole operation vector as this member contributes it, in the travelling format (R383, R384). -/
def State.collLoad (s : State) (j : Job) (g : Group) (c : Issue) : State × Except Suspend (List Nat) :=
  let f := c.fmt
  let n := g.size
  let read (k : Nat) : State × Except Suspend (List Nat) :=
    match s.readJob 6 j c.src (k * elemBytes f) with
    | (s, .error e) => (s, .error e)
    | (s, .ok bs) =>
      let cs := (List.range k).map fun i => eltAt bs f.width i
      if f == .ax96 && opReduces c.op then
        (s.bump .collAx96Invalid 0 0 (cs.filter ax96Invalid).length, .ok (cs.map fun v => Ax.code (Ax.ofCode v)))
      else (s, .ok (cs.map (widen c.wide f)))
  let place (len at_ : Nat) (xs : List Nat) : List Nat := List.replicate at_ 0 ++ xs ++ List.replicate (len - at_ - xs.length) 0
  match c.op with
  | 6 => (s, .ok [])
  | 2 =>
    match read c.count with
    | (s, .ok xs) => (s, .ok (place (n * c.count) (g.rank * c.count) xs))
    | r => r
  | 3 => if g.rank = c.root then read c.count else (s, .ok (List.replicate c.count 0))
  | 5 =>
    match read (n * c.count) with
    | (s, .ok xs) => (s, .ok (xs ++ place (n * c.count) (g.rank * c.count) ((xs.drop (g.rank * c.count)).take c.count)))
    | r => r
  | op => read (vecLen op n c.count)

/-! ## Packets -/

/-- The next usable port from k upwards, in the switched topology (R393). -/
def State.planePort (s : State) (k : Nat) : Option PortIx :=
  let direct := (s.fab.plan.map fun p => (p[6]?).getD 0 == 1).getD false
  if direct then none else
  ((List.range 16).map fun i => (⟨(k + i) % 16, Nat.mod_lt _ (by decide)⟩ : PortIx)).find? fun p => s.ports[p].usable

/-- Cut the elements [lo, hi) of a step for one rank into packets of at most 240 bytes (R391); `off` bytes of the step go
before them. -/
def cutElems (c : Issue) (wide : Bool) (phase dst lo hi off : Nat) (vals : List Nat) : List CollPkt :=
  let eb := if wide then 4 else elemBytes c.fmt
  let per := 240 / eb
  if lo = hi then [⟨dst, phase, lo, off, wide, []⟩] else
  (List.range (ceilDiv (hi - lo) per)).map fun k =>
    let a := lo + k * per
    ⟨dst, phase, a, off + k * per * eb, wide,
     ((vals.drop a).take (min per (hi - a))).flatMap fun v => leBytes eb (narrow (c.wide && !wide) c.fmt v)⟩

/-- The packets of a step, in the order of its sends (R393). -/
def cutStep (c : Issue) (wide : Bool) (phase : Nat) (sends : List (Nat × Nat × Nat)) (vals : List Nat) : List CollPkt :=
  let eb := if wide then 4 else elemBytes c.fmt
  (sends.foldl (fun (acc : List CollPkt × Nat) y =>
    (acc.1 ++ cutElems c wide phase y.1 y.2.1 y.2.2 acc.2 vals, acc.2 + (y.2.2 - y.2.1) * eb)) ([], 0)).1

/-- The REQUEST that carries a data packet (R391). CWADDR is that of the own record (log 22). -/
def collRequest (g : Group) (x : Ctx) (c : Issue) (periodic : Bool) (k : CollPkt) (last : Bool) : Request :=
  let hdr := leBytes 2 x.group.toNat ++ leBytes 2 g.rank ++ leBytes 4 x.seq.toNat ++ leBytes 1 k.phase ++
    leBytes 1 (if k.wide then 1 else 0) ++ leBytes 2 (defCrc g.record) ++ leBytes 4 k.elem
  { dst := (g.fids[k.dst]?).getD 0xFFFF, src := 0, cls := if periodic then 3 else 2, job := x.job, op := 0, last := last
    epoch := if periodic then c.epoch else 0, seq := 0, len := BitVec.ofNat 9 (16 + k.bytes.length)
    waddr := BitVec.ofNat 48 (recField g.record 40 6), payload := hdr ++ k.bytes }

/-- Send what a context has to send while the ORT admits it (R273, R276). -/
def State.collPump (g : BitVec 16) (q : BitVec 32) : Nat → State → State
  | 0, s => s
  | n + 1, s =>
    match s.ctx g q, s.group g with
    | some x, some gr =>
      match x.issue, x.out with
      | some c, k :: rest =>
        let o := OrtOwner.coll g q x.nextIx
        if x.held || !s.working || !s.canAlloc o then s else
        let per := ((s.job x.job).map fun j => j.p.periodic).getD false
        let s := (s.modCtx g q fun x => { x with out := rest, nextIx := x.nextIx + 1 }).bump .collTxBytes 0 0 k.bytes.length
        State.collPump g q n (s.sendReq (collRequest gr x c per k rest.isEmpty) o (s.planePort (k.off / 262144 % 16)))
      | _, _ => s
    | _, _ => s

/-! ## Endpoint algorithm -/

/-- Bytes of an element of a data packet (R391). -/
def Datum.eb (d : Datum) (c : Issue) : Nat := if c.wide && d.wide then 4 else elemBytes c.fmt

/-- The element e of a step from a rank, in the travelling format, where it has arrived. -/
def datumElem (data : List Datum) (c : Issue) (p phase e : Nat) : Option Nat :=
  (data.find? fun d => d.src == p && d.phase == phase && d.elem ≤ e && e < d.elem + d.bytes.length / d.eb c).map fun d =>
    widen (c.wide && !d.wide) c.fmt (eltAt d.bytes (8 * d.eb c) (e - d.elem))

/-- Elements [lo, hi) of a step from a rank, where all have arrived; for no elements, that its packet has. -/
def datumRange (data : List Datum) (c : Issue) (p phase lo hi : Nat) : Option (List Nat) :=
  if lo = hi then (if data.any fun d => d.src == p && d.phase == phase then some [] else none)
  else ((List.range (hi - lo)).map fun k => datumElem data c p phase (lo + k)).foldr
    (fun a b => match a, b with | some x, some xs => some (x :: xs) | _, _ => none) (some [])

/-- Put received elements into the vector (R384, R394). -/
def applyRecv (c : Issue) (vals : List Nat) (lo : Nat) (xs : List Nat) (how : Comb) : List Nat :=
  let f := carryFmt c.op c.rop c.fmt
  let base := match how with | .setAt b => b | _ => lo
  vals.take base ++
  (match how with
   | .left => (xs.zip (vals.drop lo)).map fun p => combineElem f c.rop p.1 p.2
   | .right => ((vals.drop lo).zip xs).map fun p => combineElem f c.rop p.1 p.2
   | _ => xs) ++ vals.drop (base + xs.length)

/-- Advance a part as far as its data allow (R393): the part, packets to send, and the data consumed. -/
def partRun (g : Group) (c : Issue) : Nat → Part → List Datum → List CollPkt → Part × List Datum × List CollPkt
  | 0, x, data, out => (x, data, out)
  | n + 1, x, data, out =>
    match (partSteps g c x)[x.step]? with
    | none => ({ x with done := true }, data, out)
    | some st =>
      let use (lo hi : Nat) : Bool := lo < hi || c.op == 6
      let out := if x.sent then out
        else out ++ cutStep c (c.stepWide st.final) x.step (st.sends.filter fun y => use y.2.1 y.2.2) x.vals
      let x := { x with sent := true }
      let rs := st.recvs.filter fun y => use y.2.1 y.2.2.1
      let got := rs.map fun y => datumRange data c y.1 x.step y.2.1 y.2.2.1
      if got.any Option.isNone then (x, data, out) else
      let vals := (rs.zip got).foldl (fun v y => applyRecv c v y.1.2.1 (y.2.getD []) y.1.2.2.2) x.vals
      let data := mapIf (fun d => d.phase == x.step && rs.any fun y => y.1 == d.src && y.2.1 ≤ d.elem && (d.elem < y.2.2.1 || c.op == 6))
        (fun d => { d with used := true, bytes := d.bytes }) data
      partRun g c n { x with vals := vals, step := x.step + 1, sent := false } data out

/-! ## Results and faults -/

/-- Where element i of the operation's vector is written at this member, if it is (R383). -/
def dstIndex (g : Group) (c : Issue) (i : Nat) : Option Nat :=
  match c.op with
  | 1 => if g.rank * c.count ≤ i && i < (g.rank + 1) * c.count then some (i - g.rank * c.count) else none
  | 4 => if g.rank = c.root then some i else none
  | 5 => if g.size * c.count ≤ i then some (i - g.size * c.count) else none
  | 6 => none
  | _ => some i

/-- A floating-point sum, which an unordered grant makes non-deterministic (R402). -/
def Issue.fpSum (c : Issue) : Bool := opReduces c.op && c.rop == 0 && (c.fmt == .fp32 || c.fmt == .bf16 || c.fmt == .fp16)

/-- A plane qualifies for a collective (R396). -/
def State.planeQualifies (s : State) (g : Group) (p : PortIx) : Bool :=
  let direct := (s.fab.plan.map fun b => (b[6]?).getD 0 == 1).getD false
  recField g.record 4 1 % 2 = 1 && !direct && s.ports[p].usable && s.ports[p].rev == 0x12 &&
  ((s.ports[p].peer.map fun i => i.caps.getLsbD 3).getD false)

/-- The algorithm of a collective (R386, R393): 0 in the switch, where a plane qualifies, else that of the endpoint. -/
def State.collAlgo (s : State) (g : Group) (c : Issue) : Nat :=
  let small := decide (c.size ≤ g.thresh)
  if (opReduces c.op || c.op == 6) && small && (List.finRange 16).any (s.planeQualifies g) then 0 else algoOf c.op small

/-- The algorithm of a context is chosen; the first choice counts (R393, R406). -/
def State.collChoose (s : State) (g : Group) (x : Ctx) (c : Issue) : State × Ctx :=
  let a := s.collAlgo g c
  let s := if x.algo.isSome then s else
    s.bump (match a with | 0 => .collAlgoSwitch | 1 => .collAlgoDoubling | 2 => .collAlgoHalving | 3 => .collAlgoTree | _ => .collAlgoPairwise)
  (s.modCtx x.group x.seq fun x => { x with algo := some a }, { x with algo := some a })

/-- Add the completion record of a collective to the history of the last 1,024 (R386). -/
def State.collRecord (s : State) (x : Ctx) (c : Issue) (flags : BitVec 8) (status : BitVec 16) : State :=
  s.modColl fun k => { k with history := ((k.history ++ [{
    group := x.group, job := x.job, seq := x.seq, time := s.now, op := c.op, dtype := c.dtype, algo := x.algo.getD (((s.group x.group).map fun g => s.collAlgo g c).getD 0)
    flags := (if x.nondet then 1 else 0) ||| (if x.fellBack then 2 else 0) ||| flags, count := c.count
    status := status, planes := x.planes : CollRec }]).drop (k.history.length + 1 - 1024)) }

/-- A collective faults (R404, R405): a record of UNIT 7, a history record, and its context is held with its grants
released; under END the job ends (R227). -/
def State.collFault (s : State) (x : Ctx) (f : Suspend) : State :=
  match x.issue, s.job x.job with
  | some c, some j =>
    let hold := j.p.policy ≠ 2
    let s := x.shares.foldl (fun s y => s.escRelease x y) s
    let s := s.collRecord x c 4 f.status.code
    let s := s.modCtx x.group x.seq fun x => { x with held := true, failing := some f.status.code }
    let r : FaultRec := f.record {
      status := f.status, unit := 7, job := x.job, flags := if hold then 0x10 else 0
      mv := if hold then some (c.tile, c.id) else none }
    let again := ((s.partOf j c.tile).bind fun t => t.move c.id).any QMove.resumed
    let s := if again then s.bump .faultRefaults else s
    if hold then
      (s.modJobTile x.job c.tile fun t => t.modFabMove c.id fun m => { m with state := .suspended { f with since := s.time.work } }).fault r
    else (s.fault r).endJob x.job .jobFaulted
  | _, _ => s

/-- Write elements of the operation's vector from index lo to DST, rounded to DTYPE (R383, R384). Where SRC and DST overlap
DST is undefined, and its bytes are free (R383, log 22). -/
def State.collWrite (s : State) (j : Job) (g : Group) (c : Issue) (lo : Nat) (vals : List Nat) : State × Option Suspend :=
  let f := c.fmt
  let xs := (vals.zipIdx.filterMap fun p => (dstIndex g c (lo + p.2)).map fun d => (d, narrow c.wide f p.1))
  match xs with
  | [] => (s, none)
  | (d, _) :: _ =>
    let bs := xs.flatMap fun p => leBytes (elemBytes f) p.2
    let (bs, s) := if c.overlaps g then s.freeBytes bs.length else (bs, s)
    s.writeJob 6 j (c.dst + d * elemBytes f) bs

/-- A share's result in its elements (R396, R399). -/
def shareVals (c : Issue) (x : Share) : Nat × List Nat :=
  (x.lo / c.eb, (List.range ((x.hi - x.lo) / c.eb)).map fun k => eltAt x.result (8 * c.eb) k)

/-- Every part and share has ended. -/
def Ctx.ended (x : Ctx) : Bool :=
  x.parts.all Part.done && x.shares.all fun y => y.state == .done || y.state == .fallback

/-- AX96 data elements consumed with a reserved encoding, taken as NaN (R95). -/
def usedInvalid (data : List Datum) : Nat :=
  ((data.filter Datum.used).map fun d =>
    ((List.range (d.bytes.length / 16)).filter fun k => ax96Invalid (eltAt d.bytes 128 k)).length).sum

/-- Let a context advance (R386, R393): its parts run, its packets leave, and its results are written once all ended. -/
def State.collRun (s : State) (gid : BitVec 16) (q : BitVec 32) : State :=
  match s.ctx gid q, s.group gid with
  | some x, some g =>
    match x.issue, s.job x.job with
    | some c, some j =>
      if x.held || x.written || !x.frame || !s.working || j.state == .ended || (x.parts.isEmpty && x.shares.isEmpty) then s else
      let r := x.parts.foldl (fun (acc : List Part × List Datum × List CollPkt) y =>
        if y.done then (acc.1 ++ [y], acc.2.1, acc.2.2) else
        let (y, d, o) := partRun g c ((partSteps g c y).length + 1) y acc.2.1 acc.2.2
        (acc.1 ++ [y], d, o)) ([], x.data, x.out)
      let had := usedInvalid x.data
      let x := { x with parts := r.1, data := r.2.1, out := r.2.2 }
      let s := s.modCtx gid q fun _ => x
      let s := if c.fmt == .ax96 && opReduces c.op then s.bump .collAx96Invalid 0 0 (usedInvalid x.data - had) else s
      let s := s.collPump gid q (x.out.length + 1)
      if !x.ended then s else
      let len := vecLen c.op g.size c.count
      let pieces : List (Nat × List Nat) :=
        (x.parts.map fun y => if c.op = 5 then (len, y.vals.drop len) else (y.lo, (y.vals.drop y.lo).take (y.hi - y.lo))) ++
        (x.shares.filter fun y => y.state == .done && c.op != 6).map (shareVals c)
      let (s, bad) := pieces.foldl (fun (acc : State × Option Suspend) p =>
        if acc.2.isSome then acc else acc.1.collWrite j g c p.1 p.2) (s, none)
      match bad with
      | some f => s.collFault x f
      | none => s.modCtx gid q fun x => { x with written := true }
    | _, _ => s
  | _, _ => s

/-- A share changes to the endpoint algorithm (R400, R401): rounds whose results are in stand, the rest becomes a part. -/
def State.escFallback (s : State) (x : Ctx) (y : Share) : State :=
  match x.issue with
  | some c =>
    let s := s.escRelease x y
    let s := if y.refusals > 0 && y.state != .granted then s.bump .collEscWaitNs 0 0 (s.time.work - y.first) else s
    let keep := y.lo + y.result.length
    let part : Part := ⟨keep / c.eb, if c.op = 6 then keep / c.eb else y.hi / c.eb, 0, false, x.vals, false⟩
    (s.modCtx x.group x.seq fun x => { x with
      fellBack := true
      parts := x.parts ++ [part]
      shares := mapIf (fun z => z.port == y.port)
        (fun z => if z.result.isEmpty then { z with state := .fallback, held := false }
          else { z with state := .done, hi := keep, held := false }) x.shares }).collRun x.group x.seq
  | none => s

/-- Send the REQUEST of a share (R397, R398). -/
def State.escRequest (s : State) (g : Group) (x : Ctx) (c : Issue) (y : Share) : State :=
  (s.escSend y.port x.key { eop := 1, rank := g.rank, nmemb := g.size - 1, slots := max 1 (min 32 (ceilDiv (y.hi - y.lo) 4096))
                            offset := c.dtype * 2 ^ 8, rop := c.rop, ord := true } []).bump .collEscRequests

/-- Send the DATA of a share's round (R397 to R399). -/
def State.escData (s : State) (g : Group) (x : Ctx) (c : Issue) (y : Share) : State :=
  let wideBytes := x.vals.flatMap (leBytes c.eb)
  let a := y.lo + y.round * y.slots * 4096
  let n := min (y.slots * 4096) (y.hi - a)
  let bs := ((wideBytes.drop a).take n) ++ List.replicate (n - (wideBytes.drop a).length) 0
  let bs := bs ++ List.replicate ((32 - bs.length % 32) % 32) 0
  let s := (List.range (ceilDiv bs.length 256)).foldl (fun s k =>
    (s.bump .collTxBytes 0 0 ((bs.drop (256 * k)).take 256).length).escSend y.port x.key { eop := 4, rank := g.rank, round := y.round, offset := 8 * k } ((bs.drop (256 * k)).take 256)) s
  s.modCtx x.group x.seq fun x => { x with
    shares := mapIf (fun z => z.port == y.port) (fun z => { z with sentAt := s.time.work, state := .granted, got := [] }) x.shares }

/-- Start a bound context that has its frame (R385, R393, R396): choose the algorithm, read SRC, and request escrow or run
the endpoint algorithm. From here to completion DST has no defined content (R383), but where it is SRC (log 22). -/
def State.collStart (s : State) (gid : BitVec 16) (q : BitVec 32) : State :=
  match s.ctx gid q, s.group gid with
  | some x, some g =>
    match x.issue, s.job x.job with
    | some c, some j =>
      let len := vecLen c.op g.size c.count
      let w := if c.op = 6 then 32 else len * c.eb
      let planes := (List.finRange 16).filter (s.planeQualifies g)
      let (s, x) := s.collChoose g x c
      match s.collLoad j g c with
      | (s, .error f) => s.collFault x f
      | (s, .ok vals) =>
        let s := if c.inPlace then s else s.blurJob 6 j c.dst (c.dstBytes g)
        if x.algo = some 0 then
          let sz := ceilDiv (ceilDiv w planes.length) 32 * 32
          let shares : List Share := planes.zipIdx.filterMap fun (p, i) =>
            if i * sz < w then some { port := p, lo := i * sz, hi := if i + 1 = planes.length then w else min w ((i + 1) * sz), first := s.time.work }
            else none
          let s := s.modCtx gid q fun x => { x with vals := vals, shares := shares, start := s.time.work }
          shares.foldl (fun s y => s.escRequest g x c y) s
        else
          (s.modCtx gid q fun x => { x with
            vals := vals, parts := [⟨0, len, 0, false, vals, false⟩], start := s.time.work }).collRun gid q
    | _, _ => s
  | _, _ => s

/-- Frames of a group that contexts use (R390). -/
def State.framesUsed (s : State) (g : BitVec 16) : Nat := (s.coll.ctxs.filter fun x => x.group == g && x.frame).length

/-- A local issue that waits for a frame takes a free one (R390). -/
def State.collFrames (s : State) : State :=
  match s.coll.ctxs.find? fun x => x.begun && !x.held && !x.frame &&
      ((s.group x.group).map fun g => decide (s.framesUsed x.group < recField g.record 56 2)).getD false with
  | none => s
  | some x =>
    ((s.modCtx x.group x.seq fun x => { x with frame := true }).bump .collFrameWaitNs 0 0 (s.time.work - x.start)).collStart x.group x.seq

/-- What the engine answers to a data packet: accepted, or the NAK reason (R392). -/
inductive CollAns where
  | accepted | nak (r : Reason)
  deriving DecidableEq, Repr

/-- A data packet that has passed the window's checks is handed to the engine (R388, R390 to R392, R400). -/
def State.collData (s : State) (q : Request) : State × CollAns :=
  let b := q.payload
  let f (o n : Nat) : Nat := leNat ((b.drop o).take n)
  if b.length < 16 || f 9 1 > 1 then (s, .nak .malformed) else
  let gid := BitVec.ofNat 16 (f 0 2)
  let sq := BitVec.ofNat 32 (f 4 4)
  let d : Datum := ⟨f 2 2, f 8 1, f 12 4, f 9 1 = 1, b.drop 16, false⟩
  match (s.group gid).filter fun g => g.job == q.job with
  | none => (s.bump .collAdmitNoGroup, .nak .retry)
  | some g =>
    if f 10 2 ≠ defCrc g.record then (s.bump .collDefMismatch, .nak .malformed) else
    let take (s : State) (x : Ctx) : State × CollAns :=
      if x.data.any fun e => e.src == d.src && e.phase == d.phase && e.elem == d.elem then (s, .accepted) else
      let held := ((x.data.filter fun e => !e.used).map fun e => e.bytes.length).sum
      if !x.frame || held + d.bytes.length > 2097152 then (s.bump .collStagingFull, .nak .retry) else
      let s := (s.modCtx gid sq fun x => { x with data := x.data ++ [d], last := s.time.work }).bump .collRxBytes 0 0 d.bytes.length
      let waiting := x.shares.filter fun y => y.state != .done && y.state != .fallback &&
        ((x.issue.map fun c => decide (y.lo + y.result.length ≤ d.elem * c.eb) && decide (d.elem * c.eb < y.hi)).getD false)
      let s := waiting.foldl (fun s y => match s.ctx gid sq with | some x => (s.bump .collEscFallbacks).escFallback x y | none => s) s
      (s.collRun gid sq, .accepted)
    match s.ctx gid sq with
    | some x => take s x
    | none =>
      if (s.coll.ctxs.filter Ctx.reserve).length ≥ 8 || s.framesUsed gid ≥ recField g.record 56 2 then
        (s.bump .collAdmitRefused, .nak .retry)
      else
        let x : Ctx := { group := gid, seq := sq, job := q.job, reserve := true, start := s.time.work, last := s.time.work }
        take ((s.modColl fun k => { k with ctxs := k.ctxs ++ [x] }).bump .collAdmitted) x

/-- A plane port goes DOWN: its books are cleared, and incomplete shares change to the endpoint algorithm (R403, R404). -/
def State.collPortDown (s : State) (p : PortIx) : State :=
  let s := s.modBook p fun _ => {}
  let hit := s.coll.ctxs.filter fun x => x.shares.any fun y => y.port == p && y.state != .done && y.state != .fallback
  let s := s.modColl fun k => { k with ctxs := k.ctxs.map fun x =>
    { x with shares := mapIf (fun y => y.port == p) (fun y => { y with held := false }) x.shares } }
  hit.foldl (fun s x =>
    match s.ctx x.group x.seq with
    | some x => (x.shares.filter fun y => y.port == p).foldl (fun s y => s.escFallback x y) s
    | none => s) s

/-- A held collective is ready to begin again: the data that peers have sent stay counted (R392, R405). -/
def Ctx.restart (x : Ctx) (now : Nat) : Ctx := { x with
  held := false, begun := false, failing := none, parts := [], shares := [], out := [], written := false, last := now
  nondet := false, planes := 0, fellBack := false, data := x.data.map fun d => { d with used := false } }

/-- JOB_RESUME and RESTORE_COMPLETE: the held collectives of a job begin again when the copy engine hands over their moves,
which are queued again (R228, R405). -/
def State.collResume (s : State) (j : BitVec 12) : State :=
  s.modColl fun c => { c with ctxs := mapIf (fun x => x.job == j && x.held) (fun x => x.restart s.time.work) c.ctxs }

/-- The copy engine hands the COLL_ISSUE moves that may start to the engine (R136, R385). -/
def State.kickColl (s : State) (t : Nat) : State :=
  ((s.tile t).queue.filter fun m => Hdr.op m.w == 0x58 && m.state == .queued).foldl (fun s m =>
    if s.working && s.tileRuns t && (s.tile t).copyRuns m then
      let g := BitVec.ofNat 16 (fld m.w 47 32)
      let q := BitVec.ofNat 32 (fld m.w 127 96)
      let s := s.modMove t m.id fun m => { m with state := .started }
      let s := s.modCtx g q fun x => { x with begun := true, start := s.time.work }
      match s.ctx g q with
      | some x => if x.frame then s.collStart g q else s.collFrames
      | none => s
    else s) s

end Sys2Proof.Machine
end

