-- ==== Sys2Proof/Machine/PpeOps.lean ====
section
/-! DEFINITION. The photonic projection engine: slots, the submission queue, records, and its states (R174 to R196). -/

namespace Sys2Proof.Machine

/-! ## Slots (R175 to R179) -/

/-- The slot mask of a job (R178). -/
def State.slotMask (s : State) (j : BitVec 12) : Nat :=
  (s.ppe.slots.toList.zipIdx.map fun (x, n) => if x.loaded && (x.shared || x.owner == j) then 2 ^ n else 0).sum

/-- A slot is pending: some PROJECT that names it has been decoded and has not completed (R178). -/
def State.slotPending (s : State) (n : Nat) : Bool :=
  let has (x : Tile) : Bool := x.queue.any fun m => Hdr.op m.w == 0x50 && projectSlot m.w == n
  (s.tiles.any fun p => has p.2) || s.jobs.any fun j => j.saved.any fun x => has x.st

/-- A value as a rational; none for NaN and the infinities. -/
def ratOf : Val → Option Rat
  | .fin neg m e =>
    let r : Rat := if e ≥ 0 then ((m * 2 ^ e.toNat : Nat) : Rat) else ((m : Nat) : Rat) / ((2 ^ (-e).toNat : Nat) : Rat)
    some (if neg then -r else r)
  | _ => none

/-- The number that an FP16 code stands for; 0 where it is none. -/
def fp16Rat (c : Nat) : Rat := (ratOf (Fmt.fp16.decode c)).getD 0

/-- Entries of a MATRIX source (R175). -/
def matrixRat (q : List Byte) : List Rat := (wordsOf 4 q).map fun c => (ratOf (Fmt.fp32.decode c)).getD 2

/-- A MATRIX source is orthogonal within 2⁻¹⁶ (R176). -/
def orthogonal (q : List Byte) : Bool :=
  let m := (matrixRat q).toArray
  let at_ (i j : Nat) : Rat := m.getD (128 * i + j) 0
  (List.range 128).all fun a => (List.range 128).all fun b =>
    let d := ((List.range 128).map fun i => at_ i a * at_ i b).sum - (if a = b then 1 else 0)
    d ≤ 1 / 65536 && -d ≤ 1 / 65536

/-- Sign of entry j of D_k of a SEEDED transform (R175): true is −1. -/
def seededSign (seed : BitVec 64) (k j : Nat) : Bool :=
  let c := philoxRounds 10 (seed.toNat % 2 ^ 32) (seed.toNat / 2 ^ 32) (k, 0, 0, 3)
  let w := match j / 32 with | 0 => c.1 | 1 => c.2.1 | 2 => c.2.2.1 | _ => c.2.2.2
  w.testBit (j % 32)

/-- Multiply by the diagonal D_k, then by the Sylvester Hadamard matrix without its factor 1/√128 (R175). -/
def seededStage (seed : BitVec 64) (xs : List Rat) (k : Nat) : List Rat :=
  let ys := xs.zipIdx.map fun (x, j) => if seededSign seed k j then -x else x
  (List.range 128).map fun i => (ys.zipIdx.map fun (y, j) => if ((List.range 7).filter (Nat.land i j).testBit).length % 2 = 1 then -y else y).sum

/-- The exact result of output i, g_i · Σ_j Q_ij · x_j, as a rational times 2^(−half / 2) (R174, R175): the three factors
1/√128 of a SEEDED transform make half 21. -/
def Slot.exact (x : Slot) (xs : List Rat) (i : Nat) : Rat × Nat :=
  let g := fp16Rat (x.gains.getD i 0).toNat
  match x.transform with
  | .matrix q => (g * ((((matrixRat q).drop (128 * i)).zip xs).map fun p => p.1 * p.2).sum, 0)
  | .seeded seed => (g * ([1, 2, 3].foldl (seededStage seed) xs).getD i 0, 21)

/-! ## The submission queue (R181 to R184) -/

/-- The input format (R163). -/
def ProjectSpec.fmt (c : ProjectSpec) : Fmt := (Fmt.ofCode c.ifmt).getD .fp16

/-- Bytes of an input vector (R181). -/
def ProjectSpec.bytes (c : ProjectSpec) : Nat := c.fmt.bytes 128

/-- Vectors of a submission that a batch may take: its tile runs, its job is not being saved, and its move stands (R184). -/
def State.batchable (s : State) (e : Project) : Bool :=
  e.next < e.total && s.mayStart e.tile && (s.tile e.tile).job == e.job &&
  (((s.tile e.tile).move e.id).map fun m => m.failing.isNone && !m.suspended).getD false

/-- The priority of a submission is its job's (R182). -/
def State.ppePrio (s : State) (e : Project) : Nat := ((s.job e.job).map fun j => j.p.priority).getD 0

/-- Submissions with batches pending at the highest priority (R182). -/
def State.ppeFront (s : State) : List Project :=
  let es := s.ppe.queue.filter s.batchable
  let top := es.foldl (fun a e => max a (s.ppePrio e)) 0
  es.filter fun e => s.ppePrio e == top

/-- The next slot with batches pending after one, in ascending order and wrapping (R182). -/
def nextSlot (es : List Project) (from_ : Nat) : Option Nat :=
  ((List.range 8).map fun k => (from_ + 1 + k) % 8).find? fun n => es.any fun e => e.slot == n

/-- Another slot of the same priority has waited 32 µs for the active one (R182): the slot that the mesh moves to. The time
counts from the arrival of the other slot's first batch, or from when the active slot took the mesh if that is later
(log 41). -/
def State.turnTo (s : State) : Option Nat :=
  s.ppe.active.bind fun a =>
    let es := s.ppeFront.filter fun e => e.slot != a.val
    if es.any fun e => max e.since s.ppe.activeSince + 32000 ≤ s.time.work then nextSlot es a.val else none

/-- Begin to reprogram the mesh (R180). -/
def State.reprogram (s : State) (n : Nat) : State :=
  if h : n < 8 then (s.modPpe fun p => { p with reprog := some (some ⟨n, h⟩, s.time.work) }).bump .ppeReprograms else s

/-- A slot loses its transform: the mesh does not hold it, and a reprogramming under way does not make it hold it
(R178 to R180). -/
def Ppe.forget (p : Ppe) (gone : SlotIx → Bool) : Ppe :=
  { p with active := p.active.filter fun n => !gone n, reprog := p.reprog.map fun r => (r.1.filter fun n => !gone n, r.2) }

/-- Read the input vectors of a batch up to the first fault (R181). The PPE translates at the hub (R219). -/
def State.readVectors (s : State) (t : Nat) (j : Job) (c : ProjectSpec) : List Nat → List (List Byte) → State × List (List Byte) × Option Suspend
  | [], acc => (s, acc, none)
  | v :: vs, acc =>
    let a := c.src + c.bytes * v
    if c.sk = 1 then
      match s.readJob 6 j a c.bytes with
      | (s, .ok bs) => s.readVectors t j c vs (acc ++ [bs])
      | (s, .error f) => (s, acc, some f)
    else match s.sramPoison t a c.bytes with
      | some p => (s, acc, some { status := .poison, addr := max a (p % sramSize), phys := p })
      | none => s.readVectors t j c vs (acc ++ [s.sram t a c.bytes])

/-- Suspend a PROJECT whose started vectors have been written (R181, R228). -/
def State.settleProject (s : State) (job : BitVec 12) (t id : Nat) : State :=
  match (s.tile t).move id with
  | some m =>
    if (s.tile t).job ≠ job || s.ppe.mesh.any (fun b => b.job == job && b.tile == t && b.id == id) then s else
    match m.failing with
    | some f =>
      let c := projectSpec m.w m.regs
      let s := s.modMove t id fun m => { m with failing := none, next := m.done }
      (s.suspend t m 8 f (c.src + c.bytes * m.done) (c.dst + 128 * m.done) m.done).leavePpe job t id
    | none => s
  | none => s.leavePpe job t id

/-- A batch of at most 64 vectors enters the mesh (R182). -/
def State.enterMesh (s : State) (e : Project) : State :=
  match (s.tile e.tile).move e.id, s.job e.job with
  | some m, some j =>
    let c := projectSpec m.w m.regs
    let n := min 64 (e.total - e.next)
    let (s, ins, f) := s.readVectors e.tile j c ((List.range n).map (e.next + ·)) []
    let b : Batch := ⟨e.job, e.tile, e.id, e.slot, e.next, c.fmt, ins, c.dk, c.dst, c.rtal, c.rten, m.epoch, none⟩
    let s := s.modPpe fun p => { p with
      mesh := if ins.isEmpty then p.mesh else p.mesh ++ [b]
      queue := mapIf (fun x => x.job == e.job && x.tile == e.tile && x.id == e.id) (fun x => { x with next := x.next + ins.length }) p.queue }
    match f with
    | some f => (s.modMove e.tile e.id fun m => { m with failing := some f }).settleProject e.job e.tile e.id
    | none => s
  | _, _ => s

/-! ## Records (R97, R190, R193) -/

/-- The smallest FP16 code whose value is at least a positive number; none above 65,504. -/
def fp16AtLeast (x : Rat) : Option Nat :=
  if fp16Rat 0x7BFF < x then none else
  some ((List.range 15).foldl (fun lo k =>
    let c := lo + 2 ^ (14 - k)
    if c ≤ 0x7BFF && fp16Rat (c - 1) < x then c else lo) 0)

/-- Round to the nearest integer, ties to even. -/
def nearest (x : Rat) : Int :=
  let f := x.floor
  let d := x - f
  if d < 1 / 2 then f else if d > 1 / 2 then f + 1 else if f % 2 = 0 then f else f + 1

/-- ⌈log₂ a⌉ of a positive number, within the range of the formats (R190). -/
def ceilLog2 (a : Rat) : Int :=
  (List.range 400).foldl (fun r k => let e : Int := 200 - k; if a ≤ (if e ≥ 0 then ((2 ^ e.toNat : Nat) : Rat) else 1 / ((2 ^ (-e).toNat : Nat) : Rat)) then e else r) 201

/-- Elements of an input vector; none where one is not finite (R190). -/
def inputVals (f : Fmt) (bs : List Byte) : Option (List Rat) :=
  ((List.range 128).map fun i => ratOf (f.decode (eltAt bs f.width i))).foldr (fun x a => match x, a with | some x, some a => some (x :: a) | _, _ => none)
    (some [])

/-- SCALE of a record, and whether it was limited (R190): m is the largest measurement, a the largest input. -/
def recordScale (x : Slot) (m a : Rat) : Nat × Bool :=
  if !x.fixed then
    if m = 0 then (0x0400, false) else
    match fp16AtLeast (m / 31) with
    | some c => (c, false)
    | none => (0x7BFF, true)
  else
    let f := fp16Rat x.fscale.toNat
    let e : Int := if a = 0 then 0 else ceilLog2 a
    let p : Rat := if e ≥ 0 then f * ((2 ^ e.toNat : Nat) : Rat) else f / ((2 ^ (-e).toNat : Nat) : Rat)
    if p > 65504 then (0x7BFF, true) else if p < 1 / 16777216 then (0x0001, true)
    else ((Fmt.fp16.encode .rne true 0 (Val.scale e (Fmt.fp16.decode x.fscale.toNat))).1 % 65536, false)

/-- A record's 128 bytes (R97). -/
def recordBytes (codes : List Int) (scale : Nat) (flags seq : Nat) : List Byte :=
  packElts 6 (codes.map fun c => (BitVec.ofInt 6 c).toNat) ++ leBytes 2 scale ++ leBytes 2 flags ++ leBytes 4 seq ++ leBytes 24 0

/-- a + b·√2 ≤ 0, decided exactly. -/
def rootTwoNonpos (a b : Rat) : Bool :=
  if b ≤ 0 then a ≤ 0 || a * a ≤ 2 * (b * b) else a ≤ 0 && 2 * (b * b) ≤ a * a

/-- Squared error of a code in units of full scale, ((c · SCALE − y) / (31 · SCALE))², as a + b·√2, where the exact result is
y = num · 2^(−half / 2) (R191). -/
def errSq (code : Int) (scale num : Rat) (half : Nat) : Rat × Rat :=
  let k : Nat := 2 ^ ((half + 1) / 2)
  let y : Rat := num / (k : Rat)
  let v : Rat := scale * code
  let d : Rat := (31 * scale) * (31 * scale)
  if half % 2 = 0 then ((v - y) * (v - y) / d, 0) else ((v * v + 2 * (y * y)) / d, (-2 * v * y) / d)

/-- The squared errors of a record: those of its unclipped outputs that are not dead. -/
def errSum (xs : List (Rat × Rat)) : Rat × Rat × Nat := (xs.map Prod.fst |>.sum, xs.map Prod.snd |>.sum, xs.length)

/-- R191 over the latest records of a slot, at most 4,096 (log 41): the mean square error is at most 1.5 % squared. -/
def rmsOk (es : List (Rat × Rat × Nat)) : Bool :=
  let n : Nat := (es.map fun e => e.2.2).sum
  rootTwoNonpos ((es.map fun e => e.1).sum - (9 / 40000) * (n : Rat)) (es.map fun e => e.2.1).sum

/-- A valid record: its codes and SCALE, whether it is clipped and its scale limited, and the squared errors of its unclipped
outputs that are not dead. -/
structure Measured where
  codes : List Int
  scale : Nat
  clipped : Bool
  limited : Bool
  errs : List (Rat × Rat)
  deriving DecidableEq, Repr

/-- The record of measured outputs y (R98, R188, R190): `exact` are the exact results. -/
def measured (x : Slot) (dead : List (Fin 128)) (a : Rat) (exact : List (Rat × Nat)) (y : List Rat) : Measured :=
  let mag (x : Rat) : Rat := if x < 0 then -x else x
  let live := (List.range 128).filter fun i => !dead.any fun k => k.val == i
  let at_ (i : Nat) : Rat := if fp16Rat (x.gains.getD i 0).toNat = 0 then 0 else y.getD i 0
  let m := live.foldl (fun r i => max r (mag (at_ i))) 0
  let (scale, limited) := recordScale x m a
  let raw (i : Nat) : Int := nearest (at_ i / fp16Rat scale)
  { codes := (List.range 128).map fun i => bif live.contains i then max (-31) (min 31 (raw i)) else -32
    scale := scale, limited := limited, clipped := live.any fun i => (raw i).natAbs > 31
    errs := (live.filter fun i => (raw i).natAbs ≤ 31).map fun i =>
      let (num, half) := exact.getD i (0, 0)
      errSq (raw i) (fp16Rat scale) num half }

/-- R191 holds of a record beside the latest ones of its slot. -/
def Measured.within (r : Measured) (before : List (Rat × Rat × Nat)) (outlier : Bool) : Bool :=
  (outlier || r.errs.all fun e => rootTwoNonpos (e.1 - 4 / 625) e.2) && rmsOk (errSum r.errs :: before)

/-- The exact result as the nearest rational that the model measures where it must: √2 by 14 places. -/
def exactRat (e : Rat × Nat) : Rat :=
  let k : Nat := 2 ^ ((e.2 + 1) / 2)
  e.1 / (k : Rat) * (if e.2 % 2 = 0 then 1 else 141421356237310 / 100000000000000)

/-- A valid record of a vector (R190, R191): what the detectors measure is Config's while R191 holds of the record, and the
exact result where it would not (log 41). -/
def State.valid (s : State) (slot : Slot) (xs : List Rat) : Measured × State :=
  let n := s.fresh
  let exact := (List.range 128).map (slot.exact xs)
  let a := xs.foldl (fun a x => max a (if x < 0 then -x else x)) 0
  let r := measured slot s.ppe.dead a exact (exact.zipIdx.map fun (e, i) => Config.ppeMeasure n i e.1 e.2)
  let r := if !Config.ppeSteady n || r.within slot.errs (Config.ppeOutlier n) then r
    else measured slot s.ppe.dead a exact (exact.map exactRat)
  (r, { s with fresh := n + 1 })

/-- A record with the counters that count it, and for a valid one the slot's errors (R191, R196). -/
structure PpeRecord where
  bytes : List Byte
  counts : List CtrId
  errs : Option (Rat × Rat × Nat) := none
  deriving DecidableEq, Repr

/-- The record of a vector (R97, R187, R190, R193). An INVALID record counts for every cause that it has (log 41), and its
SCALE is a free one, finite and positive. -/
def State.record (s : State) (b : Batch) (v : Nat) (bs : List Byte) (dark : Bool) : State × PpeRecord :=
  let xs := inputVals b.ifmt bs
  let off := !b.seen.getD (s.ppe.state == .ready && !s.ppe.needDrift)
  let causes := (if off then [CtrId.ppeInvalidState] else []) ++ (if dark then [CtrId.ppeInvalidDark] else []) ++
    (if xs.isNone then [CtrId.ppeInvalidInput] else [])
  match xs, causes with
  | some xs, [] =>
    let (r, s) := s.valid ((s.ppe.slots.toArray[b.slot]?).getD {}) xs
    (s, { bytes := recordBytes r.codes r.scale (if r.clipped then 2 else 0) v, errs := some (errSum r.errs)
          counts := [CtrId.ppeVectors] ++ (if r.limited then [CtrId.ppeScaleSaturated] else []) ++
            (if r.clipped then [CtrId.ppeClipped] else []) })
  | _, _ =>
    let (x, s) := s.free
    (s, { bytes := recordBytes (List.replicate 128 (-32)) (1 + x.toNat % 0x7BFF) 1 v, counts := causes })

/-- A record has been written (R191, R196). -/
def State.countRecord (s : State) (slot : Nat) (r : PpeRecord) : State :=
  let s := r.counts.foldl (fun s c => s.bump c) s
  match r.errs with
  | none => s
  | some e => s.modPpe fun p => { p with slots := p.slots.mapIdx fun n x => if n = slot then { x with errs := (e :: x.errs).take 4095 } else x }

/-- Write the record of vector v of a batch (R181, R183, R184, R254): only the next one in order. -/
def State.writeRecord (s : State) (j : Job) (b : Batch) (v : Nat) (bs : List Byte) (dark : Bool) : State :=
  if j.p.periodic && b.epoch != s.epoch j then (s.bump .ppeEpochDiscarded).countExpired j (if b.rten then 2 else 1) else
  match (s.tile b.tile).move b.id with
  | none => s
  | some m =>
    if (s.tile b.tile).job ≠ b.job || m.done ≠ v then s else
    let (s, rec_) := s.record b v bs dark
    let a := b.dst + 128 * v
    let r : State × Option Suspend :=
      if b.dk = 1 then s.writeJob 6 j a rec_.bytes
      else (s.writePhys (sramBase b.tile + a) rec_.bytes, none)
    match r with
    | (s, some f) => s.modMove b.tile b.id fun m => { m with failing := some { f with write := true } }
    | (s, none) =>
      let s := s.countRecord b.slot rec_
      let s := if b.rten then s.arrive j.id b.tile b.rtal 1 else s
      s.modMove b.tile b.id fun m => { m with done := m.done + 1 }

/-! ## States and light (R187 to R194) -/

/-- The bay of the PPE's cartridge has its lasers lit. -/
def State.ppeBayLit (s : State) : Bool := s.bays[10].state == .active || s.bays[10].state == .ramping

/-- The laser that is the source delivers light: laser 0 of B10, or its spare (R194). -/
def State.ppeLit (s : State) : Bool := s.ppeBayLit && !(if s.ppe.onSpare then s.bays[10].lasers[1] else s.bays[10].lasers[0]).failed

/-- The PPE goes OFFLINE (R187): a PPE_CALIBRATE under way fails. -/
def State.ppeOffline (s : State) : State :=
  (s.modPpe fun p => { p with state := .offline }).finishZcp 0x0513 (fun _ => true) true .success [leBytes 1 1]

/-- Enter CALIBRATING (R187, R188). -/
def State.calibrate (s : State) : State := s.modPpe fun p => { p with state := .calibrating, calFails := 0 }

/-- The spare of B10 leaves its monitor bias (R194, R362): SPARE_PPE is written 0. -/
def State.spareUp (s : State) : State :=
  let c := s.bays[10].ctrl &&& ~~~2#32
  let s : State := { s with bays := s.bays.set 10 { s.bays[10] with ctrl := c } }
  if s.board.tap = .extest then s else s.emit (.i3c 10 0x100 (leBytes 4 c.toNat))

/-- Switch to the spare laser (R194): with none left, the PPE goes OFFLINE (R187). Out of READY the source changes and the
state stays: CALIBRATING ends with a calibration result, OFFLINE with a successful one (log 41). -/
def State.ppeSwitchover (s : State) : State :=
  if s.ppe.onSpare || s.bays[10].lasers[1].failed || !s.ppeBayLit then s.ppeOffline
  else ((s.modPpe fun p => { p with
    state := if p.state == .ready then .switching else p.state
    switching := s.clock, onSpare := true, darkRun := 0 }).bump .ppeSwitchovers).spareUp

/-- A vector slot has been dark or lit; 64 dark ones in a row in READY are a switchover (R193, R194). -/
def State.sawSlot (s : State) (dark : Bool) : State :=
  let s := s.modPpe fun p => { p with darkRun := if dark then p.darkRun + 1 else 0 }
  if s.ppe.darkRun ≥ 64 && s.ppe.state == .ready then s.ppeSwitchover else s

/-- The oldest batch leaves the mesh: its records are written in order, and its PROJECT completes or suspends
(R182, R183, R194). -/
def State.leaveMesh (s : State) (dark : List Nat) : State :=
  match s.ppe.mesh with
  | [] => s
  | b :: rest =>
    let s := s.modPpe fun p => { p with mesh := rest }
    let s := b.inputs.zipIdx.foldl (fun s x =>
      let s := match s.job b.job with
        | none => s
        | some j => s.writeRecord j b (b.first + x.2) x.1 (dark.contains x.2)
      s.sawSlot (dark.contains x.2)) s
    match s.job b.job, (s.tile b.tile).move b.id with
    | some _, some m =>
      if (s.tile b.tile).job = b.job && m.done ≥ (projectSpec m.w m.regs).nvec then
        (s.modMove b.tile b.id fun m => { m with state := .done }).leavePpe b.job b.tile b.id
      else s.settleProject b.job b.tile b.id
    | _, _ => s.leavePpe b.job b.tile b.id

/-- Batches that submissions still hold outside the mesh (R184). -/
def State.batchesLeft (s : State) (p : Project → Bool) : Nat :=
  ((s.ppe.queue.filter p).map fun e => ceilDiv (e.total - e.next) 64).sum

end Sys2Proof.Machine
end

