-- ==== Sys2Proof/Machine/Vector.lean ====
section
/-! DEFINITION. The vector unit and the MV unit: VOP, REDUCE and MV_PASS (R69 to R73, R159, R160). A move starts when the
one before it on its unit has ended, and acts as a whole then (log 13). -/

namespace Sys2Proof.Machine

/-- Lanes or elements as codes of width w at an SRAM address. -/
def State.elt (s : State) (t a w i : Nat) : Nat :=
  let o := w * i
  leNat (s.sram t (a + o / 8) (ceilDiv (o % 8 + w) 8)) / 2 ^ (o % 8) % 2 ^ w

/-- Write packed elements from index `first` on; other bits of the bytes keep their values (R77). -/
def State.writeElts (s : State) (t a w first : Nat) (codes : List Nat) : State :=
  if codes.isEmpty then s else
  let lo := first * w / 8
  let n := ceilDiv ((first + codes.length) * w) 8 - lo
  let sh := first * w - 8 * lo
  let old := leNat (s.sram t (a + lo) n)
  let v := (codes.zipIdx.map fun (c, i) => c % 2 ^ w * 2 ^ (w * i)).sum
  let hole := old / 2 ^ sh % 2 ^ (w * codes.length) * 2 ^ sh
  s.writeSram (sramBase t + a + lo) (leBytes n (old - hole + v * 2 ^ sh)) false

/-- Give every open result of a list of lanes a free value, among its codes where the spec bounds it (log 2). -/
def State.fill (s : State) (w : Nat) (xs : List VLane) : State × List Nat :=
  xs.foldl (fun (acc : State × List Nat) x =>
    match x with
    | [v] => (acc.1, acc.2 ++ [v])
    | [] => let (v, s) := acc.1.free; (s, acc.2 ++ [v.toNat % 2 ^ w])
    | v :: vs => let (k, s) := acc.1.free; (s, acc.2 ++ [(v :: vs).getD (k.toNat % (vs.length + 1)) v])) (s, [])

/-- Poisoned word that element i of a packed buffer touches. -/
def State.eltPoison (s : State) (t a w i : Nat) : Option Nat :=
  s.sramPoison t (a + w * i / 8) (ceilDiv (w * i % 8 + w) 8)

/-- The operands of a VOP. -/
structure VopSpec where
  fn : Nat
  af : Fmt
  df : Fmt
  w64 : Bool
  ablk : Nat
  dblk : Nat
  cvt : Nat
  count : Nat
  a : Nat
  b : Nat
  d : Nat
  sc : Nat
  bscal : Option (BitVec 64)
  anchor : Int

/-- The fields of a VOP word (R160). -/
def vopSpec (w : MoveWord) (r : Regs) : VopSpec :=
  { fn := fld w 39 32, af := (Fmt.ofCode (fld w 43 40)).getD .fp32, df := (Fmt.ofCode (fld w 47 44)).getD .fp32
    w64 := bit w 61, ablk := fld w 60 59, dblk := fld w 58 57, cvt := fld w 50 48, count := fld w 84 64
    a := (sramRef w 85).addr r, b := (sramRef w 110).addr r, d := (sramRef w 135).addr r, sc := (sramRef w 160).addr r
    bscal := if bit w 51 then some (r.get (fld w 56 52)) else none, anchor := signed 16 (fld w 200 185) }

namespace VopSpec
/-- A conversion function (R160). -/
def converts (v : VopSpec) : Bool := v.fn == 0x20 || v.fn == 0x21
/-- Lane width of an arithmetic function. -/
def lane (v : VopSpec) : Nat := if v.w64 && v.af == .int32 then 64 else 32
/-- Widths of a source and a destination element. -/
def aw (v : VopSpec) : Nat := if v.converts then v.af.width else v.lane
def dw (v : VopSpec) : Nat := if v.converts then v.df.width else v.lane
/-- Block size in force, of the source or the destination. -/
def block (v : VopSpec) : Nat := if v.ablk != 0 then blockSize v.ablk else blockSize v.dblk
/-- Bytes of operand A. -/
def aBytes (v : VopSpec) : Nat := if v.af == .pa6 && v.converts then v.count else ceilDiv (v.aw * v.count) 8
end VopSpec

/-- Extents of a VOP within tile SRAM (R139). -/
def vopExtents (v : VopSpec) : Bool :=
  v.a + v.aBytes ≤ sramSize && v.d + ceilDiv (v.dw * v.count) 8 ≤ sramSize &&
  (!usesB v.fn || v.converts || v.bscal.isSome || v.b + ceilDiv (v.lane * v.count) 8 ≤ sramSize) &&
  (v.block = 0 || v.sc + ceilDiv v.count v.block ≤ sramSize)

/-- VOP checks at decode, in the manual's order (R77, R83, R89, R91, R96, R98, R99, R151, R160). A CVT_SCALED of another AFMT
than FP32, FP16 or BF16 (R88), and an ABLK on a format that has no block-scaled form, are refused FORMAT_UNSUPPORTED as R84
refuses it in the array (log 19). -/
def vopChecks (w : MoveWord) (v : VopSpec) : Option Status :=
  let cvt := v.converts
  let e8 (f : Fmt) := f == .e8m0
  firstOf [
    when? (!clear w [(255, 201), (63, 62)] || fld w 43 40 = 15 || fld w 47 44 = 15 || v.ablk = 3 || v.dblk = 3 ||
      fld w 50 49 = 3 || !vopFns.contains v.fn || (v.df == .ax96 && fld w 200 185 = 0x8000)) .reservedValue,
    when? (cvt && (!groupOk v.af v.a 0 || !groupOk v.df v.d 0)) .alignment,
    when? ((e8 v.af && !(v.fn = 0x20 && v.df == .fp32)) || (e8 v.df && !(v.fn = 0x20 && v.af == .fp32))) .formatUnsupported,
    when? (cvt && fld w 50 49 != 0 && (v.df == .fp32 || v.df == .ax96)) .formatUnsupported,
    when? (v.df == .pa6) .formatUnsupported,
    when? (cvt && v.af == .pa6 && v.df != .fp16 && v.df != .fp32) .formatUnsupported,
    when? (v.af == .pa6 && v.fn != 0x20) .formatUnsupported,
    when? (v.af == .pa6 && v.count % 128 != 0) .lengthRange,
    when? (v.af == .pa6 && v.a % 128 != 0) .alignment,
    when? (v.ablk != 0 && v.dblk != 0) .blockMismatch,
    when? (v.dblk != 0 && v.fn != 0x21) .blockMismatch,
    when? (v.fn = 0x21 && v.dblk = 0) .blockMismatch,
    when? (v.fn = 0x21 && !(blockable v.df || v.df == .int8)) .formatUnsupported,
    when? (!cvt && v.af != .fp32 && v.af != .int32) .formatUnsupported,
    when? (v.fn = 0x21 && !(v.af == .fp32 || v.af == .fp16 || v.af == .bf16)) .formatUnsupported,
    when? (v.ablk != 0 && !(blockable v.af || v.af == .int8)) .formatUnsupported,
    offSram v.a, if usesB v.fn && v.bscal.isNone then offSram v.b else none, offSram v.d,
    if v.block = 0 then none else offSram v.sc,
    when? (v.count > 1048576) .lengthRange,
    when? (v.count != 0 && !vopExtents v) .lengthRange]

/-- The first element, from `first` on, that reads a poisoned word: the element, the word, and the address of the operand that
lies in it (R224, R225). -/
def State.vopPoison (s : State) (t : Nat) (v : VopSpec) (first : Nat) : Option (Nat × Nat × Nat) :=
  let at_ (a : Nat) (p : Option Nat) : Option (Nat × Nat) := p.map fun p => (p, a)
  if s.poisonWords.isEmpty then none else
  (List.range (v.count - first)).findSome? fun k =>
    let i := first + k
    let a := if v.af == .pa6 && v.converts then s.sramPoison t (v.a + i / 128 * 128) 100 else s.eltPoison t v.a v.aw i
    let b := if usesB v.fn && !v.converts && v.bscal.isNone then s.eltPoison t v.b v.lane i else none
    let d := if v.fn = 0x04 then s.eltPoison t v.d v.lane i else none
    let c := if v.ablk != 0 then s.sramPoison t (v.sc + i / blockSize v.ablk) 1 else none
    let aa := if v.af == .pa6 && v.converts then v.a + i / 128 * 128 else v.a + v.aw * i / 8
    ((((at_ aa a).or (at_ (v.b + v.lane * i / 8) b)).or (at_ (v.d + v.lane * i / 8) d)).or
      (at_ (v.sc + i / blockSize v.ablk) c)).map fun p => (i, p)

/-- Source value i of a conversion; none for an invalid PA6 element (R88, R91, R98). -/
def State.cvtVal (s : State) (t : Nat) (v : VopSpec) (i : Nat) : Option Val :=
  if v.af == .pa6 then ((pa6Values (s.sram t (v.a + i / 128 * 128) 128))[i % 128]?).getD none
  else
    let sc := if v.ablk = 0 then 0 else (s.sram t (v.sc + i / blockSize v.ablk) 1).headD 0 |>.toNat
    some (scaledVal v.af v.ablk sc (s.elt t v.a v.aw i))

/-- The conversions of elements [first, stop): codes, what was counted, and the scales of their blocks (R88, R91). A last block
that COUNT cuts short is quantised from the elements it has (log 10). -/
def State.cvtElts (s : State) (t : Nat) (v : VopSpec) (rnd : Nat → Rnd) (first stop : Nat) :
    List (Nat × CvtFlags) × List Nat :=
  let sat := v.cvt % 2 = 1
  let ix := (List.range (stop - first)).map (· + first)
  if v.fn = 0x20 then
    (ix.map fun i =>
      match s.cvtVal t v i with
      | some x => v.df.encode (rnd i) sat v.anchor x
      | none => v.df.encode .rne sat v.anchor .nan, [])
  else
    let n := blockSize v.dblk
    let blocks := (List.range (ceilDiv (stop - first) n)).map fun b =>
      let js := (List.range (min n (stop - first - b * n))).map fun i => first + b * n + i
      let vs := js.map fun i => ((s.cvtVal t v i).getD .nan)
      let code := blockScaleCode v.df vs
      ((js.zip vs).map fun (i, x) => blockElem v.df (rnd i) sat code x, code)
    (blocks.flatMap Prod.fst, blocks.map Prod.snd)

/-- Counters of the source operand of a conversion (R82, R87, R95, R98). -/
def State.countSource (s : State) (t : Nat) (v : VopSpec) (first stop : Nat) : State :=
  let d := t / 512
  let ix := (List.range (stop - first)).map (· + first)
  let s := if v.af == .t2 then s.bump .tileT2InvalidCode d 0 (ix.filter fun i => s.elt t v.a 2 i == 2).length else s
  let s := if v.af == .ax96 then s.bump .tileCvtAx96Invalid d 0 (ix.filter fun i => ax96Invalid (s.elt t v.a 128 i)).length else s
  let s := if v.af == .pa6 then s.bump .tileCvtPa6Invalid d 0 (ix.filter fun i => (s.cvtVal t v i).isNone).length else s
  if v.ablk = 0 then s else
  let n := blockSize v.ablk
  s.bump .tileBlockNanScale d 0 ((ix.filter fun i => i % n == 0).filter fun i =>
    (s.sram t (v.sc + i / n) 1).headD 0 == 255).length

/-- Carry out a VOP from its progress on (R72, R160): to its end, or to the element that faults. -/
def State.runVop (s : State) (t : Nat) (m : QMove) : State :=
  let v := vopSpec m.w m.regs
  let d := t / 512
  let bad := s.vopPoison t v m.done
  let stop := (bad.map Prod.fst).getD v.count
  let stop := if v.fn = 0x21 && bad.isSome then stop / blockSize v.dblk * blockSize v.dblk else stop
  let s :=
    if v.converts then
      let seed := ((s.job (s.tile t).job).map fun j => j.p.seed).getD 0
      let (es, scs) := s.cvtElts t v (cvtRnd v.cvt seed t m.convIx) m.done stop
      let s := (s.countSource t v m.done stop).countCvt d (es.map Prod.snd)
      let s := s.writeElts t v.d v.dw m.done (es.map Prod.fst)
      if scs.isEmpty then s else s.writeSram (sramBase t + v.sc + m.done / blockSize v.dblk) (scs.map fun c => BitVec.ofNat 8 c) false
    else
      let lane (i : Nat) : VLane :=
        let b := match v.bscal with
          | some x => x.toNat % 2 ^ v.lane
          | none => if usesB v.fn then s.elt t v.b v.lane i else 0
        vecLane v.fn (v.af == .int32) v.lane (s.elt t v.a v.lane i) b (if v.fn = 0x04 then s.elt t v.d v.lane i else 0)
      let (s, xs) := s.fill v.lane ((List.range (stop - m.done)).map fun k => lane (m.done + k))
      s.writeElts t v.d v.lane m.done xs
  let s := s.bump .tileVecOps d 0 (stop - m.done)
  let s := s.modMove t m.id fun m => { m with done := stop }
  match bad with
  | none => s.moveDone t m.id
  | some (_, p, a) =>
    let m := { m with done := stop }
    s.suspend t m 3 { status := .poison, addr := a, phys := p } (v.a + v.aw * stop / 8)
      (v.d + v.dw * stop / 8) stop

/-- Carry out a REDUCE from its progress on (R73, R160). -/
def State.runReduce (s : State) (t : Nat) (m : QMove) : State :=
  let w := m.w
  let (a, d) := ((sramRef w 51).addr m.regs, (sramRef w 76).addr m.regs)
  let n := fld w 50 38
  let bad := (List.range (n - m.done)).findSome? fun k =>
    (s.sramPoison t (a + 256 * (m.done + k)) 256).map fun p => (m.done + k, p)
  let stop := (bad.map Prod.fst).getD n
  let group (g : Nat) := reduceGroup (fld w 33 32) (fld w 37 34 == 12) ((List.range 64).map fun i => s.elt t a 32 (64 * g + i))
  let (s, xs) := s.fill 32 ((List.range (stop - m.done)).map fun k => group (m.done + k))
  let s := (s.writeElts t d 32 m.done xs).bump .tileVecOps (t / 512) 0 (stop - m.done)
  let s := s.modMove t m.id fun m => { m with done := stop }
  match bad with
  | none => s.moveDone t m.id
  | some (_, p) =>
    s.suspend t { m with done := stop } 3 { status := .poison, addr := a + 256 * stop, phys := p } (a + 256 * stop) (d + 4 * stop) stop

/-- Bytes of a weight row, and of a vector (R159). -/
def mvRow (f : Fmt) (k : Nat) : Nat := ceilDiv (k * f.width) 8
def mvVec (f : Fmt) (k : Nat) : Nat := ceilDiv (k * f.width) 512 * 64

/-- One weight row of an MV_PASS against every vector (R69, R127). -/
def State.mvRowOut (s : State) (t : Nat) (m : QMove) (bs scs : List Byte) (v : Nat) : Nat :=
  let w := m.w
  let k := fld w 50 36
  let wf := (Fmt.ofCode (fld w 68 65)).getD .e4m3
  let vf := (Fmt.ofCode (fld w 72 69)).getD .bf16
  let vec := (sramRef w 76).addr m.regs + v * mvVec vf k
  let blk := fld w 74 73
  mvDot ((List.range k).map fun i =>
    (scaledVal wf blk (if blk = 0 then 0 else (scs.getD (i / blockSize blk) 0).toNat) (eltAt bs wf.width i)).mul
      (vf.decode (s.elt t vec vf.width i)))

/-- Carry out an MV_PASS, row by row, from its progress on (R69 to R71, R228). -/
def State.runMvRows (s : State) (t : Nat) (j : Job) (m : QMove) : Nat → State
  | 0 => s.moveDone t m.id
  | f + 1 =>
    let w := m.w
    let n := fld w 64 51 - (f + 1)
    let k := fld w 50 36
    let b := fld w 35 32
    let wf := (Fmt.ofCode (fld w 68 65)).getD .e4m3
    let vf := (Fmt.ofCode (fld w 72 69)).getD .bf16
    let blk := fld w 74 73
    let per := if blk = 0 then 0 else k / blockSize blk
    let wa := (jobRef w 126).addr m.regs + n * mvRow wf k
    let sa := (jobRef w 179).addr m.regs + n * per
    let res := (sramRef w 101).addr m.regs
    let fail (s : State) (f : Suspend) : State :=
      (s.modMove t m.id fun m => { m with done := n }).suspend t { m with done := n } 2 f wa (res + 4 * n) n
    let vp := (List.range b).findSome? fun v => s.sramPoison t ((sramRef w 76).addr m.regs + v * mvVec vf k) (mvRow vf k)
    match vp with
    | some p => fail s { status := .poison, addr := p % sramSize, phys := p }
    | none =>
      match s.readJob (unitOfTile t) j wa (mvRow wf k) true with
      | (s, .error e) => fail s e
      | (s, .ok bs) =>
        match s.readJob (unitOfTile t) j sa per true with
        | (s, .error e) => fail s e
        | (s, .ok scs) =>
          let d := t / 512
          let s := s.bump .tileMvWeights d 0 k
          let s := if wf == .t2 then s.bump .tileT2InvalidCode d 0 ((List.range k).filter fun i => eltAt bs 2 i == 2).length else s
          let s := s.bump .tileBlockNanScale d 0 (scs.filter (· == 255)).length
          let ys := (List.range b).map fun v => s.mvRowOut t m bs scs v
          let s := ys.zipIdx.foldl (fun s (y, v) =>
            s.writeSram (sramBase t + res + v * fld w 64 51 * 4 + 4 * n) (leBytes 4 y) false) s
          s.runMvRows t j m f

/-- Start the next move of the vector unit and of the MV unit when the one before it has ended (R136). -/
def State.kickVec (s : State) (t : Nat) : Nat → State
  | 0 => s
  | f + 1 =>
    if !s.mayStart t then s else
    match (s.tile t).front .vec with
    | none => s
    | some m =>
      if m.state ≠ .queued then s else
      let s := if Hdr.op m.w = 0x38 then s.runVop t m else s.runReduce t m
      s.kickVec t f

/-- The same for the MV unit, which is busy for N × ⌈K × b / 128⌉ + 12 steps (R70, R248). -/
def State.kickMv (s : State) (t : Nat) : Nat → State
  | 0 => s
  | f + 1 =>
    if !s.mayStart t then s else
    match (s.tile t).front .mv, s.unitJob t with
    | some m, some j =>
      if m.state ≠ .queued then s else
      let n := fld m.w 64 51 - m.done
      let s := s.modTile t fun x => { x with
        mvUntil := max x.mvUntil (s.ring (t / 32)) + n * ceilDiv (fld m.w 50 36 * fld m.w 35 32) 128 + 12 }
      (s.runMvRows t j m n).kickMv t f
    | _, _ => s

/-- Let every unit of a tile that needs no further event go on. -/
def State.kick (s : State) (t : Nat) : State :=
  let n := (s.tile t).queue.length
  ((s.kickArray t).kickVec t n).kickMv t n

/-- The checks of MV_PASS at decode (R69, R77, R84, R139, R159). -/
def mvChecks (w : MoveWord) (x : Tile) : Option Status :=
  let (b, k, n, blk) := (fld w 35 32, fld w 50 36, fld w 64 51, fld w 74 73)
  match Fmt.ofCode (fld w 68 65), Fmt.ofCode (fld w 72 69) with
  | some wf, some vf =>
    let wa := (jobRef w 126).addr x.regs
    let sa := (jobRef w 179).addr x.regs
    let (res, vec) := ((sramRef w 101).addr x.regs, (sramRef w 76).addr x.regs)
    firstOf [
      when? (!clear w [(255, 232), (75, 75)] || blk = 3) .reservedValue,
      when? (b > 8 || k > 16384 || n > 8192) .lengthRange,
      when? (!([Fmt.e2m1, .e4m3, .e3m2, .t2].contains wf) || !(vf == .bf16 || vf == .e4m3)) .formatUnsupported,
      when? (blk != 0 && k % blockSize blk != 0) .lengthRange,
      when? (!groupOk wf wa 0) .alignment,
      offJob wa, if blk = 0 then none else offJob sa, offSram res, offSram vec,
      when? (b != 0 && k != 0 && n != 0 && (vec + (b - 1) * mvVec vf k + mvRow vf k > sramSize || res + b * n * 4 > sramSize))
        .lengthRange]
  | _, _ => some .reservedValue

/-- MV_PASS at decode (R159). -/
def execMvPass (t : TileIx) (w : MoveWord) (s : State) : Out :=
  .next ((s.decode t w 0x30 fun s j x =>
    match mvChecks w x with
    | some e => .refuse e
    | none => if fld w 35 32 = 0 || fld w 50 36 = 0 || fld w 64 51 = 0 then .noop s else .queued (s.enqueue t w j x)).kick t)

/-- VOP at decode (R133, R139, R160). -/
def execVop (t : TileIx) (w : MoveWord) (s : State) : Out :=
  .next ((s.decode t w 0x38 fun s j x =>
    let v := vopSpec w x.regs
    match vopChecks w v with
    | some e => .refuse e
    | none =>
      let s := if v.converts then s.setTile t { x with convIx := x.convIx + 1 } else s
      if v.count = 0 then .noop s else .queued (s.enqueue t w j x)).kick t)

/-- The checks of REDUCE at decode (R73, R139, R160). -/
def reduceChecks (w : MoveWord) (x : Tile) : Option Status :=
  let n := fld w 50 38
  firstOf [
    when? (!clear w [(255, 101)] || fld w 33 32 = 3 || fld w 37 34 = 15) .reservedValue,
    when? (fld w 37 34 != 0 && fld w 37 34 != 12) .formatUnsupported,
    when? (n > 4096) .lengthRange, offSram ((sramRef w 51).addr x.regs), offSram ((sramRef w 76).addr x.regs),
    when? (n != 0 && ((sramRef w 51).addr x.regs + 256 * n > sramSize || (sramRef w 76).addr x.regs + 4 * n > sramSize)) .lengthRange]

/-- REDUCE at decode (R73, R160). -/
def execReduce (t : TileIx) (w : MoveWord) (s : State) : Out :=
  .next ((s.decode t w 0x39 fun s j x =>
    match reduceChecks w x with
    | some e => .refuse e
    | none => if fld w 50 38 = 0 then .noop s else .queued (s.enqueue t w j x)).kick t)

end Sys2Proof.Machine
end

