-- ==== Sys2Proof/Machine/Copy.lean ====
section
/-! DEFINITION. COPY and its granules, the completion of decoded moves, walks, and the end of a hold (R137, R146, R161,
R220, R227, R228). -/

namespace Sys2Proof.Machine

/-- The operands of a COPY (R161). -/
structure CopySpec where
  sk : Nat
  dk : Nat
  src : Nat
  dst : Nat
  len : Nat
  sf : Fmt
  df : Fmt
  cvt : Nat
  wrap : Nat
  ptile : Nat
  aten : Bool
  atal : Nat
  deriving DecidableEq, Repr

/-- The fields of a COPY word (R161). -/
def copySpec (w : MoveWord) (r : Regs) : CopySpec :=
  { sk := fld w 33 32, dk := fld w 35 34, src := (kindRef w 128 (fld w 33 32)).addr r, dst := (kindRef w 181 (fld w 35 34)).addr r
    len := fld w 127 96, sf := (Fmt.ofCode (fld w 39 36)).getD .fp32, df := (Fmt.ofCode (fld w 43 40)).getD .fp32
    cvt := fld w 46 44, wrap := fld w 51 48, ptile := fld w 70 59, aten := bit w 58, atal := fld w 57 52 }

namespace CopySpec
/-- The copy converts (R133). -/
def converts (c : CopySpec) : Bool := c.sf != c.df
/-- Source elements of a converting copy (R98, R161). -/
def elts (c : CopySpec) : Nat := if c.sf == .pa6 then c.len else c.len * 8 / c.sf.width
/-- Bytes written. -/
def out (c : CopySpec) : Nat := if c.converts then ceilDiv (c.elts * c.df.width) 8 else c.len
/-- Granules (R146). -/
def granules (c : CopySpec) : Nat := ceilDiv c.out 256
/-- Destination address of byte o, in a ring of 2^(WRAP + 11) bytes when WRAP is not 0. -/
def dstAt (c : CopySpec) (o : Nat) : Nat :=
  if c.wrap = 0 then c.dst + o
  else let r := 2 ^ (c.wrap + 11); c.dst / r * r + (c.dst + o) % r
/-- Source bytes below granule g, which begins a unit (R228). -/
def srcBytes (c : CopySpec) (g : Nat) : Nat :=
  if !c.converts then min c.len (256 * g) else
  let n := min c.elts (256 * g * 8 / c.df.width)
  if c.sf == .pa6 then n else n * c.sf.width / 8
/-- The addresses and the bytes at which a copy stands before granule g (R228). -/
def stand (c : CopySpec) (g : Nat) : Nat × Nat × Nat := (c.src + c.srcBytes g, c.dstAt (256 * g), c.srcBytes g)
/-- Granules that make up whole elements and whole source groups (R77, R228): a copy is counted, and stops, between them. -/
def unit (c : CopySpec) : Nat :=
  if !c.converts then 1 else
  let whole (u : Nat) : Bool :=
    2048 * u % c.df.width == 0 && (if c.sf == .pa6 then 2048 * u / c.df.width % 128 == 0
      else 2048 * u / c.df.width * c.sf.width % (if c.sf.width = 6 then 24 else 8) == 0)
  if whole 1 then 1 else if whole 2 then 2 else 3
/-- The tile whose SRAM a kind names (R161). -/
def tileOf (c : CopySpec) (t kind : Nat) : Nat := if kind = 2 then c.ptile else t
end CopySpec

/-- Read n source bytes at offset o (R224). -/
def State.copyRead (s : State) (t : Nat) (j : Job) (c : CopySpec) (o n : Nat) :
    State × Except Suspend (List Byte) :=
  if c.sk = 1 then s.readJob (unitOfTile t) j (c.src + o) n true else
  let u := c.tileOf t c.sk
  match s.sramPoison u (c.src + o) n with
  | some p => (s, .error { status := .poison, addr := max (c.src + o) (p % sramSize), phys := p })
  | none => (s.ringBytes (t / 512) (sramBase u + c.src + o) n false, .ok (s.sram u (c.src + o) n))

/-- Write bytes at destination offset o, in pieces where a ring wraps: whole, or the first fault. -/
def State.copyWrite (s : State) (t : Nat) (j : Job) (c : CopySpec) (o : Nat) (bs : List Byte) (bad : Bool := false) :
    State × Option Suspend :=
  let cut := if c.wrap = 0 then bs.length else min bs.length (2 ^ (c.wrap + 11) - c.dstAt o % 2 ^ (c.wrap + 11))
  let put (s : State) (a : Nat) (bs : List Byte) : State × Option Suspend :=
    if c.dk = 1 then s.writeJob (unitOfTile t) j a bs bad true
    else
      let p := sramBase (c.tileOf t c.dk) + a
      ((s.writeSram p bs bad).ringBytes (t / 512) p bs.length true, none)
  match put s (c.dstAt o) (bs.take cut) with
  | (s, some f) => (s, some f)
  | (s, none) => if cut = bs.length then (s, none) else put s (c.dstAt (o + cut)) (bs.drop cut)

/-- Read the source bytes of a granule: of a PA6 record that is converted only the bytes before SEQ, the rest reading 0 (R98). -/
def State.copyReadSrc (s : State) (t : Nat) (j : Job) (c : CopySpec) (o n : Nat) :
    State × Except Suspend (List Byte) :=
  if !(c.converts && c.sf == .pa6) then s.copyRead t j c o n else
  (List.range (n / 128)).foldl (fun (acc : State × Except Suspend (List Byte)) k =>
    match acc with
    | (s, .error f) => (s, .error f)
    | (s, .ok bs) =>
      match s.copyRead t j c (o + 128 * k) 100 with
      | (s, .error f) => (s, .error f)
      | (s, .ok rs) => (s, .ok (bs ++ rs ++ List.replicate 28 0))) (s, .ok [])

/-- Code of the k-th element after `first`, of source bytes that begin with the byte in which that element begins (R77). -/
def copyCode (c : CopySpec) (bs : List Byte) (first k : Nat) : Nat :=
  let o := first * c.sf.width % 8 + k * c.sf.width
  leNat ((bs.drop (o / 8)).take 17) / 2 ^ (o % 8) % 2 ^ c.sf.width

/-- Values of source elements [first, first + n) from their bytes, which begin at element `first` (R98). -/
def copyVals (c : CopySpec) (bs : List Byte) (first n : Nat) : List (Option Val) :=
  if c.sf == .pa6 then
    (List.range n).map fun k => ((pa6Values ((bs.drop ((first % 128 + k) / 128 * 128)).take 128))[(first + k) % 128]?).getD none
  else
    (List.range n).map fun k => some (c.sf.decode (copyCode c bs first k))

/-- Write granule g of a COPY (R146, R161): its bytes, its tally; or the fault that suspends the move. -/
def State.copyGranule (s : State) (t : Nat) (j : Job) (m : QMove) (c : CopySpec) (g : Nat) :
    State × Option Suspend :=
  let lo := 256 * g
  let n := min 256 (c.out - lo)
  let d := t / 512
  if !c.converts then
    match s.copyRead t j c lo n with
    | (s, .error f) =>
      let p := f.addr - c.src
      if c.sk = 1 then (s, some f)
      else ((s.copyWrite t j c p ((s.sram (c.tileOf t c.sk) (c.src + p) (min 8 (lo + n - p)))) true).1, some f)
    | (s, .ok bs) => s.copyWrite t j c lo bs
  else
    let w := c.df.width
    let first := lo * 8 / w
    let last := min c.elts (ceilDiv ((lo + n) * 8) w)
    let b0 := if c.sf == .pa6 then first / 128 * 128 else first * c.sf.width / 8
    let b1 := if c.sf == .pa6 then ceilDiv last 128 * 128 else ceilDiv (last * c.sf.width) 8
    match s.copyReadSrc t j c b0 (b1 - b0) with
    | (s, .error f) => (s, some f)
    | (s, .ok bs) =>
      let anchor := (leNat m.desc : Int) - 32767
      let vs := copyVals c bs first (last - first)
      let es := vs.zipIdx.map fun (v, k) =>
        match v with
        | some v => c.df.encode (cvtRnd c.cvt j.p.seed t m.convIx (first + k)) (c.cvt % 2 = 1) anchor v
        | none => c.df.encode .rne (c.cvt % 2 = 1) anchor .nan
      let num := (es.zipIdx.map fun ((x, _), k) => x % 2 ^ w * 2 ^ (w * k)).sum / 2 ^ (lo * 8 - first * w)
      match s.copyWrite t j c lo (leBytes n num) with
      | (s, some f) => (s, some f)
      | (s, none) =>
        let own := (es.zip vs).zipIdx.filter fun x => (first + x.2) * w ≥ lo * 8
        let s := s.countCvt d (own.map fun x => x.1.1.2)
        let s := s.bump .tileCvtPa6Invalid d 0 (own.filter fun x => x.1.2.isNone).length
        let code := copyCode c bs first
        let s := if c.sf == .t2 then s.bump .tileT2InvalidCode d 0 (own.filter fun x => code x.2 == 2).length else s
        let s := if c.sf == .ax96 then s.bump .tileCvtAx96Invalid d 0 (own.filter fun x => ax96Invalid (code x.2)).length else s
        (s, none)

/-- COPY checks at decode, in the manual's order (R77, R83, R89, R91, R98, R143, R161). -/
def copyChecks (w : MoveWord) (c : CopySpec) (p : JobParams) : Option Status :=
  let e8 (f : Fmt) := f == .e8m0
  let cvt := c.converts
  firstOf [
    when? (!clear w [(255, 234), (95, 71)] || c.sk = 3 || c.dk = 3 || (c.sk = 2 && c.dk = 2) || c.wrap > 8 || fld w 46 45 = 3 ||
      fld w 39 36 = 15 || fld w 43 40 = 15 || (c.sk != 1 && fld w 180 153 != 0) || (c.dk != 1 && fld w 233 206 != 0)) .reservedValue,
    when? (!groupOk c.sf c.src 0 || !groupOk c.df c.dst 0) .alignment,
    when? ((e8 c.sf && c.df != .fp32) || (e8 c.df && c.sf != .fp32)) .formatUnsupported,
    when? (cvt && fld w 46 45 != 0 && (c.df == .fp32 || c.df == .ax96)) .formatUnsupported,
    when? (cvt && c.df == .pa6) .formatUnsupported,
    when? (cvt && c.sf == .pa6 && c.df != .fp16 && c.df != .fp32) .formatUnsupported,
    when? (c.sf == .pa6 && c.len % 128 != 0) .lengthRange,
    when? (c.sf == .pa6 && c.src % 128 != 0) .alignment,
    when? ((c.sk = 2 || c.dk = 2) && !jobHas p c.ptile) .groupRange,
    when? (cvt && c.sf != .pa6 && (c.len * 8 % c.sf.width != 0 || (c.sf.width = 6 && c.len % 3 != 0) ||
      (c.df.width = 6 && c.elts % 4 != 0))) .lengthRange,
    when? ((c.sk = 1 && c.src ≥ 2 ^ 48) || (c.dk = 1 && c.dst ≥ 2 ^ 48) || (c.sk != 1 && c.src ≥ sramSize) ||
      (c.dk != 1 && c.dst ≥ sramSize)) .lengthRange,
    when? (c.len != 0 && ((c.sk != 1 && c.src + c.len > sramSize) || (c.dk != 1 && c.wrap = 0 && c.dst + c.out > sramSize)))
      .lengthRange]

/-- COPY at decode (R133, R161). A copy to AX96 has no ANCHOR field: its anchor is a free value (log 2). -/
def execCopy (t : TileIx) (w : MoveWord) (s : State) : Out :=
  .next (s.decode t w 0x40 fun s j x =>
    let c := copySpec w x.regs
    match copyChecks w c j.p with
    | some e => .refuse e
    | none =>
      let s := if c.converts then s.setTile t { x with convIx := x.convIx + 1 } else s
      if c.len = 0 then .noop s
      else if c.converts && c.df == .ax96 then
        let (v, s) := s.free
        .queued (s.enqueue t w j x fun m => { m with desc := leBytes 2 (v.toNat % 65535) })
      else .queued (s.enqueue t w j x))

/-- A COPY that stops goes on from the last unit that it has written whole (R228). -/
def QMove.rounded (m : QMove) : QMove :=
  if Hdr.op m.w = 0x40 then let u := (copySpec m.w m.regs).unit; { m with done := m.done / u * u } else m

/-- Suspend a COPY at the units written so far (R228). -/
def State.suspendCopy (s : State) (t : Nat) (m : QMove) (c : CopySpec) (f : Suspend) : State :=
  let m := m.rounded
  let (src, dst, bytes) := c.stand m.done
  (s.modMove t m.id QMove.rounded).suspend t m 4 f src dst bytes

/-- The next granule of a COPY is written, and counted in its arrival tally with its unit's last; one of an old epoch is
discarded, and a fault suspends the move (R146, R228, R254). -/
def State.writeGranule (s : State) (t : Nat) (m : QMove) (j : Job) : State :=
  let c := copySpec m.w m.regs
  let next (s : State) : State :=
    s.modMove t m.id fun m => { m with done := m.done + 1, state := if m.done + 1 ≥ c.granules then .done else .started }
  if s.expired j m then next (s.countExpired j (if c.aten then 2 else 1)) else
  match s.copyGranule t j m c m.done with
  | (s, some f) => s.suspendCopy t m c f
  | (s, none) =>
    let n := if (m.done + 1) % c.unit = 0 || m.done + 1 ≥ c.granules then m.done % c.unit + 1 else 0
    next (if c.aten && n != 0 then s.arrive j.id (if c.dk = 2 then c.ptile else t) c.atal n else s)

/-- GRANULE_WRITTEN (R146, R207, R254): the lines that `errs` names have gone wrong before this read. -/
def execGranuleWritten (t : TileIx) (id : Nat) (errs : List (Nat × Nat)) (s : State) : Out :=
  let x := s.tile t
  match x.move id, s.unitJob t with
  | some m, some j =>
    when_ s (s.mayStart t && Hdr.op m.w == 0x40 && x.copyRuns m) fun s => (s.upset errs).writeGranule t m j
  | _, _ => .next s

/-- What a completing move writes to a register: PASS_SPLIT's status bytes, ATOMIC's fetched value (R157, R162). -/
def lateValue (m : QMove) : Option (Nat × BitVec 64) :=
  (lateWrite m.w).map fun r =>
    (r, BitVec.ofNat 64 (if Hdr.op m.w = 0x22 then (m.quads.zipIdx.map fun (q, i) => q * 256 ^ i).sum else leNat m.desc))

/-- Every unit of a tile goes on. -/
def State.kickAll (s : State) (t : Nat) : State := (((s.kick t).kickFab t).kickColl t).kickPpe t

/-- DTEN of a move that completes in time counts its tally; one of an old epoch is discarded and counted (R137, R254). -/
def State.countDone (s : State) (t : Nat) (m : QMove) (j : Job) : State :=
  if !Hdr.dten m.w then s else if s.expired j m then s.countExpired j 1 else s.arrive j.id t (Hdr.dtal m.w) 1

/-- A move that has ended completes (R137): it leaves the queue, writes its register, and its DTEN tally counts. A fabric
move with packets still to be receipted is kept for them (R150, R286). Under FINISH the array move that ran on changes no
tally, and its tile restarts (R253, R254). -/
def State.completeMove (s : State) (t : Nat) (m : QMove) (j : Job) : State :=
  let keep := s.outstanding j.id t m.id > 0
  let s := s.modTile t fun x =>
    let x := { x with
      queue := x.queue.filter fun y => y.id != m.id
      late := if keep then x.late ++ [{ m with completed := true }] else x.late }
    match lateValue m with | some (r, v) => x.setReg r v | none => x
  if (s.tile t).finishing then
    if (s.tile t).queue.isEmpty then s.restartTile t else s
  else (s.countDone t m j).kickAll t

/-- MOVE_COMPLETION (R137): the units of the tile go on, and a move that has ended completes. -/
def execMoveCompletion (t : TileIx) (id : Nat) (s : State) : Out :=
  when_ s (s.tileRuns t) fun s =>
    let s := s.kickAll t
    match (s.tile t).move id, s.unitJob t with
    | some m, some j => if m.state ≠ .done then s else s.completeMove t m j
    | _, _ => s

/-- The job addresses that a suspended or running COPY still reads or writes hold this address. -/
def copyTouches (m : QMove) (a : Nat) (write : Bool) : Bool :=
  let c := copySpec m.w m.regs
  let g := m.done / c.unit * c.unit
  if write then c.dk == 1 && c.dstAt (256 * m.done) ≤ a && a < c.dstAt (256 * m.done) + 256
  else c.sk == 1 && c.src + c.srcBytes g ≤ a && a < c.src + c.srcBytes (g + c.unit)

/-- A miss is walked (R219, R220). -/
def State.walked (s : State) (u : WalkUnit) (j : Job) (addr : BitVec 48) (write : Bool) (mv : Option (TileIx × Nat)) : State :=
  let (s, r) := s.translate u j addr.toNat write
  match r, mv with
  | .bad f, some (t, id) =>
    match (s.tile t).move id with
    | some m =>
      if Hdr.op m.w == 0x40 && (s.tile t).job == j.id && (s.tile t).copyRuns m && copyTouches m addr.toNat write
      then s.suspendCopy t m (copySpec m.w m.regs) f else s
    | none => s
  | _, _ => s

/-- WALK_COMPLETE (R219, R220): a miss is walked; the translation enters the map cache, or the move that waits on it
faults. -/
def execWalkComplete (u : WalkUnit) (job : BitVec 12) (addr : BitVec 48) (write : Bool) (mv : Option (TileIx × Nat)) (s : State) : Out :=
  match s.job job with
  | none => .next s
  | some j =>
    when_ s (s.working && !(s.xlat[u].cache.any fun e => e.job == job && e.page == addr.toNat / 2 ^ e.size)) fun s => s.walked u j addr write mv

/-- A job has a move suspended for HOLD_TIME, held or saved (R227, R234). -/
def State.heldTooLong (s : State) (t id : Nat) (j : Job) : Bool :=
  match (s.partOf j t).bind fun x => x.move id with
  | some m =>
    match m.state with
    | .suspended f => j.p.policy == 1 && decide (f.since + j.p.holdMs * 1000000 ≤ s.time.work)
    | _ => false
  | none => false

/-- HOLD_TIMEOUT (R227): a move suspended for HOLD_TIME under HOLD_TIMED ends its job, which may be saved. -/
def execHoldTimeout (t : TileIx) (id : Nat) (s : State) : Out :=
  match s.jobs.find? (s.heldTooLong t id) with
  | some j => when_ s s.working fun s => (s.bump .faultTimeouts).endJob j.id .faultTimeout
  | none => .next s

end Sys2Proof.Machine
end

