-- ==== Sys2Proof/Machine/FabricMoves.lean ====
section
/-! DEFINITION. PUT, GET, ATOMIC, SIGNAL and FENCE at decode (R139, R143, R162, R262, R269 to R274, R286). -/

namespace Sys2Proof.Machine

/-- Reserved ranges and reserved values of the fabric moves (R162): LK 2 and 3 on any of them. LADDR belongs to PUT and GET. -/
def fabReserved (w : MoveWord) (c : FabSpec) : Bool :=
  !clear w [(255, 238), (95, 88)] || c.lk > 1 || ((c.op = 0x41 || c.op = 0x42) && c.lk = 0 && fld w 228 201 != 0) ||
  (bit w 49 && c.op != 0x44)

/-- Checks of R274 and R262 that every fabric move meets; a local SIGNAL names no other module. -/
def State.fabChecks (s : State) (w : MoveWord) (c : FabSpec) (j : Job) : Option Status :=
  let local_ := c.op = 0x44 && bit w 49
  firstOf [
    when? (fabReserved w c) .reservedValue,
    when? (!local_ && c.fid = 0xFFFF) .reservedValue,
    when? (c.op = 0x43 && c.aop = 15) .reservedValue,
    when? ((c.rten || c.op = 0x44) && c.rtile > 3071) .reservedValue,
    when? (local_ && !jobHas j.p c.rtile) .groupRange,
    when? (!local_ && s.fid.isNone) .noFabricId,
    when? (c.op = 0x43 && c.waddr % aopWidth c.aop != 0) .alignment,
    if c.op = 0x41 || c.op = 0x42 then (if c.lk = 1 then offJob c.laddr else offSram c.laddr) else none,
    when? ((c.op = 0x41 || c.op = 0x42) && c.waddr + c.len > 2 ^ 48) .lengthRange,
    when? ((c.op = 0x41 || c.op = 0x42) && c.lk = 0 && c.laddr + c.len > sramSize) .lengthRange]

/-- Decode a fabric move: check it, and queue it unless it is a no-op (R139, R274). -/
def State.fabMove (s : State) (t : Nat) (w : MoveWord) (op : Nat) : State :=
  (s.decode t w op fun s j x =>
    let c := fabSpec w x.regs
    match s.fabChecks w c j with
    | some e => .refuse e
    | none => if op ≠ 0x43 && c.len = 0 then .noop s else .queued (s.enqueue t w j x)).kickFab t

/-- PUT (R162, R269). -/
def execPut (t : TileIx) (w : MoveWord) (s : State) : Out := .next (s.fabMove t w 0x41)

/-- GET (R162, R270). -/
def execGet (t : TileIx) (w : MoveWord) (s : State) : Out := .next (s.fabMove t w 0x42)

/-- ATOMIC (R162, R271). -/
def execAtomic (t : TileIx) (w : MoveWord) (s : State) : Out := .next (s.fabMove t w 0x43)

/-- SIGNAL (R162, R272). -/
def execSignal (t : TileIx) (w : MoveWord) (s : State) : Out := .next (s.fabMove t w 0x44)

/-- FENCE (R286): decode holds until WAIT_SATISFIED finds every earlier fabric move receipted. -/
def execFence (t : TileIx) (w : MoveWord) (s : State) : Out :=
  .next (s.decode t w 0x45 fun s _ x =>
    if !clear w [(255, 32)] then .refuse .reservedValue
    else .ok (s.setTile t { x with seq := .waiting, wait := .fence, waitTal := dtalOf w }) none false)

end Sys2Proof.Machine
end

