-- ==== Sys2Proof/Machine/Collectives.lean ====
section
/-! DEFINITION. COLL_ISSUE, the completion and timeout of collectives, and the escrow messages and timers
(R164, R383 to R405). -/

namespace Sys2Proof.Machine

/-- The operands of COLL_ISSUE (R164). -/
def issueOf (w : MoveWord) (t id : Nat) (epoch : BitVec 8) : Issue :=
  { tile := t, id := id, epoch := epoch, op := fld w 51 48, dtype := fld w 55 52, policy := fld w 57 56, rop := fld w 59 58
    ctal := fld w 65 60, cten := bit w 66, root := fld w 95 80, count := fld w 159 128, src := fld w 207 160, dst := fld w 255 208 }

/-- The checks of R385, R164 and R139 at decode: reserved encodings, then the rest in the table's order (R11, R76, R548). -/
def State.collChecks (s : State) (w : MoveWord) (c : Issue) (j : Job) : Option Status :=
  let gid := BitVec.ofNat 16 (fld w 47 32)
  let q := BitVec.ofNat 32 (fld w 127 96)
  let e := ((collFmt c.dtype).map elemBytes).getD 1
  let g := (s.group gid).filter fun g => g.job == j.id
  let n := (g.map Group.size).getD 1
  firstOf [
    when? (!clear w [(79, 67)] || (Fmt.ofCode c.dtype).isNone || c.op > 6 || c.policy > 1 || c.rop = 3) .reservedValue,
    when? ((collFmt c.dtype).isNone || ((c.rop = 1 || c.rop = 2) && collFmt c.dtype == some .ax96)) .formatUnsupported,
    when? g.isNone .groupUnknown,
    when? ((c.op = 3 || c.op = 4) && c.root ≥ n) .rootRange,
    when? ((c.op = 6 && c.count > 1) || c.src + srcElems c.op n c.count * e > 2 ^ 48 || c.dst + dstElems c.op n c.count * e > 2 ^ 48 ||
      n * c.count > 0xFFFFFFFF) .lengthRange,
    when? (c.src % e != 0 || c.dst % e != 0) .alignment,
    when? (((s.ctx gid q).map fun x => x.issue.isSome).getD false) .collDuplicate,
    when? ((s.ctx gid q).isNone && (s.coll.ctxs.filter fun x => !x.reserve).length ≥ 56) .collLimit,
    when? s.fid.isNone .noFabricId]

/-- COLL_ISSUE (R385, R387, R390): a context is bound or created, and the engine starts it. -/
def execCollIssue (t : TileIx) (w : MoveWord) (s : State) : Out :=
  .next ((s.decode t w 0x58 fun s j x =>
    let c := issueOf w t x.nextId (s.epoch j)
    let gid := BitVec.ofNat 16 (fld w 47 32)
    let q := BitVec.ofNat 32 (fld w 127 96)
    match s.collChecks w c j with
    | some e => .refuse e
    | none =>
      if c.count = 0 then .noop (s.bump .collIssued) else
      let s := (s.enqueue t w j x).bump .collIssued
      match s.ctx gid q with
      | some _ => .queued (s.modCtx gid q fun y => { y with issue := some c, last := s.time.work })
      | none =>
        let free := ((s.group gid).map fun g => decide (s.framesUsed gid < recField g.record 56 2)).getD false
        let y : Ctx := { group := gid, seq := q, job := j.id, reserve := false, issue := some c, start := s.time.work
                         last := s.time.work, frame := free }
        .queued (s.modColl fun k => { k with ctxs := k.ctxs ++ [y] })).kickColl t)

/-- An operation completes (R386): the completion record, the tally, and the context is freed. -/
def State.completeColl (s : State) (x : Ctx) (c : Issue) : State :=
  let s := if x.nondet then (s.bump .collNondet).setFlag .collNondet 0 0 else s
  let s := s.collRecord x c 0 0
  let s := (s.dropCtx x).bump .collCompleted
  let s := if c.cten then s.arrive x.job c.tile c.ctal 1 else s
  (s.modJobTile x.job c.tile fun t => t.modFabMove c.id fun m => { m with state := .done }).collFrames

/-- Packets of a collective are still to be receipted. -/
def State.collLive (s : State) (group : BitVec 16) (seq : BitVec 32) : Bool :=
  s.fab.ort.any fun e => match e.owner with | .coll g q _ => g == group && q == seq | _ => false

/-- COLL_COMPLETE (R386): every result is written, every packet receipted and every grant released. -/
def execCollComplete (group : BitVec 16) (seq : BitVec 32) (s : State) : Out :=
  match s.ctx group seq with
  | none => .next s
  | some x =>
    match x.issue with
    | none => .next s
    | some c =>
      when_ s (s.working && x.written && !x.held && x.out.isEmpty && !s.collLive group seq && !(x.shares.any Share.held)) fun s =>
        s.completeColl x c

/-- COLL_TIMEOUT (R405): neither data nor a RESULT for CTIMEOUT. -/
def execCollTimeout (group : BitVec 16) (seq : BitVec 32) (s : State) : Out :=
  match s.ctx group seq, s.group group with
  | some x, some g =>
    when_ s (s.working && x.issue.isSome && !x.held && !x.written && x.last + g.ctimeout ≤ s.time.work) fun s =>
      (s.bump .collTimeouts).collFault x { status := .collTimeout, addr := 0 }
  | _, _ => .next s

/-- A share of a context by its port. -/
def Ctx.share (x : Ctx) (p : PortIx) : Option Share := x.shares.find? fun y => y.port == p

/-- The context and share that an ESCROW message names, with its group and issue. -/
def State.escShare (s : State) (p : PortIx) (key : EscrowKey) : Option (Ctx × Group × Issue × Share) :=
  (s.ctx key.group key.seq).bind fun x => if x.job ≠ key.job then none else
    (s.group key.group).bind fun g => x.issue.bind fun c => (x.share p).map fun y => (x, g, c, y)

/-- Handle a refusal of a share by POLICY (R400). -/
def State.escRefused (s : State) (x : Ctx) (c : Issue) (y : Share) : State :=
  let s := s.modCtx x.group x.seq fun x => { x with fellBack := true }
  if c.policy = 1 then (s.bump .collEscFallbacks).escFallback x y
  else s.modCtx x.group x.seq fun x => { x with
    shares := mapIf (fun z => z.port == y.port)
      (fun z => { z with state := .backoff (s.time.work + 1000 * 2 ^ min (y.refusals + 1) 6), refusals := z.refusals + 1, held := false }) x.shares }

/-- Slots are granted to a share (R398, R399, R403): they are held and the first round is sent; a grant that would need
more than 256 rounds is released and taken as a refusal. -/
def State.granted (s : State) (p : PortIx) (x : Ctx) (g : Group) (c : Issue) (y : Share) (slots : Nat) (ordered : Bool) : State :=
  let asked := max 1 (min 32 (ceilDiv (y.hi - y.lo) 4096))
  let s := s.bump .collEscGrants
  let s := if slots < asked then s.bump .collEscPartialGrants else s
  let s := if ordered then s else s.bump .collEscUnordered
  let s := s.modBook p fun b => { b with granted := b.granted + slots, held := b.held + slots }
  let y := { y with slots := slots, ordered := ordered, held := true, state := .granted, round := 0 }
  let x := { x with shares := mapIf (fun z => z.port == p) (fun _ => y) x.shares }
  let s := s.modCtx x.group x.seq fun _ => x
  if ceilDiv (y.hi - y.lo) (slots * 4096) > 256 then
    let s := s.escRelease x y
    (s.bump .collEscRefusals).escRefused { x with shares := mapIf (fun z => z.port == p) (fun z => { z with held := false }) x.shares } c { y with held := false }
  else
    let s := if y.refusals > 0 then s.bump .collEscWaitNs 0 0 (s.time.work - y.first) else s
    s.escData g x c y

/-- A grant for a share that has already changed to the endpoint algorithm, or whose collective is held, is released at once
(R398, R400, R403, log 22). -/
def State.lateGrant (s : State) (x : Ctx) (y : Share) (slots : Nat) (ordered : Bool) : State :=
  let s := if slots < max 1 (min 32 (ceilDiv (y.hi - y.lo) 4096)) then s.bump .collEscPartialGrants else s
  s.strayGrant y.port x.key slots ordered

/-- GRANT (R398, R399, R403). -/
def execGrant (p : PortIx) (key : EscrowKey) (slots : Nat) (ordered : Bool) (s : State) : Out :=
  when_ s (s.working && s.ports[p].usable && 1 ≤ slots && slots ≤ 32) fun s =>
    match s.escShare p key with
    | none => s.strayGrant p key slots ordered
    | some (x, g, c, y) =>
      if y.state == .requested && !x.held then s.granted p x g c y slots ordered
      else if !y.held && (y.state == .fallback || x.held) then s.lateGrant x y slots ordered
      else s

/-- REFUSE (R400). -/
def execRefuse (p : PortIx) (key : EscrowKey) (reason : BitVec 8) (s : State) : Out :=
  match s.escShare p key with
  | none => .next s
  | some (x, _, c, y) =>
    when_ s (s.working && s.ports[p].usable && y.state == .requested && !x.held && 1 ≤ reason.toNat && reason.toNat ≤ 3) fun s =>
      (s.bump .collEscRefusals).escRefused x c y

/-- A piece of a round's result arrives (R398, R399): after the whole round the next follows, and after the last RELEASE. An unordered grant makes an FP sum non-deterministic (R402). -/
def State.resultIn (s : State) (p : PortIx) (x : Ctx) (g : Group) (c : Issue) (y : Share) (offset : Nat) (payload : List Byte) : State :=
  let a := y.lo + y.round * y.slots * 4096
  let n := min (y.slots * 4096) (y.hi - a)
  let got := (32 * offset, payload) :: y.got
  let have_ := (got.map fun z => z.2.length).sum
  let s := s.bump .collRxBytes 0 0 payload.length
  if have_ < ceilDiv n 32 * 32 then
    s.modCtx x.group x.seq fun x => { x with
      last := s.time.work, shares := mapIf (fun z => z.port == p) (fun z => { z with got := got }) x.shares }
  else
    let bs : List Byte := ((List.range (n / 32 + 1)).flatMap fun k =>
      ((got.find? fun z => z.1 == 32 * k).map Prod.snd).getD []).take n
    let y : Share := { y with got := [], result := y.result ++ bs, round := y.round + 1 }
    let last : Bool := y.lo + y.result.length ≥ y.hi
    let y : Share := if last then { y with state := .done } else y
    let x : Ctx := { x with
      shares := mapIf (fun z => z.port == p) (fun _ => y) x.shares, last := s.time.work
      nondet := x.nondet || (c.fpSum && !y.ordered), planes := x.planes ||| BitVec.ofNat 16 (2 ^ p.val) }
    let s := s.modCtx x.group x.seq fun _ => x
    if last then (s.escRelease x y).collRun x.group x.seq else s.escData g x c y

/-- RESULT (R398, R399). -/
def execResult (p : PortIx) (key : EscrowKey) (round : BitVec 8) (offset : Nat) (payload : List Byte) (s : State) : Out :=
  match s.escShare p key with
  | none => .next s
  | some (x, g, c, y) =>
    when_ s (s.working && s.ports[p].usable && y.state == .granted && y.held && !x.held && y.round == round.toNat &&
        !(y.got.any fun z => z.1 == 32 * offset)) fun s => s.resultIn p x g c y offset payload

/-- RELEASED (R403): confirmed, or stale for a key that the module does not hold. -/
def execReleased (p : PortIx) (key : EscrowKey) (s : State) : Out :=
  when_ s (s.working && s.ports[p].usable) fun s =>
    match s.coll.books[p].releasing.find? fun z => z.1 == key with
    | none => s.bump .collEscStale
    | some z => s.modBook p fun b => { b with
        granted := b.granted - z.2, requested := b.requested - z.2, releasing := b.releasing.erase z }

/-- ESC_WAIT_EXPIRY (R400): under WAIT the share changes to the endpoint algorithm. -/
def execEscWaitExpiry (p : PortIx) (key : EscrowKey) (s : State) : Out :=
  match s.escShare p key with
  | none => .next s
  | some (x, g, c, y) =>
    let waits := match y.state with | .requested => true | .backoff _ => true | _ => false
    when_ s (s.working && c.policy == 0 && !x.held && waits && y.first + g.escWait ≤ s.time.work) fun s =>
      (s.bump .collEscFallbacks).escFallback x y

/-- ESCROW_BACKOFF (R400): the REQUEST is sent again. -/
def execEscrowBackoff (p : PortIx) (key : EscrowKey) (s : State) : Out :=
  match s.escShare p key with
  | none => .next s
  | some (x, g, c, y) =>
    match y.state with
    | .backoff till =>
      when_ s (s.working && !x.held && till ≤ s.time.work) fun s =>
        (s.modCtx key.group key.seq fun x => { x with
          shares := mapIf (fun z => z.port == p) (fun z => { z with state := .requested }) x.shares }).escRequest g x c y
    | _ => .next s

/-- ESC_TIMEOUT (R401): no RESULT in time; the rest of the share falls back and the grant is released. -/
def execEscTimeout (p : PortIx) (key : EscrowKey) (s : State) : Out :=
  match s.escShare p key with
  | none => .next s
  | some (x, g, _, y) =>
    when_ s (s.working && y.state == .granted && y.held && !x.held && y.sentAt + g.escTimeout ≤ s.time.work) fun s =>
      let s := s.modCtx key.group key.seq fun x => { x with fellBack := true }
      ((s.bump .collEscTimeouts).bump .collEscFallbacks).escFallback x y

end Sys2Proof.Machine
end

