-- ==== Sys2Proof/Machine/EndpointOps.lean ====
section
/-! DEFINITION. The endpoint: the checks of an arriving request, its effect and its receipt, and what answers do to the
outstanding request table (R266 to R291). -/

namespace Sys2Proof.Machine

/-- A message on a port reaches the endpoint: the endpoint runs and the port is usable; none is the module's own loop. -/
def State.hears (s : State) (p : Option PortIx) : Bool :=
  s.working && (match p with | none => true | some p => s.ports[p].usable)

/-! ## Receipts (R277 to R279) -/

/-- Group (SEQ, CE) pairs into RECEIPT entries of 32 SEQs. -/
def groupReceipts (xs : List (BitVec 24 × Bool)) : List ReceiptEntry :=
  xs.foldl (fun es x =>
    match es.find? fun e => e.ce == x.2 && (x.1 - e.base).toNat < 32 with
    | some e => mapIf (fun y => y == e) (fun y => { y with mask := y.mask ||| BitVec.ofNat 32 (2 ^ (x.1 - e.base).toNat) }) es
    | none => es ++ [{ base := x.1, mask := 1, ce := x.2 }]) []

/-- Send the pending delivery receipts of a source, up to 32 entries in each message (R278, R279). -/
def State.flushReceipts (s : State) (src : BitVec 16) : State :=
  match s.fab.pend.find? fun p => p.src == src with
  | none => s
  | some p =>
    let es := groupReceipts p.seqs
    let s := s.modFab fun f => { f with pend := mapIf (fun x => x.src == src) (fun x => { x with seqs := [] }) f.pend }
    (List.range (ceilDiv es.length 32)).foldl (fun s k =>
      s.message src 4 1 0 (((es.drop (32 * k)).take 32).flatMap receiptWord)) s

/-- Hold a delivery receipt for a source and send it when R278 says so: an entry covers up to 32 SEQs (R279). -/
def State.receiptFor (s : State) (src : BitVec 16) (seq : BitVec 24) (ce last : Bool) : State :=
  let now := s.time.work
  let old : PendRcpt := (s.fab.pend.find? fun p => p.src == src).getD { src := src }
  let new : PendRcpt := { old with
    seqs := old.seqs ++ [(seq, ce)], oldest := if old.seqs.isEmpty then now else old.oldest
    fastUntil := if last then now + 2000 else old.fastUntil }
  let s := s.modFab fun f => { f with pend := f.pend.filter (fun p => p.src != src) ++ [new] }
  if (groupReceipts new.seqs).length ≥ 32 || now < new.fastUntil then s.flushReceipts src else s

/-- A LAST packet of a GET or an ATOMIC has been applied: pending receipts go, and for 2 µs none is held (R278). -/
def State.lastApplied (s : State) (q : Request) : State :=
  if !q.last then s else
  let old : PendRcpt := (s.fab.pend.find? fun p => p.src == q.src).getD { src := q.src }
  (s.modFab fun f => { f with
    pend := f.pend.filter (fun p => p.src != q.src) ++ [{ old with fastUntil := s.time.work + 2000 }] }).flushReceipts q.src

/-- Answer a request with a NAK (R267, R290). -/
def State.nak (s : State) (src : BitVec 16) (seq : BitVec 24) (r : Reason) : State :=
  (s.message src 5 1 0 (leBytes 8 (r.code.toNat * 2 ^ 32 + seq.toNat * 2 ^ 40))).bump .fabNak r.code.toNat

/-! ## The window ledger (R264) -/

/-- Fields of a window entry. -/
def winField (e : BitVec 256) (hi lo : Nat) : Nat := e.toNat / 2 ^ lo % 2 ^ (hi + 1 - lo)
def winLen (e : BitVec 256) : Nat := winField e 239 192
def winLbase (e : BitVec 256) : Nat := winField e 191 144
def winWbase (e : BitVec 256) : Nat := winField e 143 96
def winOwner (e : BitVec 256) : BitVec 12 := BitVec.ofNat 12 (winField e 43 32)
def winJob (e : BitVec 256) : BitVec 12 := BitVec.ofNat 12 (winField e 31 20)

/-- A window covers a byte for a job. -/
def winHas (e : BitVec 256) (job : BitVec 12) (a : Nat) : Bool :=
  e.getLsbD 0 && winJob e == job && winWbase e ≤ a && a < winWbase e + winLen e

/-- The valid entry with JOB = job that holds a byte (R267 step 5). -/
def State.window (s : State) (job : BitVec 12) (a : Nat) : Option (BitVec 256) :=
  (s.fab.windows.find? fun w => winHas w.2 job a).map Prod.snd

/-! ## Requests (R267 to R275) -/

/-- Bytes of memory that a request reaches: a SIGNAL needs the window of its first byte only (R272). -/
def reqBytes (q : Request) : Nat := if q.op = 3 then 1 else if q.op = 2 then aopWidth q.aop.toNat else q.len.toNat

/-- Step 1 of R267: legal operation, class, lengths and payload (R268, R299, R300). -/
def reqLegal (q : Request) : Bool :=
  let n := q.payload.length
  q.op.toNat ≤ 3 && q.cls.toNat != 1 && (q.cls.toNat != 2 || q.op.toNat == 0) &&
  (match q.op.toNat with
   | 0 => 1 ≤ q.len.toNat && q.len.toNat ≤ 256 && n == q.len.toNat
   | 1 => 1 ≤ q.len.toNat && q.len.toNat ≤ 256 && n == 0
   | 2 => q.aop.toNat ≤ 14 && q.len.toNat == aopWidth q.aop.toNat * (if q.aop.toNat ≥ 13 then 2 else 1) && n == q.len.toNat
   | _ => q.len.toNat == 4 && n == 4)

/-- A PUT is collective data: of class COL, or of class PER at the CWADDR of a group of its job (R391, log 22). -/
def State.isCollData (s : State) (q : Request) : Bool :=
  q.op == 0 && (q.cls.toNat == 2 ||
    (q.cls.toNat == 3 && s.coll.groups.any fun g => g.job == q.job && recField g.record 40 6 == q.waddr.toNat))

/-- A source's SEQ lies before its LOW (R281). -/
def State.beforeLow (s : State) (src : BitVec 16) (seq : BitVec 24) : Bool :=
  ((s.fab.lows.find? fun x => x.1 == src).map fun x => decide ((seq - x.2).toNat ≥ 2 ^ 23)).getD false

/-- What the window's checks answer (R267 steps 5 to 10). -/
inductive WinAns where
  | ok (e : BitVec 256) (owner : Job) | bad (r : Reason)
  deriving DecidableEq, Repr

/-- Steps 5 to 10 of R267. -/
def State.winCheck (s : State) (q : Request) : WinAns :=
  let a := q.waddr.toNat
  match s.window q.job a with
  | none => .bad .noWindow
  | some e =>
    if a + reqBytes q > winWbase e + winLen e then .bad .windowRange
    else if !(if q.op = 1 then e.getLsbD 1 else if q.op = 2 then e.getLsbD 3 else e.getLsbD 2) then .bad .permDenied
    else if q.ord && !e.getLsbD 4 then .bad .orderDenied
    else if q.op = 2 && a % reqBytes q != 0 then .bad .misaligned
    else match s.job (winOwner e) with
    | none => .bad .noWindow
    | some o =>
      if (q.op = 3 || ((q.op = 0 || q.op = 2) && q.rten)) && !jobHas o.p q.rtile.toNat then .bad .tallyDenied
      else .ok e o

/-- Translate a range of the owner's map for an inbound access (R246, R267 step 13): pieces (physical address, offset,
length), a fault, or none where tile memory must be retried. -/
def State.inboundMap (s : State) (o : Job) (v n : Nat) (rd wr : Bool) : State × Option (Except Suspend (List (Nat × Nat × Nat))) :=
  (pieces 65536 (n + 1) v n).foldl (fun (acc : State × Option (Except Suspend (List (Nat × Nat × Nat)))) p =>
    match acc.2 with
    | some (.ok ps) =>
      let (s, x) := if rd then acc.1.translate 6 o p.1 false else (acc.1, .ok 0)
      match x with
      | .bad f => (s, some (.error { f with write := wr }))
      | .ok a =>
        let (s, x) := if wr then s.translate 6 o p.1 true else (s, .ok a)
        match x with
        | .bad f => (s, some (.error f))
        | .ok a =>
          match s.redirect o a with
          | none => (s, none)
          | some b => (s, some (.ok (ps ++ [(b, p.1 - v, p.2)])))
    | _ => acc) (s, some (.ok []))

/-- The NAK reason of a fault class (R290, R291). -/
def Suspend.reason (f : Suspend) : Reason :=
  match f.status with | .permission => .permission | .poison => .poison | _ => .notMapped

/-- Refuse an inbound access that met a fault, with a record of UNIT 5 (R230). -/
def State.nakFault (s : State) (q : Request) (o : Job) (f : Suspend) : State :=
  let s := s.fault (({ f with peer := q.src, peerJob := q.job } : Suspend).record { status := f.status, unit := 5, job := o.id })
  s.nak q.src q.seq f.reason

/-- Read pieces: bytes, or the poisoned address (R207). -/
def State.readPieces (s : State) (ps : List (Nat × Nat × Nat)) : State × Except Nat (List Byte) :=
  ps.foldl (fun (acc : State × Except Nat (List Byte)) p =>
    match acc.2 with
    | .error _ => acc
    | .ok bs =>
      let (s, bad) := acc.1.checkRead p.1 p.2.2
      match bad with
      | some a => (s, .error a)
      | none => (s, .ok (bs ++ s.readPhys p.1 p.2.2))) (s, .ok [])

/-- Enter an applied request in the de-dup table (R280). -/
def State.remember (s : State) (q : Request) (old : Option (BitVec 64)) : State :=
  s.modFab fun f => { f with dedup := f.dedup ++ [⟨q.src, q.seq, old⟩] }

/-- Count an applied request (R293). -/
def State.countRx (s : State) (q : Request) : State := (s.bump .fabRxPackets).bump .fabRxBytes 0 0 q.payload.length

/-- One atomic operation: old, operand and compare values of its width (R162, R271). -/
def atomicFn (aop old x cmp : Nat) : Nat :=
  let w := 8 * aopWidth aop
  match aop with
  | 0 | 1 => (old + x) % 2 ^ w
  | 2 => fp32Code ((Fmt.fp32.decode old).add (Fmt.fp32.decode x))
  | 3 | 4 => if signed w x < signed w old then x else old
  | 5 | 6 => min old x
  | 7 => floatPick .fp32 false old x
  | 8 | 9 => if signed w old < signed w x then x else old
  | 10 | 11 => max old x
  | 12 => floatPick .fp32 true old x
  | _ => if old = cmp then x else old

/-- Combining entries whose update is still pending (R287). -/
def State.combining (s : State) : List Combine := s.fab.combine.filter fun e => s.time.work < e.till

/-- A write of lines closes their combining entries: later operations come after it (R285). -/
def State.closeLines (s : State) (lo hi : Nat) (p : Combine → Bool := fun _ => true) : State :=
  s.modFab fun f => { f with combine := f.combine.map fun (e : Combine) => if lo ≤ e.line && e.line ≤ hi && p e then { e with closed := true } else e }

/-- The clock at which a new update of a line lands: 4 ns after the one before it in its bank (R287). -/
def State.landing (s : State) (line : Nat) : Nat :=
  (s.combining.filter fun e => e.line % 64 == line % 64).foldl (fun n (e : Combine) => max n e.till) s.time.work + 4

/-- The value that an atomic leaves, and the combining entry it makes or joins (R285, R287, R288). A combined FP32 ADD may be
summed in either way, so its result is a free choice (log 21). -/
def State.atomicValue (s : State) (a aop old x cmp : Nat) : State × Nat :=
  let line := a / 64
  let s := s.closeLines line line fun e => e.aop != aop
  let live := s.combining
  let single := atomicFn aop old x cmp
  if aop ≥ 13 then ((s.modFab fun f => { f with combine := live }).bump .fabAtomicCas, single)
  else match live.find? fun e => e.line == line && e.aop == aop && !e.closed with
  | some e =>
    let s := s.bump .fabAtomicCombined
    let word := e.words.find? fun w => w.1 == a
    let acc := match word with | some w => atomicFn aop w.2.2.toNat x 0 | none => x
    let base := match word with | some w => w.2.1 | none => BitVec.ofNat 64 old
    let e' := { e with words := (a, base, BitVec.ofNat 64 acc) :: e.words.filter fun w => w.1 != a }
    let s := s.modFab fun f => { f with combine := mapIf (fun y => y == e) (fun _ => e') live }
    if aop = 2 && word.isSome then
      let (v, s) := s.free
      (s, if v.getLsbD 0 then atomicFn 2 base.toNat acc 0 else single)
    else (s, single)
  | none =>
    let e : Combine := { line := line, aop := aop, words := [(a, BitVec.ofNat 64 old, BitVec.ofNat 64 x)], till := s.landing line }
    (s.modFab fun f => { f with combine := live ++ [e] }, single)

/-- Apply a PUT whose pieces are known: bytes, tally, receipt (R275, R285). -/
def State.applyPut (s : State) (q : Request) (o : Job) (ps : List (Nat × Nat × Nat)) : State :=
  let s := ps.foldl (fun s p => (s.closeLines (p.1 / 64) ((p.1 + p.2.2 - 1) / 64)).writePhys p.1 ((q.payload.drop p.2.1).take p.2.2)) s
  let s := if q.rten then s.arrive o.id q.rtile.toNat q.rtal.toNat 1 else s
  ((s.remember q none).countRx q).receiptFor q.src q.seq q.ce q.last

/-- Apply a GET: GET_DATA is its receipt (R270, R277). `dup` is a duplicate of an ordered GET. -/
def State.applyGet (s : State) (q : Request) (o : Job) (e : BitVec 256) (ps : List (Nat × Nat × Nat)) (dup : Bool) : State :=
  match s.readPieces ps with
  | (s, .error a) => s.nakFault q o { status := .poison, addr := winLbase e + (q.waddr.toNat - winWbase e), phys := a }
  | (s, .ok bs) =>
    let s := if q.ord && !dup then s.remember q none else s
    ((if dup then s else s.countRx q).message q.src 2 1 (q.job.toNat * 2 ^ 116) bs q.seq.toNat q.ce).lastApplied q

/-- Answer an ATOMIC with its old value (R271, R277). -/
def State.atomicReply (s : State) (q : Request) (old : BitVec 64) : State :=
  s.message q.src 3 1 (q.job.toNat * 2 ^ 116 + old.toNat) [] q.seq.toNat q.ce

/-- Apply an ATOMIC (R271, R287, R288). -/
def State.applyAtomic (s : State) (q : Request) (o : Job) (e : BitVec 256) (ps : List (Nat × Nat × Nat)) : State :=
  match ps, s.readPieces ps with
  | p :: _, (s, .ok bs) =>
    let w := aopWidth q.aop.toNat
    let old := leNat bs
    let x := leNat (if q.aop.toNat ≥ 13 then q.payload.drop w else q.payload)
    let (s, v) := s.atomicValue p.1 q.aop.toNat old x (leNat (q.payload.take w))
    let s := (s.writePhys p.1 (leBytes w v)).bump .fabAtomicOps
    let s := if q.rten then s.arrive o.id q.rtile.toNat q.rtal.toNat 1 else s
    (((s.remember q (some (BitVec.ofNat 64 old))).countRx q).atomicReply q (BitVec.ofNat 64 old)).lastApplied q
  | _, (s, .error a) => s.nakFault q o { status := .poison, addr := winLbase e + (q.waddr.toNat - winWbase e), phys := a, write := true }
  | [], (s, .ok _) => s

/-- Apply a SIGNAL (R272). -/
def State.applySignal (s : State) (q : Request) (o : Job) : State :=
  let s := s.arrive o.id q.rtile.toNat q.rtal.toNat (leNat q.payload)
  ((s.remember q none).countRx q).receiptFor q.src q.seq q.ce q.last

/-- Steps 5 to 13 of R267 and the effect. `dup` is the duplicate of an ordered GET (R280). -/
def State.admitRequest (s : State) (q : Request) (dup : Bool) : State :=
  match s.winCheck q with
  | .bad r => s.nak q.src q.seq r
  | .ok e o =>
    if q.ord && q.opv && !dup && !(s.fab.dedup.any fun d => d.src == q.src && d.seq == q.oprev) && !s.beforeLow q.src q.oprev then
      s.nak q.src q.seq .outOfOrder
    else if !dup && (q.op != 1 || q.ord) && s.fab.dedup.length ≥ 65536 then
      (s.bump .fabDedupFull).nak q.src q.seq .retry
    else if q.op = 3 then s.applySignal q o
    else if s.isCollData q then
      match s.collData q with
      | (s, .accepted) => ((s.remember q none).countRx q).receiptFor q.src q.seq q.ce q.last
      | (s, .nak r) => s.nak q.src q.seq r
    else
      match s.inboundMap o (winLbase e + (q.waddr.toNat - winWbase e)) (reqBytes q) (q.op != 0) (q.op != 1) with
      | (s, none) => s.nak q.src q.seq .retry
      | (s, some (.error f)) => s.nakFault q o f
      | (s, some (.ok ps)) =>
        if q.op = 0 then s.applyPut q o ps else if q.op = 1 then s.applyGet q o e ps dup else s.applyAtomic q o e ps

/-- The endpoint checks a request (R267): the first check that fails decides. -/
def State.accept (s : State) (q : Request) : State :=
  if !reqLegal q then s.nak q.src q.seq .malformed else
  let per := s.job q.job |>.filter fun j => j.p.periodic
  if q.cls.toNat = 3 && per.isNone then s.nak q.src q.seq .notPeriodJob else
  if q.cls.toNat = 3 && !((per.map fun j => s.epoch j == q.epoch).getD true) then
    let s := (s.bump .fabDrop 0x20).modJob q.job fun j => { j with period := j.period.map fun p => { p with epochDrops := p.epochDrops + 1 } }
    s.receiptFor q.src q.seq q.ce false
  else
    match s.fab.dedup.find? fun d => d.src == q.src && d.seq == q.seq with
    | none => s.admitRequest q false
    | some d =>
      let s := s.bump .fabDrop 0x21
      match d.old with
      | some old => s.atomicReply q old
      | none => if q.op = 1 then s.admitRequest q true else s.receiptFor q.src q.seq q.ce false

/-- The atomic unit accepts no atomic: its combining buffer is full, or others wait (R287, R289, log 21). -/
def State.atomicsHeld (s : State) : Bool := !s.fab.atomWait.isEmpty || s.combining.length ≥ 1024

/-- An arriving request (R267, R289): an atomic that the atomic unit does not accept waits in its order. -/
def State.request (s : State) (q : Request) : State :=
  if q.op = 2 && s.atomicsHeld then s.modFab fun f => { f with atomWait := f.atomWait ++ [(q, s.time.work)] } else s.accept q

/-- The atomics that wait are accepted in their order while the combining buffer has room; one that has waited more than
1 µs carries CE (R289). -/
def State.drainAtomics (s : State) : Nat → State
  | 0 => s
  | f + 1 =>
    match s.fab.atomWait with
    | [] => s
    | (q, t) :: rest =>
      if s.combining.length ≥ 1024 then s else
      ((s.modFab fun x => { x with atomWait := rest }).accept { q with ce := q.ce || decide (t + 1000 < s.time.work) }).drainAtomics f

/-! ## Answers (R270, R271, R277, R282, R283, R291) -/

/-- An entry's owner goes on after its packet has been answered. -/
def State.answered (s : State) (o : OrtOwner) : State :=
  let s := s.credited o
  let s := match o with | .coll g q _ => s.collRun g q | .move _ _ _ _ => s
  (s.coll.ctxs.filter fun x => !x.out.isEmpty).foldl (fun s x => s.collPump x.group x.seq (x.out.length + 1)) s

/-- An entry's owner faults (R283, R291). -/
def State.ownerFault (s : State) (o : OrtOwner) (f : Suspend) : State :=
  match o with
  | .move _ _ _ _ => s.failMove o f
  | .coll g q _ => match s.ctx g q with | some x => if x.held then s else s.collFault x f | none => s

/-- The status of a NAK reason that faults its move (R291). -/
def Reason.status : Reason → Status
  | .noWindow => .noWindow | .windowRange => .windowRange | .permDenied => .permDenied | .orderDenied => .orderDenied
  | .tallyDenied => .tallyDenied | .misaligned => .misaligned | .notPeriodJob => .notPeriodJob
  | .notMapped => .notMapped | .permission => .permission | .poison => .poison | _ => .malformed

/-- The owner of the window that a refused request met, for PEERJOB (R225, R230). A NAK does not name it, so that of another
module's window is a free value; a request refused before a window was met has none (log 20). -/
def State.peerOwner (s : State) (q : Request) (r : Reason) : BitVec 12 × State :=
  if r = .noWindow || r = .malformed || r = .notPeriodJob then (0, s)
  else if s.fid == some q.dst then (((s.window q.job q.waddr.toNat).map winOwner).getD 0, s)
  else let (v, s) := s.free; (v.setWidth 12, s)

/-- One NAK entry (R277, R282, R290, R291). -/
def State.nakEntry (s : State) (seq : BitVec 24) (code : BitVec 8) : State :=
  let r := ((Reason.ofCode code).filter fun r => r.code.toNat < 0x20).getD .malformed
  let s := s.bump .fabNakRx r.code.toNat
  match s.entry seq with
  | none => s.bump .fabRxReceiptStale
  | some e =>
    match r with
    | .retry | .noRoute | .hopBudget =>
      s.modOrt seq fun e => { e with
        backoffs := e.backoffs + 1, wait := .backoff (s.time.work + 1000 * 2 ^ min e.backoffs 6 + seq.toNat % 16 * 64) }
    | .outOfOrder =>
      if e.q.opv && (s.fab.ort.any fun x => x.seq == e.q.oprev && x.q.dst == e.q.dst) then s.modOrt seq fun e => { e with wait := .order }
      else s.resend e .fabTxRetransmitOrder
    | r =>
      let (o, s) := s.peerOwner e.q r
      ((s.retire e).bump .fabOrtReceipted).ownerFault e.owner
        { status := r.status, addr := e.q.waddr.toNat, remote := true, peer := e.q.dst, peerJob := o, write := e.q.op != 1 }

/-- One SEQ of a delivery receipt (R277, R289). -/
def State.receiptSeq (s : State) (seq : BitVec 24) (ce : Bool) : State :=
  match s.entry seq with
  | none => s.bump .fabRxReceiptStale
  | some e =>
    let s := if ce then s.cutRate e.q.dst else s
    ((s.retire e).bump .fabOrtReceipted).answered e.owner

/-- GET data for an entry (R219, R254, R270, R277): written and counted, discarded for an old epoch, or a late response. -/
def State.getData (s : State) (seq : BitVec 24) (ce : Bool) (bs : List Byte) : State :=
  match s.entry seq with
  | none => (s.bump .fabDrop 0x22).bump .fabRxReceiptStale
  | some e =>
    let s := if ce then s.cutRate e.q.dst else s
    let s := (s.retire e).bump .fabOrtReceipted
    match e.owner, s.ownerMove e.owner with
    | .move job t _ ix, some m =>
      match s.job job with
      | none => s.bump .fabDrop 0x22
      | some j =>
        let c := fabSpec m.w m.regs
        let a := c.laddr + 256 * ix
        let bs := bs.take (min 256 (c.len - 256 * ix))
        if c.op ≠ 0x42 then (s.bump .fabDrop 0x22).answered e.owner else
        if s.expired j m then (s.countExpired j (if c.lten then 2 else 1)).answered e.owner else
        let r : State × Option Suspend := if c.lk = 1 then s.writeJob 6 j a bs else
          match s.sramOf j t with
          | some b => (s.writePhys (b + a) bs, none)
          | none => (s, none)
        match r with
        | (s, some f) => s.ownerFault e.owner f
        | (s, none) => (if c.lten then s.arrive job t c.ltal 1 else s).answered e.owner
    | _, _ => s.bump .fabDrop 0x22

/-- The answer to an ATOMIC (R234, R271, R277): the fetched value, a late response for a discarded move, or a stale
receipt. -/
def State.atomicAnswer (s : State) (seq : BitVec 24) (ce : Bool) (old : BitVec 64) : State :=
  match s.entry seq with
  | none => s.bump .fabRxReceiptStale
  | some e =>
    let s := if ce then s.cutRate e.q.dst else s
    let s := (s.retire e).bump .fabOrtReceipted
    match e.owner, s.ownerMove e.owner with
    | .move job t id _, some _ =>
      (s.modJobTile job t fun x => x.modFabMove id fun m => { m with desc := leBytes 8 old.toNat }).answered e.owner
    | _, _ => s.bump .fabDrop 0x22

/-- A SEQ that a router names as lost (R282, R318): sent again, not by the port it left. -/
def State.lostSeq (s : State) (seq : BitVec 24) : State :=
  match s.entry seq with
  | none => s
  | some e => s.resend e .fabTxRetransmitLost e.port

/-- LOW of a source: entries before it are released (R281). -/
def State.takeLow (s : State) (src : BitVec 16) (low : BitVec 24) : State :=
  s.modFab fun f => { f with
    lows := (src, low) :: f.lows.filter fun x => x.1 != src
    dedup := f.dedup.filter fun d => !(d.src == src && (d.seq - low).toNat ≥ 2 ^ 23) }

end Sys2Proof.Machine
end

