-- ==== Sys2Proof/Machine/HostOps.lean ====
section
/-! DEFINITION. The RDMA engines: queue pairs, work queue elements, completions, the responder and the requester, and
rate control (R411, R413 to R425, R430, R231). -/

namespace Sys2Proof.Machine

/-! ## Ports and queue pairs -/

/-- The host port of an interface (R408). -/
def portOfIf (i : IfIx) : HostIx := ⟨i.val / 4, by omega⟩

/-- Change the host part. -/
def State.modHost (s : State) (f : HostEth → HostEth) : State := { s with host := f s.host }

/-- Change a host port. -/
def State.modHostPort (s : State) (h : HostIx) (f : HostPort → HostPort) : State :=
  s.modHost fun x => { x with ports := x.ports.set h (f x.ports[h]) }

/-- Change an interface. -/
def State.modIface (s : State) (i : IfIx) (f : Iface → Iface) : State :=
  s.modHost fun x => { x with ifaces := x.ifaces.set i (f x.ifaces[i]) }

/-- The interface exists in its port's mode (R407). -/
def State.ifaceExists (s : State) (i : IfIx) : Bool := i.val % 4 < hostIfaces s.host.ports[portOfIf i].mode

/-- A queue pair by its number. -/
def State.qp (s : State) (n : Nat) : Option Qp := s.host.qps.find? fun q => q.qpn == n

/-- Change a queue pair. -/
def State.modQp (s : State) (n : Nat) (f : Qp → Qp) : State :=
  s.modHost fun x => { x with qps := mapIf (fun q => q.qpn == n) f x.qps }

/-- PSNs that a message takes (R413). -/
def psnsOf (p : QpParams) (len : Nat) : Nat := max 1 (ceilDiv len p.mtu)

/-- Bytes of a frame beside its payload, with FCS (R431): Ethernet, IP, UDP, BTH, ICRC. -/
def frameOverhead (p : QpParams) : Nat := if p.addrIx < 4 then 62 else 82

/-- The bay that feeds an interface is being drained: its port stops new transmissions (R377). -/
def State.hostDrains (s : State) (i : IfIx) : Bool := s.bays[if (portOfIf i).val < 2 then (8 : BayIx) else 9].state == .draining

/-- A priority of a port is paused, and the pause is honoured (R426). -/
def HostPort.waits (p : HostPort) (k : Fin 8) : Bool := p.pfc.contains k && p.paused[k].isSome && !p.stormed[k]

/-- The priority of a queue pair's frames (R415). -/
def Qp.prio (q : Qp) : Fin 8 := ⟨q.p.pcp.toNat % 8, Nat.mod_lt _ (by decide)⟩

/-- Frames leave on an interface that is up (R423, R427, R432): in the gap of a laser switchover they are lost. -/
def State.transmit (s : State) (x : TxWait) : State :=
  if !s.host.ifaces[x.iface].up then s else
  let h := portOfIf x.iface
  let s := (s.bump .hostTxFrames h.val 0 x.packets).bump .hostTxBytes h.val 0 x.bytes
  match s.host.ports[h].dark with
  | some t => if s.clock < t + 20000 then s.bump .hostTxLaserGapFrames h.val 0 x.packets else s.emit (.net x.iface x.out)
  | none => s.emit (.net x.iface x.out)

/-- Send something for a queue pair in a number of packets: frames of a paused priority wait (R426). -/
def State.sendNet (s : State) (q : Qp) (o : NetOut) (packets bytes : Nat) : State :=
  let h := portOfIf q.p.iface
  let x : TxWait := ⟨q.p.iface, q.prio, o, packets, bytes + packets * frameOverhead q.p⟩
  if s.host.ports[h].waits q.prio then s.modHostPort h fun p => { p with txWait := p.txWait ++ [x] } else s.transmit x

/-! ## Completions (R420) -/

/-- Completion statuses by code (R420). -/
inductive CqStatus where
  | success | flushed | localInvalid | localFault | remoteAccess | remoteInvalid | remoteOperational | retryExceeded | rnrExceeded
  deriving DecidableEq, Repr

/-- Its code. -/
def CqStatus.code : CqStatus → Nat
  | .success => 0 | .flushed => 1 | .localInvalid => 2 | .localFault => 3 | .remoteAccess => 4 | .remoteInvalid => 5
  | .remoteOperational => 6 | .retryExceeded => 7 | .rnrExceeded => 8

/-- Write into a job's memory, or into its saved tiles (R246, R430): false where it faults. -/
def State.hubWrite (s : State) (j : Job) (a : Nat) (bs : List Byte) : State × Option Suspend :=
  match s.inboundMap j a bs.length false true with
  | (s, some (.ok ps)) => (ps.foldl (fun s p => s.writePhys p.1 ((bs.drop p.2.1).take p.2.2)) s, none)
  | (s, some (.error f)) => (s, some f)
  | (s, none) => (s, some { status := .notMapped, addr := a, write := true })

/-- Read from a job's memory, or from its saved tiles (R246, R430). -/
def State.hubRead (s : State) (j : Job) (a n : Nat) : State × Except Suspend (List Byte) :=
  match s.inboundMap j a n true false with
  | (s, some (.ok ps)) =>
    match s.readPieces ps with
    | (s, .ok bs) => (s, .ok bs)
    | (s, .error p) => (s, .error { status := .poison, addr := a, phys := p })
  | (s, some (.error f)) => (s, .error f)
  | (s, none) => (s, .error { status := .notMapped, addr := a })

/-- A fault record of the RDMA engine (R225, R231). -/
def State.rdmaFault (s : State) (j : BitVec 12) (f : Suspend) : State :=
  s.fault (f.record { status := f.status, unit := 6, job := j })

/-- Write a completion entry and count its tally (R420). -/
def State.complete (s : State) (n : Nat) (wrid bytes imm op : Nat) (st : CqStatus) (hasImm : Bool) : State :=
  match s.qp n with
  | none => s
  | some q =>
    match s.job q.job with
    | none => s
    | some j =>
      let e := leBytes 8 wrid ++ leBytes 4 bytes ++ leBytes 4 imm ++ leBytes 3 n ++ leBytes 1 op ++ leBytes 1 st.code ++
        leBytes 1 (if hasImm then 1 else 0) ++ leBytes 2 0 ++ leBytes 8 s.now.toNat
      let (s, f) := s.hubWrite j (q.p.cqBase.toNat + 32 * (q.cq % max 1 (q.p.sqDepth + q.p.rqDepth))) e
      let s := match f with | some f => s.rdmaFault q.job f | none => s
      let s := (s.bump .rdmaCompletions).modQp n fun q => { q with cq := q.cq + 1, completed := q.completed + 1 }
      if q.p.cten then s.arrive q.job q.p.ctile q.p.ctal.toNat 1 else s

/-- The OPCODE of a WQE and of a completion (R419, R420). -/
def wqeOp : RoceOp → Nat | .write => 0 | .writeImm => 1 | .send => 2 | .read => 3 | .atomic => 255

/-- End one work request that has been sent. -/
def State.endWqe (s : State) (n : Nat) (w : SentWqe) (st : CqStatus) : State :=
  let s := s.modQp n fun q => { q with sent := q.sent.filter fun x => x.index != w.index }
  if st = .success && !w.signalled then s
  else s.complete n w.wrid.toNat (if st = .success then w.len else 0) w.imm.toNat (wqeOp w.op) st (w.op == .writeImm)

/-- A WQE of the send queue (R419): 64 bytes. -/
def State.wqeBytes (s : State) (q : Qp) (j : Job) (k : Nat) : State × Except Suspend (List Byte) :=
  s.hubRead j (q.p.sqBase.toNat + 64 * (k % max 1 q.p.sqDepth)) 64

/-- Flush the work requests that were posted and not taken: each completes FLUSHED (R418, R420). -/
def State.flushPosted (n : Nat) : Nat → State → State
  | 0, s => s
  | f + 1, s =>
    match s.qp n with
    | none => s
    | some q =>
      if q.sqNext = q.sqProd then s else
      match s.job q.job with
      | none => s
      | some j =>
        let (s, r) := s.wqeBytes q j q.sqNext
        let wrid := match r with | .ok bs => leNat ((bs.drop 32).take 8) | .error _ => 0
        let op := match r with | .ok bs => leNat (bs.take 1) | .error _ => 0
        State.flushPosted n f ((s.modQp n fun q => { q with sqNext := (q.sqNext + 1) % 2 ^ 32 }).complete n wrid 0 0 op .flushed false)

/-- Complete every outstanding work request FLUSHED (R418). -/
def State.flushQp (s : State) (n : Nat) : State :=
  match s.qp n with
  | none => s
  | some q => State.flushPosted n q.p.sqDepth (q.sent.foldl (fun s w => s.endWqe n w .flushed) s)

/-- The queue pair enters ERROR (R411, R414, R417, R419, R423). -/
def State.qpError (s : State) (n : Nat) : State :=
  match s.qp n with
  | none => s
  | some q =>
    if q.state = .error then s else
    ((s.bump .rdmaQpErrors).modQp n fun q => { q with state := .error, beyond := [], rnrWait := false }).flushQp n

/-- Every queue pair that a test selects enters ERROR. -/
def State.qpErrors (s : State) (p : Qp → Bool) : State := (s.host.qps.filter p).foldl (fun s q => s.qpError q.qpn) s

/-! ## Requester (R419, R421, R423, R424) -/

/-- What a WQE says; none where it holds a reserved value or is too long (R419). -/
def parseWqe (bs : List Byte) (index : Nat) : Option (SentWqe × Bool) :=
  let f (a n : Nat) : Nat := leNat ((bs.drop a).take n)
  let op : Option RoceOp := match f 0 1 with | 0 => some .write | 1 => some .writeImm | 2 => some .send | 3 => some .read | _ => none
  match op with
  | none => none
  | some op =>
    if f 1 1 ≥ 4 || f 2 2 ≠ 0 || (List.range 24).any (fun k => bs.getD (40 + k) 0 != 0) || f 4 4 > 2 ^ 31 || f 8 8 ≥ 2 ^ 48 then none
    else some ({ index := index, op := op, signalled := f 1 1 % 2 = 1, psn := 0, psns := 1, len := f 4 4, laddr := f 8 8
                 raddr := BitVec.ofNat 64 (f 16 8), rkey := BitVec.ofNat 32 (f 24 4), imm := BitVec.ofNat 32 (f 28 4)
                 wrid := BitVec.ofNat 64 (f 32 8), first := 0, last := 0 }, f 1 1 / 2 % 2 = 1)

/-- Send c packets of a work request from packet k on (R414, R431); a READ asks for the rest of its data. A fault of the local
buffer is answered (R419). -/
def State.sendWqe (s : State) (q : Qp) (j : Job) (w : SentWqe) (k c : Nat) : State × Option Suspend :=
  let off := min w.len (k * q.p.mtu)
  let n := if w.op = .read then 0 else min (c * q.p.mtu) (w.len - off)
  let (s, r) := if n = 0 then (s, .ok []) else s.hubRead j (w.laddr + off) n
  match r with
  | .error f => (s, some f)
  | .ok bs =>
    (s.sendNet q (.request q.p.dstQpn (w.psn + BitVec.ofNat 24 k) w.op w.rkey (w.raddr + BitVec.ofNat 64 off)
        (if w.op = .read then w.len - off else n) w.imm bs)
      (if w.op = .read then 1 else c) n, none)

/-- Take new WQEs of a queue pair while it may send (R413, R419, R423, R430). -/
def State.pumpQp (n : Nat) : Nat → State → State
  | 0, s => s
  | f + 1, s =>
    match s.qp n with
    | none => s
    | some q =>
      if q.state ≠ .rts || q.rnrWait || !s.host.ifaces[q.p.iface].up || s.hostDrains q.p.iface || s.host.ports[portOfIf q.p.iface].waits q.prio ||
          q.sqNext = q.sqProd || !s.working then s else
      match s.job q.job with
      | none => s
      | some j =>
        let (s, r) := s.wqeBytes q j q.sqNext
        let bad (st : CqStatus) (wrid op : Nat) (s : State) : State :=
          ((s.modQp n fun q => { q with sqNext := (q.sqNext + 1) % 2 ^ 32 }).complete n wrid 0 0 op st false).qpError n
        match r with
        | .error x => bad .localFault 0 0 (s.rdmaFault q.job x)
        | .ok bs =>
          match parseWqe bs q.sqNext with
          | none => bad .localInvalid (leNat ((bs.drop 32).take 8)) (leNat (bs.take 1)) s
          | some (w, fence) =>
            let reads := (q.sent.filter fun x => x.op == .read).length
            if (fence && reads > 0) || (w.op == .read && reads ≥ q.p.reads) then s else
            let w := { w with psn := q.sendPsn, psns := psnsOf q.p w.len, first := s.time.work, last := s.time.work }
            match s.sendWqe q j w 0 w.psns with
            | (s, some x) => bad .localFault w.wrid.toNat (wqeOp w.op) (s.rdmaFault q.job x)
            | (s, none) =>
              State.pumpQp n f (s.modQp n fun q => { q with
                sqNext := (q.sqNext + 1) % 2 ^ 32, sendPsn := q.sendPsn + BitVec.ofNat 24 w.psns, sent := q.sent ++ [w] })

/-- Let a queue pair take what it may. -/
def State.workQp (s : State) (n : Nat) : State :=
  match s.qp n with | none => s | some q => State.pumpQp n q.p.sqDepth s

/-- Frames whose priority is no longer paused leave, and the queue pairs of the port go on (R426). -/
def State.releaseTx (s : State) (h : HostIx) : State :=
  let p := s.host.ports[h]
  let go := p.txWait.filter fun x => !p.waits x.prio
  let s := s.modHostPort h fun p => { p with txWait := p.txWait.filter fun x => p.waits x.prio }
  (s.host.qps.filter fun q => portOfIf q.p.iface == h).foldl (fun s q => s.workQp q.qpn) (go.foldl State.transmit s)

/-- Read the doorbell word: the send queue's producer index (R421). In ERROR what is posted completes FLUSHED. -/
def State.doorbell (s : State) (n : Nat) : State :=
  match s.qp n with
  | none => s
  | some q =>
    match s.job q.job with
    | none => s
    | some j =>
      let s := s.modQp n fun q => { q with polled := s.time.work }
      match s.hubRead j q.p.doorbell.toNat 8 with
      | (s, .error f) => s.rdmaFault q.job f
      | (s, .ok bs) =>
        let s := s.modQp n fun q => { q with sqProd := leNat bs % 2 ^ 32 }
        if q.state = .error then State.flushPosted n q.p.sqDepth s else s.workQp n

/-- Send a work request again from a PSN on; with a mask only the packets missing from it (R423, R424). A fault of its local
buffer ends it, and the queue pair enters ERROR (R419). -/
def State.resendWqe (s : State) (q : Qp) (j : Job) (w : SentWqe) (psn : BitVec 24) (mask : Option (BitVec 256)) : State :=
  let k := if (w.psn - psn).toNat < 2 ^ 23 then 0 else (psn - w.psn).toNat
  let missing (m : BitVec 256) : List Nat := (List.range (w.psns - k)).filter fun i => !m.getLsbD ((w.psn + BitVec.ofNat 24 (k + i) - psn).toNat)
  let runs : List (Nat × Nat) := match mask with
    | none => [(k, w.psns - k)]
    | some m => if w.op = .read then ((missing m).take 1).map fun i => (k + i, 1) else (missing m).map fun i => (k + i, 1)
  if runs.isEmpty then s else
  let s := s.bump .rdmaRetransmits 0 0 (if w.op = .read then 1 else (runs.map Prod.snd).sum)
  match runs.foldl (fun (acc : State × Option Suspend) r => if acc.2.isSome then acc else acc.1.sendWqe q j w r.1 r.2) (s, none) with
  | (s, some f) => ((s.rdmaFault q.job f).endWqe q.qpn w .localFault).qpError q.qpn
  | (s, none) => s.modQp q.qpn fun q => { q with
      sent := mapIf (fun x => x.index == w.index) (fun x => { x with resent := true, last := s.time.work }) q.sent }

/-- Send again every outstanding work request from a PSN on; with a mask only the packets missing from it (R423, R424).
While the interface is down or drained they wait, and their timer starts anew (R377, R423, R430). -/
def State.resendFrom (s : State) (n : Nat) (psn : BitVec 24) (mask : Option (BitVec 256)) : State :=
  match s.qp n with
  | none => s
  | some q =>
    if !s.host.ifaces[q.p.iface].up || s.hostDrains q.p.iface then
      s.modQp n fun q => { q with sent := q.sent.map fun x => { x with last := s.time.work } }
    else match s.job q.job with
    | none => s
    | some j =>
      q.sent.foldl (fun s w =>
        if (w.psn + BitVec.ofNat 24 w.psns - 1 - psn).toNat ≥ 2 ^ 23 || ((s.qp n).map Qp.state) == some .error then s
        else s.resendWqe q j w psn mask) s

/-- A retry of the oldest work request: past the retry count it fails (R423). -/
def State.retryQp (s : State) (n : Nat) (psn : BitVec 24) (mask : Option (BitVec 256)) : State :=
  match s.qp n with
  | none => s
  | some q =>
    match q.sent with
    | [] => s
    | w :: _ =>
      if q.retries ≥ q.p.retry.toNat then (s.endWqe n w .retryExceeded).qpError n
      else (s.modQp n fun q => { q with retries := q.retries + 1 }).resendFrom n psn mask

/-! ## Rate control (R425) -/

/-- A rate within 0.1 % of line rate and line rate. -/
def rateBound (r : Rat) : Rat := max (1 / 1000) (min 1 r)

/-- A CNP has arrived. -/
def State.cnpIn (s : State) (n : Nat) : State :=
  match s.qp n with
  | none => s
  | some q =>
    let g : Rat := 1 / s.host.ports[portOfIf q.p.iface].gInv
    let a := (1 - g) * q.alpha + g
    (s.bump .rdmaCnpRx).modQp n fun q => { q with alpha := a, rate := rateBound (q.rate * (1 - a / 2)), lastCnpRx := s.time.work }

/-- 50 µs without a CNP. -/
def State.rateTick (s : State) (n : Nat) : State :=
  match s.qp n with
  | none => s
  | some q =>
    let h := s.host.ports[portOfIf q.p.iface]
    let g : Rat := 1 / h.gInv
    s.modQp n fun q => { q with alpha := (1 - g) * q.alpha, rate := rateBound (q.rate + (h.rai : Rat) / 1000), lastCnpRx := s.time.work }

/-- A round trip has been measured on an ACK. -/
def State.rtt (s : State) (n rttNs : Nat) : State :=
  match s.qp n with
  | none => s
  | some q =>
    let h := s.host.ports[portOfIf q.p.iface]
    let w := s.time.work
    if rttNs > 1000 * h.tHigh then
      let s := s.modQp n fun q => { q with lowSince := none }
      if w < q.nextCut then s
      else s.modQp n fun q => { q with
        rate := rateBound (q.rate * (1 - 1 / 2 * (1 - (1000 * h.tHigh : Nat) / (rttNs : Rat)))), nextCut := w + rttNs }
    else if rttNs < 1000 * h.tLow then
      match q.lowSince with
      | none => s.modQp n fun q => { q with lowSince := some w }
      | some t =>
        if t + 50000 ≤ w then s.modQp n fun q => { q with rate := rateBound (q.rate + 2 * (h.rai : Rat) / 1000), lowSince := some w }
        else s
    else s.modQp n fun q => { q with lowSince := none }

/-! ## What the peer answers (R423, R424) -/

/-- Complete the work requests that an ACK covers, in order, up to a READ that waits for its data. -/
def State.ackTo (n : Nat) (psn : BitVec 24) : Nat → State → State
  | 0, s => s
  | f + 1, s =>
    match (s.qp n).map Qp.sent with
    | some (w :: _) =>
      let last := w.psn + BitVec.ofNat 24 (w.psns - 1)
      if w.op == .read || (psn - last).toNat ≥ 2 ^ 23 then s
      else State.ackTo n psn f ((s.modQp n fun q => { q with retries := 0, rnrs := 0 }).endWqe n w .success)
    | _ => s

/-- The oldest work request fails with what the peer reports, and the queue pair enters ERROR. -/
def State.failOldest (s : State) (n : Nat) (st : CqStatus) : State :=
  match (s.qp n).map Qp.sent with
  | some (w :: _) => (s.endWqe n w st).qpError n
  | _ => s

/-- An answer of the peer of a queue pair. -/
def State.roceAnswer (s : State) (n : Nat) (a : RoceAnswer) : State :=
  match s.qp n with
  | none => s
  | some q =>
    match a with
    | .ack psn rttNs =>
      let fresh := (q.sent.find? fun w => (psn - w.psn).toNat < w.psns).map fun w => !w.resent
      let s := if fresh = some true then s.rtt n rttNs else s
      (State.ackTo n psn q.sent.length s).workQp n
    | .readData psn bs =>
      match q.sent, s.job q.job with
      | w :: _, some j =>
        if w.op ≠ .read || w.psn ≠ psn || bs.length ≠ w.len then s else
        match s.hubWrite j w.laddr bs with
        | (s, some f) => ((s.rdmaFault q.job f).endWqe n w .localFault).qpError n
        | (s, none) => (((s.modQp n fun q => { q with retries := 0, rnrs := 0 }).endWqe n w .success)).workQp n
      | _, _ => s
    | .nakSeq psn mask => (State.ackTo n (psn - 1) q.sent.length s).retryQp n psn (if q.p.sr then some mask else none)
    | .nakRnr psn =>
      let s := State.ackTo n (psn - 1) q.sent.length s
      if q.p.rnrRetry ≠ 7 && q.rnrs ≥ q.p.rnrRetry.toNat then s.failOldest n .rnrExceeded
      else s.modQp n fun q => { q with rnrs := q.rnrs + 1, rnrWait := true }
    | .nakAccess => s.failOldest n .remoteAccess
    | .nakInvalid => s.failOldest n .remoteInvalid
    | .nakOperational => s.failOldest n .remoteOperational

/-! ## Responder (R414, R416, R417, R422, R424) -/

/-- The region of an rkey, where it is current and of this job (R416, R417). -/
def State.memRegion (s : State) (job : BitVec 12) (rkey : BitVec 32) : Option MemRegion :=
  s.host.mrs.find? fun m =>
    m.job == job && m.index == rkey.toNat / 2 ^ 16 && rkey.toNat / 2 ^ 8 % 2 ^ 8 == 0 && m.gen.toNat == rkey.toNat % 2 ^ 8

/-- The range lies in the region, and the right is given. -/
def MemRegion.allows (m : MemRegion) (va len right : Nat) : Bool := m.base ≤ va && va + len ≤ m.base + m.len && m.rights.getLsbD right

/-- Answer a request with a NAK that moves the responder to ERROR (R417). -/
def State.roceNak (s : State) (q : Qp) (c : CtrId) (o : NetOut) : State := ((s.bump c).sendNet q o 1 0).qpError q.qpn

/-- A receive entry is posted (log 34): its index, buffer and length (R419). -/
def State.takeRecv (s : State) (q : Qp) (j : Job) : State × Option (Except Suspend (Nat × Nat × Nat)) :=
  if q.p.rqDepth = 0 then (s, none) else
  let (v, s) := s.free
  if !v.getLsbD 0 then (s, none) else
  let ix := q.rqNext % q.p.rqDepth
  match s.hubRead j (q.p.rqBase.toNat + 16 * ix) 16 with
  | (s, .error f) => (s, some (.error f))
  | (s, .ok bs) => (s, some (.ok (ix, leNat (bs.take 8) % 2 ^ 48, leNat ((bs.drop 8).take 4))))

/-- Acknowledge an applied request (R422). -/
def State.roceAck (s : State) (q : Qp) (r : RoceReq) : State :=
  s.sendNet q (.ack q.p.dstQpn (r.psn + BitVec.ofNat 24 (psnsOf q.p r.len - 1))) 1 0

/-- A fault of an inbound access: the NAK of R417 with a record of UNIT 6 (R231). -/
def State.roceFault (s : State) (q : Qp) (psn : BitVec 24) (f : Suspend) : State :=
  let s := s.rdmaFault q.job f
  if f.status = .poison then s.roceNak q .rdmaNakOperational (.nakOperational q.p.dstQpn psn)
  else s.roceNak q .rdmaNakAccess (.nakAccess q.p.dstQpn psn)

/-- Apply a request in order (R414, R417, R422): the state, and whether it has been taken. -/
def State.applyRoce (s : State) (q : Qp) (j : Job) (r : RoceReq) : State × Bool :=
  let n := q.qpn
  let access (s : State) : State := s.roceNak q .rdmaNakAccess (.nakAccess q.p.dstQpn r.psn)
  let rnr (s : State) : State := (s.bump .rdmaNakRnr).sendNet q (.nakRnr q.p.dstQpn r.psn) 1 0
  let va := r.va.toNat
  match r.op with
  | .atomic => (s.roceNak q .rdmaInboundAtomic (.nakInvalid q.p.dstQpn r.psn), false)
  | .read =>
    if !((s.memRegion q.job r.rkey).map fun m => m.allows va r.len 0).getD false then (access s, false) else
    match s.hubRead j va r.len with
    | (s, .error f) => (s.roceFault q r.psn f, false)
    | (s, .ok bs) => (s.sendNet q (.readResponse q.p.dstQpn r.psn bs) (psnsOf q.p r.len) r.len, true)
  | .write =>
    if !((s.memRegion q.job r.rkey).map fun m => m.allows va r.len 1).getD false then (access s, false) else
    match s.hubWrite j va r.payload with
    | (s, some f) => (s.roceFault q r.psn f, false)
    | (s, none) => (s.roceAck q r, true)
  | .writeImm =>
    if !((s.memRegion q.job r.rkey).map fun m => m.allows va r.len 1).getD false then (access s, false) else
    match s.takeRecv q j with
    | (s, none) => (rnr s, false)
    | (s, some (.error f)) => (s.roceFault q r.psn f, false)
    | (s, some (.ok (ix, _, _))) =>
      match s.hubWrite j va r.payload with
      | (s, some f) => (s.roceFault q r.psn f, false)
      | (s, none) =>
        let s := (s.modQp n fun q => { q with rqNext := q.rqNext + 1 }).complete n ix r.len r.imm.toNat 0x81 .success true
        (s.roceAck q r, true)
  | .send =>
    match s.takeRecv q j with
    | (s, none) => (rnr s, false)
    | (s, some (.error f)) => (s.roceFault q r.psn f, false)
    | (s, some (.ok (ix, buf, blen))) =>
      if r.len > blen then (s.roceNak q .rdmaNakInvalid (.nakInvalid q.p.dstQpn r.psn), false) else
      match s.hubWrite j buf r.payload with
      | (s, some f) => (s.roceFault q r.psn f, false)
      | (s, none) =>
        let s := (s.modQp n fun q => { q with rqNext := q.rqNext + 1 }).complete n ix r.len 0 0x80 .success false
        (s.roceAck q r, true)

/-- Take the requests kept beyond a gap that are now in order (R424). -/
def State.takeBeyond (n : Nat) : Nat → State → State
  | 0, s => s
  | f + 1, s =>
    match s.qp n with
    | none => s
    | some q =>
      match q.beyond.find? fun r => r.psn == q.recvPsn, s.job q.job with
      | some r, some j =>
        let (s, ok) := s.applyRoce q j r
        if !ok then s else
        State.takeBeyond n f (s.modQp n fun q => { q with
          beyond := q.beyond.filter fun x => x.psn != r.psn, recvPsn := q.recvPsn + BitVec.ofNat 24 (psnsOf q.p r.len), gapNak := false })
      | _, _ => s

/-- Packets received beyond a gap, from the first missing one (R424): bit i stands for packet missing + i. -/
def Qp.mask (q : Qp) : BitVec 256 :=
  q.beyond.foldl (fun (a : BitVec 256) r =>
    (List.range (psnsOf q.p r.len)).foldl (fun (a : BitVec 256) i =>
      let k := (r.psn + BitVec.ofNat 24 i - q.recvPsn).toNat
      if k < 256 then a ||| BitVec.ofNat 256 (2 ^ k) else a) a) 0

/-- Bytes in the reorder buffer of a port (R424). -/
def State.reorderBytes (s : State) (h : HostIx) : Nat :=
  ((s.host.qps.filter fun q => portOfIf q.p.iface == h).map fun q => (q.beyond.map RoceReq.len).sum).sum

/-- A sequence-error NAK for the first missing PSN, once for a gap (R424). -/
def State.nakGap (s : State) (n : Nat) : State :=
  match s.qp n with
  | none => s
  | some q =>
    if q.gapNak then s
    else (s.sendNet q (.nakSequence q.p.dstQpn q.recvPsn (if q.p.sr then q.mask else 0)) 1 0).modQp n fun q => { q with gapNak := true }

/-- A request beyond a gap is kept where it may be (R424). -/
def State.keepBeyond (s : State) (q : Qp) (r : RoceReq) : State :=
  let n := q.qpn
  let last := (r.psn + BitVec.ofNat 24 (psnsOf q.p r.len) - 1 - q.recvPsn).toNat
  if !q.p.sr then s.nakGap n
  else if s.reorderBytes (portOfIf q.p.iface) + r.len > 4194304 then (s.bump .rdmaReorderFull 0 0 (psnsOf q.p r.len)).nakGap n
  else if last ≥ 256 then s.nakGap n
  else if q.beyond.any fun x => x.psn == r.psn then s.nakGap n
  else (s.modQp n fun q => { q with beyond := q.beyond ++ [r] }).nakGap n

/-- A CE-marked packet is answered with a CNP, at most one in 50 µs (R425). -/
def State.cnpOut (s : State) (q : Qp) : State :=
  if (q.lastCnpTx.map fun t => decide (t + 50000 ≤ s.time.work)).getD true then
    ((s.bump .rdmaCnpTx).sendNet q (.cnp q.p.dstQpn) 1 0).modQp q.qpn fun q => { q with lastCnpTx := some s.time.work }
  else s

/-- An inbound request of a queue pair that is ready to receive (R417, R424). -/
def State.roceIn (s : State) (q : Qp) (r : RoceReq) : State :=
  let s := if r.ce then s.cnpOut q else s
  match s.job q.job with
  | none => s
  | some j =>
    let d := (r.psn - q.recvPsn).toNat
    if d = 0 then
      let (s, ok) := s.applyRoce q j r
      if !ok then s else
      State.takeBeyond q.qpn (q.beyond.length) (s.modQp q.qpn fun q => { q with
        recvPsn := q.recvPsn + BitVec.ofNat 24 (psnsOf q.p r.len), gapNak := false })
    else if d < 2 ^ 23 then s.keepBeyond q r
    else match r.op with
      | .read => (s.applyRoce q j r).1
      | .atomic => s
      | _ => s.roceAck q r

/-! ## Commands' shared parts (R413, R415, R418) -/

/-- Transitions of the InfiniBand Architecture Specification (R415). -/
def qpMoves (a b : QpState) : Bool :=
  match a, b with
  | _, .reset => true
  | _, .error => true
  | .reset, .init => true
  | .init, .init => true
  | .init, .rtr => true
  | .rtr, .rts => true
  | .rts, .rts => true
  | _, _ => false

/-- Checks of the parameters of a queue pair in order (R411, R413, R415). -/
def State.qpCheck (s : State) (j : Job) (p : QpParams) : Option Status :=
  let pow2 (n : Nat) : Bool := (List.range 17).any fun k => n == 2 ^ k
  if p.addrIx ≥ 8 || !s.ifaceExists p.iface || ((s.host.ifaces[p.iface].addrs.toArray[p.addrIx]?).getD none).isNone ||
    !(p.mtu == 1024 || p.mtu == 2048 || p.mtu == 4096) then some .reservedValue
  else if p.sqDepth < 16 || !pow2 p.sqDepth || (p.rqDepth ≠ 0 && !pow2 p.rqDepth) || p.reads < 1 || p.reads > 64 then some .lengthRange
  else if p.sqBase.toNat % 64 ≠ 0 || p.rqBase.toNat % 64 ≠ 0 || p.cqBase.toNat % 64 ≠ 0 || p.doorbell.toNat % 8 ≠ 0 then some .alignment
  else if p.cten && !jobHas j.p p.ctile then some .groupRange
  else none

/-- A refusal of a queue pair's parameters that passes a limit of R413, rather than one of R411 or R415. -/
def State.qpLimit (s : State) (p : QpParams) (e : Status) : Bool :=
  e == .lengthRange || (e == .reservedValue && p.addrIx < 8 && s.ifaceExists p.iface &&
    ((s.host.ifaces[p.iface].addrs.toArray[p.addrIx]?).getD none).isSome)

/-- Destroy a queue pair: its work requests complete FLUSHED (R418). -/
def State.dropQp (s : State) (n : Nat) : State :=
  (s.flushQp n).modHost fun h => { h with qps := h.qps.filter fun q => q.qpn != n }

/-- Destroy the queue pairs and memory regions of a job (R415). -/
def State.dropRdma (s : State) (j : BitVec 12) : State :=
  let s := (s.host.qps.filter fun q => q.job == j).foldl (fun s q => s.dropQp q.qpn) s
  s.modHost fun h => { h with mrs := h.mrs.filter fun m => m.job != j }

/-- An address of an interface changes or is withdrawn: the queue pairs bound to it enter ERROR (R411). -/
def State.setAddr (s : State) (i : IfIx) (ix : Fin 8) (a : Option (BitVec 128)) : State :=
  if s.host.ifaces[i].addrs[ix] = a then s else
  let had := s.host.ifaces[i].addrs[ix].isSome
  let s := s.modIface i fun x => { x with addrs := x.addrs.set ix a }
  if had then s.qpErrors fun q => q.p.iface == i && q.p.addrIx == ix.val else s

/-- The receive buffers are worked off after a freeze: XON for every priority that was off (R426, R430). -/
def State.drainHost (s : State) : State :=
  (List.finRange 4).foldl (fun s h =>
    let off := s.host.ports[h].xoff.toList.any id
    let s := s.modHostPort h fun p => { p with held := Vector.replicate 8 0, xoff := Vector.replicate 8 false }
    if off then s.emit (.net ⟨4 * h.val, by omega⟩ (.pfc 0)) else s) s

end Sys2Proof.Machine
end

