-- ==== Sys2Proof/Machine/Sequencer.lean ====
section
/-! DEFINITION. Control and scalar moves, waits, PERIOD_MARK, TRACE and BREAK (R152, R153, R165 to R173). -/

namespace Sys2Proof.Machine

/-- Loops that a jump to a target leaves: those whose body holds it (R169). -/
def keepLoops (target : Nat) (ls : List LoopEntry) : List LoopEntry :=
  ls.filter fun l => l.start < target && target ≤ l.end_

/-- A jump or call target: the field or s[RS], below the program length (R152). -/
def jumpTarget (w : MoveWord) (x : Tile) : Except Status Nat :=
  let v := if bit w 48 then (x.reg (fld w 47 43)).toNat else fld w 42 32
  if v < x.len then .ok v else .error .targetRange

/-- JUMP (R152, R167, R169). -/
def execJump (t : TileIx) (w : MoveWord) (s : State) : Out :=
  .next (s.decode t w 0x01 fun s _ x =>
    if !onlyUses w [(48, 48), (47, 43), (42, 32)] then .refuse .reservedValue else
    match jumpTarget w x with
    | .error e => .refuse e
    | .ok p => .ok (s.setTile t { x with loops := keepLoops p x.loops }) (some p))

/-- BRANCH (R152, R167, R169): the offset counts from the BRANCH. -/
def execBranch (t : TileIx) (w : MoveWord) (s : State) : Out :=
  .next (s.decode t w 0x02 fun s _ x =>
    if !onlyUses w [(42, 32)] then .refuse .reservedValue else
    let p : Int := x.pc + signed 11 (fld w 42 32)
    if p < 0 || p ≥ x.len then .refuse .targetRange
    else .ok (s.setTile t { x with loops := keepLoops p.toNat x.loops }) (some p.toNat))

/-- LOOP (R152, R168). -/
def execLoop (t : TileIx) (w : MoveWord) (s : State) : Out :=
  .next (s.decode t w 0x03 fun s _ x =>
    if !onlyUses w [(95, 64), (48, 48), (47, 43), (42, 32)] then .refuse .reservedValue else
    let e := fld w 42 32
    let c := if bit w 48 then (x.reg (fld w 47 43)).toNat else fld w 95 64
    if e ≥ x.len || e ≤ x.pc then .refuse .targetRange
    else if x.loops.length ≥ 4 then .refuse .loopDepth
    else if c ≥ 2 ^ 32 then .refuse .lengthRange
    else if c = 0 then .ok s (some (e + 1)) false
    else .ok (s.setTile t { x with loops := ⟨x.pc, e, c, x.rets.length⟩ :: x.loops }) (some (x.pc + 1)))

/-- CALL (R152, R167). -/
def execCall (t : TileIx) (w : MoveWord) (s : State) : Out :=
  .next (s.decode t w 0x04 fun s _ x =>
    if !onlyUses w [(48, 48), (47, 43), (42, 32)] then .refuse .reservedValue else
    match jumpTarget w x with
    | .error e => .refuse e
    | .ok p =>
      if x.rets.length ≥ 8 then .refuse .callDepth
      else .ok (s.setTile t { x with rets := (x.pc + 1) :: x.rets }) (some p))

/-- RETURN (R167, R169): loops pushed at its own call depth or deeper are popped. -/
def execReturn (t : TileIx) (w : MoveWord) (s : State) : Out :=
  .next (s.decode t w 0x05 fun s _ x =>
    if !onlyUses w [] then .refuse .reservedValue else
    match x.rets with
    | [] => .refuse .callDepth
    | p :: rs => .ok (s.setTile t { x with rets := rs, loops := x.loops.filter fun l => l.depth < x.rets.length }) (some p))

/-- The period number that a job has started (R171). -/
def Job.periodNo (j : Job) : Int := (j.period.map Period.n).getD 0

/-- A tile is work complete in period n (R252); a WAIT_EPOCH that a later start has satisfied is over (log 35). -/
def Tile.workComplete (x : Tile) (n : Int) : Bool :=
  x.marked || x.seq == .halted || x.seq == .parked ||
  (match x.seq, x.wait with | .waiting, .epoch false _ n0 => n ≤ n0 | _, _ => false)

/-- The state of a job's tile, saved or on the tile (R235). A tile that the job does not hold yet has done nothing; one that
it has left in DONE or ENDED is HALTED or was STOPPED (R244, log 35). -/
def State.tileOfJob (s : State) (j : Job) (t : Nat) : Tile :=
  (s.partOf j t).getD { seq := if j.state == .done || j.state == .ended then .halted else .running }

/-- A job's period is work complete (R252). -/
def State.workComplete (s : State) (j : Job) : Bool := (jobTiles j.p).all fun t => (s.tileOfJob j t).workComplete j.periodNo

/-- Change a job's period. -/
def State.modPeriod (s : State) (j : BitVec 12) (f : Period → Period) : State :=
  s.modJob j fun b => { b with period := b.period.map f }

/-- Record the moment at which the period in force becomes work complete (R259). -/
def State.markWork (s : State) (j : BitVec 12) : State :=
  match s.job j with
  | none => s
  | some b =>
    let runs := (b.period.map fun p => p.started && decide (p.n ≥ p.n0)).getD false
    if runs && s.workComplete b then s.modPeriod j fun p => { p with workT := some (p.workT.getD s.now) } else s

/-- A tile may have become work complete: its step count is kept, and the period's moment (R252, R259). -/
def State.noteWork (s : State) (t : Nat) : State :=
  let x := s.tile t
  match s.job x.job with
  | none => s
  | some b =>
    if b.p.periodic && x.workComplete b.periodNo then
      (s.setTile t { x with stepsAtDone := some (x.stepsAtDone.getD (s.stepCount t)) }).markWork b.id
    else s

/-- HALT (R170): it is decoded only once every earlier move has completed; then it halts or parks and notifies. -/
def execHalt (t : TileIx) (w : MoveWord) (s : State) : Out :=
  .next
    (let s := s.decode t w 0x06 fun s j x =>
      if !onlyUses w [(145, 145), (144, 139), (138, 138), (137, 132), (131, 120)] then .refuse .reservedValue
      else if bit w 138 && !jobHas j.p (fld w 131 120) then .refuse .groupRange
      else
        let s := s.setTile t { x with seq := if bit w 145 then .parked else .halted, wtal := fld w 144 139 }
        .ok (if bit w 138 then s.arrive j.id (fld w 131 120) (fld w 137 132) 1 else s)
    (s.noteWork t).checkDone (s.tile t).job)

/-- PARK_WAKE (R170): the wake tally of a parked tile that is no rook is at or above 1. -/
def execParkWake (t : TileIx) (s : State) : Out :=
  let x := s.tile t
  let rook := match x.castle with | .rook _ => true | _ => false
  let v := ((x.tallies.toArray[x.wtal]?).getD 0).toNat
  when_ s (s.tileRuns t && (s.holder t).isSome && x.seq == .parked && !rook && v ≥ 1) fun s =>
    ((s.setTile t { x with tallies := x.tallies.setIfInBounds x.wtal (BitVec.ofNat 32 (v - 1)) }).bump
      .tileTallyConsumed (t / 512)).wake t

/-- WAIT_TALLY (R147, R152): a TARGET of 0 is a no-op. -/
def execWaitTally (t : TileIx) (w : MoveWord) (s : State) : Out :=
  .next (s.decode t w 0x07 fun s _ x =>
    if !onlyUses w [(119, 96), (95, 64), (58, 56), (55, 55), (54, 49), (48, 48), (47, 43)] then .refuse .reservedValue else
    let c := if bit w 48 then (x.reg (fld w 47 43)).toNat else fld w 95 64
    if c ≥ 2 ^ 32 then .refuse .lengthRange
    else if c = 0 then .ok s none false
    else
      let dl := if fld w 119 96 = 0 then none else some (s.time.work + fld w 119 96 * 64)
      .ok (s.setTile t { x with seq := .waiting, wait := .tally (fld w 54 49) c (bit w 55) (fld w 58 56) dl, waitTal := dtalOf w }) none false)

/-- A wait's condition holds (R147, R171, R286). A dependency ends by its own rule. -/
def State.waitMet (s : State) (j : Job) (x : Tile) : Bool :=
  match x.wait with
  | .tally tal target _ _ _ => ((x.tallies.toArray[tal]?).getD 0).toNat ≥ target
  | .epoch false _ n0 => j.periodNo > n0
  | .epoch true v _ => (s.epoch j).toNat == v
  | .fence => x.late.isEmpty && !(x.queue.any fun m => 0x41 ≤ Hdr.op m.w && Hdr.op m.w ≤ 0x44)
  | _ => false

/-- WAIT_SATISFIED (R147, R171): the wait of a tile is met; CONSUME subtracts in the same action. A WAIT_TALLY completes
here, so its DTEN tally counts (R137). -/
def execWaitSatisfied (t : TileIx) (s : State) : Out :=
  let x := s.tile t
  match s.holder t with
  | none => .next s
  | some j =>
    when_ s (s.tileRuns t && x.seq == .waiting && s.waitMet j x) fun s =>
      match x.wait with
      | .tally tal target consume pdst _ =>
        let v := ((x.tallies.toArray[tal]?).getD 0).toNat
        let x := if consume then { x with tallies := x.tallies.setIfInBounds tal (BitVec.ofNat 32 (v - target)) } else x
        let s := s.setTile t (x.setPred pdst true)
        let s := if consume then s.bump .tileTallyConsumed (t / 512) 0 target else s
        s.wake t
      | _ => s.wake t

/-- WAIT_TIMEOUT (R147): an unsatisfied WAIT_TALLY ends with PDST = 0. -/
def execWaitTimeout (t : TileIx) (s : State) : Out :=
  let x := s.tile t
  match x.wait, s.holder t with
  | .tally _ _ _ pdst (some dl), some j =>
    when_ s (s.tileRuns t && x.seq == .waiting && s.time.work ≥ dl && !s.waitMet j x) fun s =>
      ((s.setTile t (x.setPred pdst false)).bump .tileSeqWaitTimeouts (t / 512)).wake t
  | _, _ => .next s

/-- WAIT_EPOCH (R171). -/
def execWaitEpoch (t : TileIx) (w : MoveWord) (s : State) : Out :=
  .next ((s.decode t w 0x08 fun s j x =>
    if !onlyUses w [(71, 64), (59, 59)] then .refuse .reservedValue
    else if !j.p.periodic then .refuse .notPeriodJob
    else .ok (s.setTile t { x with seq := .waiting, wait := .epoch (bit w 59) (fld w 71 64) j.periodNo, waitTal := dtalOf w }) none false).noteWork t)

/-- YIELD (R173): with a pre-emption request pending, decode stops here until the job resumes, and its tally counts then. -/
def execYield (t : TileIx) (w : MoveWord) (s : State) : Out :=
  if Hdr.op w ≠ 0x09 then .next s else
  let asked := ((s.holder t).bind Job.preempt).isSome
  .next (s.decodeMove t w asked fun s _ x =>
    if !onlyUses w [] then .refuse .reservedValue
    else if asked then .ok (s.setTile t { x with wait := .yield_, waitTal := dtalOf w }) none false
    else .ok s)

/-- The second operand of SALU and SCMP (R153). -/
def operand2 (w : MoveWord) (x : Tile) : BitVec 64 :=
  if bit w 47 then (BitVec.ofNat 32 (fld w 127 96)).signExtend 64 else x.reg (fld w 46 42)

/-- SALU functions (R153): arithmetic modulo 2^64, shifts by the low 6 bits. -/
def saluFn (fn : Nat) (a b : BitVec 64) : Option (BitVec 64) :=
  let k := b.toNat % 64
  match fn with
  | 0x00 => some (a + b)
  | 0x01 => some (a - b)
  | 0x02 => some (a * b)
  | 0x03 => some (a &&& b)
  | 0x04 => some (a ||| b)
  | 0x05 => some (a ^^^ b)
  | 0x06 => some (a <<< k)
  | 0x07 => some (a >>> k)
  | 0x08 => some (a.sshiftRight k)
  | 0x09 => some (if a.slt b then a else b)
  | 0x0A => some (if a.slt b then b else a)
  | 0x0B => some (if a.ult b then a else b)
  | 0x0C => some (if a.ult b then b else a)
  | _ => none

/-- Reserved bits of the scalar moves (R153). -/
def scalarResv : List (Nat × Nat) := [(255, 185), (95, 74)]

/-- SALU (R153). TSET and TADD are rows of their own. -/
def execSalu (t : TileIx) (w : MoveWord) (s : State) : Out :=
  if fld w 55 48 = 0x0D || fld w 55 48 = 0x0E then .next s else
  .next (s.decode t w 0x10 fun s _ x =>
    if !clear w scalarResv then .refuse .reservedValue else
    match saluFn (fld w 55 48) (x.reg (fld w 41 37)) (operand2 w x) with
    | none => .refuse .reservedValue
    | some v => .ok (s.setTile t (x.setReg (fld w 36 32) v)))

/-- TSET (R148): the tally is written outright. -/
def execTset (t : TileIx) (w : MoveWord) (s : State) : Out :=
  if fld w 55 48 ≠ 0x0D then .next s else
  .next (s.decode t w 0x10 fun s _ x =>
    if !clear w scalarResv then .refuse .reservedValue
    else .ok ((s.setTally t (fld w 70 65) ((operand2 w x).toNat % 2 ^ 32)).bump .tileTallySets (t / 512)))

/-- TADD (R145). -/
def execTadd (t : TileIx) (w : MoveWord) (s : State) : Out :=
  if fld w 55 48 ≠ 0x0E then .next s else
  .next (s.decode t w 0x10 fun s _ x =>
    if !clear w scalarResv then .refuse .reservedValue
    else .ok (s.addTally t (fld w 70 65) ((operand2 w x).toNat % 2 ^ 32)))

/-- SCMP functions (R153). -/
def scmpFn (fn : Nat) (a b : BitVec 64) (pa pb : Bool) : Option Bool :=
  match fn with
  | 0x00 => some (a == b)
  | 0x01 => some (a != b)
  | 0x02 => some (a.slt b)
  | 0x03 => some (a.sle b)
  | 0x04 => some (a.ult b)
  | 0x05 => some (a.ule b)
  | 0x06 => some (pa && pb)
  | 0x07 => some (pa || pb)
  | 0x08 => some (pa != pb)
  | 0x09 => some !pa
  | _ => none

/-- SCMP (R153). -/
def execScmp (t : TileIx) (w : MoveWord) (s : State) : Out :=
  .next (s.decode t w 0x11 fun s _ x =>
    if !clear w scalarResv then .refuse .reservedValue else
    match scmpFn (fld w 55 48) (x.reg (fld w 41 37)) (operand2 w x) (x.pred (fld w 61 59)) (x.pred (fld w 64 62)) with
    | none => .refuse .reservedValue
    | some b => .ok (s.setTile t (x.setPred (fld w 58 56) b)))

/-- SLDI (R153). -/
def execSldi (t : TileIx) (w : MoveWord) (s : State) : Out :=
  .next (s.decode t w 0x12 fun s _ x =>
    if !clear w scalarResv then .refuse .reservedValue
    else .ok (s.setTile t (x.setReg (fld w 36 32) (BitVec.ofNat 64 (fld w 159 96)))))

/-- The address of SLD and SST: aligned to its width, then within tile SRAM (R151, R153). -/
def scalarAddr (w : MoveWord) (x : Tile) : Except Status (Nat × Nat) :=
  let n := 2 ^ fld w 72 71
  let a := (sramRef w 160).addr x.regs
  if a % n ≠ 0 then .error .alignment
  else if a + n > sramSize then .error .lengthRange
  else .ok (a, n)

/-- SLD (R153): a poisoned word refuses the load as R157 refuses a poisoned descriptor (log 12). -/
def execSld (t : TileIx) (w : MoveWord) (s : State) : Out :=
  .next (s.decode t w 0x13 fun s _ x =>
    if !clear w scalarResv then .refuse .reservedValue else
    match scalarAddr w x with
    | .error e => .refuse e
    | .ok (a, n) =>
      match s.sramPoison t a n with
      | some phys => .refuse .poison phys
      | none =>
        let v := leNat (s.sram t a n)
        let r : BitVec 64 := if bit w 73 then BitVec.ofInt 64 (signed (8 * n) v) else BitVec.ofNat 64 v
        .ok (s.setTile t (x.setReg (fld w 36 32) r)))

/-- SST (R153). -/
def execSst (t : TileIx) (w : MoveWord) (s : State) : Out :=
  .next (s.decode t w 0x14 fun s _ x =>
    if !clear w scalarResv then .refuse .reservedValue else
    match scalarAddr w x with
    | .error e => .refuse e
    | .ok (a, n) => .ok (s.writeSram (sramBase t + a) (leBytes n (x.reg (fld w 41 37)).toNat) false))

/-- SREAD sources (R153). -/
def sreadFn (s : State) (t : Nat) (j : Job) (x : Tile) (w : MoveWord) : Option (BitVec 64) :=
  match fld w 55 48 with
  | 0x00 => some (BitVec.ofNat 64 (s.stepCount t))
  | 0x01 => some s.now
  | 0x02 => some (((x.tallies.toArray[fld w 70 65]?).getD 0).setWidth 64)
  | 0x03 => some (x.passIx.setWidth 64)
  | 0x04 => some (x.convIx.setWidth 64)
  | 0x05 => some (BitVec.ofNat 64 t)
  | 0x06 => some (j.id.setWidth 64)
  | 0x07 => some ((s.epoch j).setWidth 64)
  | 0x08 => some (BitVec.ofNat 64 ((x.loops[fld w 70 65]?.map LoopEntry.rem).getD 0))
  | 0x09 => some (BitVec.ofNat 64 x.pc)
  | _ => none

/-- SREAD (R153). -/
def execSread (t : TileIx) (w : MoveWord) (s : State) : Out :=
  .next (s.decode t w 0x15 fun s j x =>
    if !clear w scalarResv then .refuse .reservedValue else
    match sreadFn s t j x w with
    | none => .refuse .reservedValue
    | some v => .ok (s.setTile t (x.setReg (fld w 36 32) v)))

/-- A move whose opcode is reserved is refused, whatever its predicate (R142, R150). -/
def execMoveReservedOpcode (t : TileIx) (w : MoveWord) (s : State) : Out :=
  .next (if (unitOf (Hdr.op w)).isSome then s else s.decodeMove t w false fun _ _ _ => .refuse .reservedValue)

/-- PERIOD_MARK (R165): a milestone, outputs complete with the valid-epoch word, or work complete. -/
def execPeriodMark (t : TileIx) (w : MoveWord) (s : State) : Out :=
  .next (s.decode t w 0x60 fun s j x =>
    let kind := fld w 33 32
    let a := (jobRef w 42).addr x.regs
    if !clear w [(255, 95)] || kind = 3 then .refuse .reservedValue
    else if !j.p.periodic then .refuse .notPeriodJob
    else if kind = 1 && a % 8 ≠ 0 then .refuse .alignment
    else if kind = 1 && a ≥ 2 ^ 48 then .refuse .lengthRange
    else if kind = 0 then .ok (s.modPeriod j.id fun p => { p with
      milestoneT := s.now, milestone := fld w 41 34, milestoneSteps := s.stepCount t })
    else if kind = 1 then
      match s.writeJob (unitOfTile t) j a (leBytes 8 (s.epoch j).toNat) false true with
      | (s, some f) => .fault s f
      | (s, none) => .ok (s.modPeriod j.id fun p => { p with
        outputsT := some (p.outputsT.getD s.now), outputsSteps := if p.outputsT.isSome then p.outputsSteps else s.stepCount t })
    else .ok ((s.setTile t { x with marked := true }).noteWork t))

/-- TRACE (R166): one record in the job's trace ring, then COUNT. A record stays where the write of COUNT faults. -/
def execTrace (t : TileIx) (w : MoveWord) (s : State) : Out :=
  .next (s.decode t w 0x70 fun s j x =>
    if !clear w [(255, 53)] then .refuse .reservedValue
    else if j.p.traceLen = 0 then .ok (s.bump .tileSeqTraceDropped (t.val / 512))
    else
      let cap := (j.p.traceLen - 64) / 32
      let rec_ := leBytes 2 (fld w 47 32) ++ leBytes 2 t.val ++ leBytes 2 x.pc ++ [0, 0] ++
        leBytes 8 (x.reg (fld w 52 48)).toNat ++ leBytes 8 s.now.toNat ++ leBytes 8 (s.stepCount t)
      match s.writeJob (unitOfTile t) j (j.p.traceBase.toNat + 64 + 32 * (j.traceCount % cap)) rec_ false true with
      | (s, some f) => .fault s f
      | (s, none) =>
        match s.writeJob (unitOfTile t) j j.p.traceBase.toNat (leBytes 8 (j.traceCount + 1)) false true with
        | (s, some f) => .fault s f
        | (s, none) => .ok (s.modJob j.id fun b => { b with traceCount := b.traceCount + 1 }))

/-- BREAK (R166, R503). -/
def execBreak (t : TileIx) (w : MoveWord) (s : State) : Out :=
  .next (s.decode t w 0x71 fun s j _ =>
    if !clear w [(255, 48)] then .refuse .reservedValue
    else if j.breaks then .ok (s.freeze .break_ (BitVec.ofNat 32 (fld w 47 32 + t.val * 2 ^ 16)))
    else .ok (s.bump .tileSeqBreakIgnored (t.val / 512)))

end Sys2Proof.Machine
end

