-- ==== Sys2Proof/Machine/JobOps.lean ====
section
/-! DEFINITION. Preparing, saving and restoring the tiles of a job, resuming its moves, and the actions of the period
scheduler (R227, R233 to R238, R243 to R260, R521). -/

namespace Sys2Proof.Machine

/-! ## Preparation (R243) -/

/-- Part the pair that a tile still belongs to (R65, R243). -/
def State.partAny (s : State) (t : Nat) : State :=
  match (s.tile t).castle with
  | .none => s
  | .king _ _ => s.part t
  | .rook k => s.part k

/-- Set every tally of a tile to 0 (R243, R253, R527). -/
def State.zeroTallies (s : State) (t : Nat) : State := (List.range 64).foldl (fun s k => s.setTally t k 0) s

/-- Apply the tally arrivals held with a job for a tile (R236, R246). -/
def State.applyHeld (s : State) (j : BitVec 12) (t : Nat) : State :=
  let mine := ((s.job j).map fun b => b.held.filter fun h => h.1 == t).getD []
  let s := s.modJob j fun b => { b with held := b.held.filter fun h => h.1 != t }
  mine.foldl (fun s h => s.addTally t h.2.1 h.2.2) s

/-- Write zeros over a tile's SRAM (R243): every word is written whole (R550). -/
def State.zeroSram (s : State) (t : Nat) : State :=
  { s with
    mem := Memory.zero s.mem (sramBase t) sramSize
    poisonWords := s.poisonWords.filter fun w => w < sramBase t / 8 || sramBase t / 8 + sramSize / 8 ≤ w }

/-- An access that the period scheduler makes for a job faults (R224): a record of a hub unit (log 35), and under policy
END the end of the job (R227). -/
def State.schedFault (s : State) (j : Job) (f : Suspend) : State :=
  let s := s.fault (f.record { status := f.status, unit := 9, job := j.id })
  if f.status.isFault && j.p.policy == 2 then s.endJob j.id .jobFaulted else s

/-- Prepare one tile for a job (R131, R243). A program image that cannot be read stops the tile with a record (log 35). -/
def State.prepareTile (s : State) (j : Job) (t : Nat) : State :=
  let s := (s.partAny t).zeroSram t
  let (s, img) := s.readJob (unitOfTile t) j j.p.image.toNat (32 * j.p.imageMoves)
  let s := match img with
    | .ok bs => s.writeSram (sramBase t + j.p.pbase) bs false
    | .error _ => s
  let s := s.zeroTallies t
  let x := s.tile t
  let s := s.setTile t { ({} : Tile) with
    seq := .running, pbase := j.p.pbase, len := j.p.imageMoves, pc := j.p.entry, periodEntry := j.p.periodEntry
    job := j.id, prepared := true, stepBase := x.stepBase, heldSteps := x.heldSteps, nextId := x.nextId }
  let s := s.applyHeld j.id t
  let s := s.modJob j.id fun b => { b with preparing := b.preparing.filter fun u => u != t }
  match img with
  | .ok _ => s.fetchCheck t
  | .error f => s.stopTile t f

/-! ## Save (R235, R236) -/

/-- Write whole lines at a physical address; a line that a test selects is poisoned (R203, R207). -/
def State.writeLines (s : State) (a : Nat) (bs : List Byte) (bad : Nat → Bool) : State :=
  (List.range (bs.length / 64)).foldl (fun s k => s.writePhys (a + 64 * k) ((bs.drop (64 * k)).take 64) (bad k)) s

/-- Metadata bytes of the accumulator: 2 for each row address (R235). -/
def Tile.metaBytes (x : Tile) : List Byte :=
  (List.range 2048).flatMap fun a => [(x.accRow a).meta0, (x.accRow a).meta1]

/-- Accumulator words: 128 bytes for each row address (R235). -/
def Tile.accBytes (x : Tile) : List Byte :=
  (List.range 2048).flatMap fun a => (x.accRow a).words.flatMap fun w => leBytes 4 w.toNat

/-- Poisoned words of a tile's SRAM, by number. -/
def State.badWords (s : State) (t : Nat) : List Nat :=
  (s.poisonWords.filter fun w => sramBase t / 8 ≤ w && w < sramBase t / 8 + sramSize / 8).map fun w => w - sramBase t / 8

/-- A tile once its job has been saved or has left it: held by no job. -/
def Tile.vacant (x : Tile) : Tile :=
  { ({} : Tile) with castle := x.castle, stepBase := x.stepBase, heldSteps := x.heldSteps, nextId := x.nextId }

/-- Where a move of the copy engine stands: its next addresses and its progress (R228). -/
def QMove.stand (m : QMove) : Nat × Nat × Nat :=
  match Hdr.op m.w with
  | 0x40 => (copySpec m.w m.regs).stand m.done
  | 0x50 => let c := projectSpec m.w m.regs; (c.src + c.bytes * m.done, c.dst + 128 * m.done, m.done)
  | 0x58 => (0, 0, 0)
  | _ => (fabSpec m.w m.regs).stand m.done

/-- The record of a move of the copy engine in a tile block (R225, R235): that of its fault, or one with STATUS 0. -/
def State.moveRecord (s : State) (j : BitVec 12) (t : Nat) (m : QMove) : FaultRec :=
  let (src, dst, done) := m.stand
  ((s.moveFaults.filter fun r => m.suspended && r.job == j && r.mv == some (t, m.id)).getLast?).getD
    { status := .success, unit := if Hdr.op m.w = 0x50 then 8 else if Hdr.op m.w = 0x58 then 7 else 4, job := j
      tile := BitVec.ofNat 16 t, pc := m.pc, done := done, nextSrc := src, nextDst := dst, sent := m.sentMask }

/-- The copy-engine part of a tile block (R235): up to 32 moves in flight or suspended. -/
def State.copyBytes (s : State) (j : BitVec 12) (t : Nat) (x : Tile) : List Byte :=
  let ms := (x.queue.filter fun m => m.unit == .copy && (m.state == .started || m.suspended)).take 32
  ms.flatMap (fun m => (s.moveRecord j t m).bytes) ++ List.replicate (128 * (32 - ms.length)) 0

/-- Save one tile: its block, and what the model keeps of it (R228, R235, R236, R527). -/
def State.saveTile (s : State) (j : Job) (t : Nat) : State :=
  let x := s.tile t
  let x := { x with queue := x.queue.map QMove.rounded }
  let bad := s.badWords t
  let s := match s.saveBlock j t with
    | none => s
    | some a =>
      let s := s.writeLines a (s.sram t 0 sramSize) fun k => bad.any fun w => w / 8 == k
      let s := s.writeLines (a + 0x100000) x.accBytes fun _ => false
      let s := s.writeLines (a + 0x140000) x.metaBytes fun _ => false
      let (bs, s) := s.freeBytes 0x5000
      s.writeLines (a + 0x141000) (bs ++ s.copyBytes j.id t x) fun _ => false
  let sum := (x.tallies.toList.map BitVec.toNat).sum
  let s := (s.bump .tileTallySaved (t / 512) 0 sum).setTile t x.vacant
  s.modJob j.id fun b => { b with saved := b.saved ++ [⟨t, { x with acc := [] }, s.stepCount t, bad⟩] }

/-- Every unit of a job's tiles has stopped: no array pass is in flight, the MV unit has finished, and no batch is in the
mesh (R184, R236, R248). -/
def State.unitsStopped (s : State) (j : Job) : Bool :=
  j.preparing.isEmpty && ((jobTiles j.p).all fun t =>
    (s.tile t).runs.isEmpty && (s.tile t).mvUntil ≤ s.ring (t / 32) && !(s.tile t).queue.any fun m => m.unit == .array && m.state == .started) && !(s.ppe.mesh.any fun b => b.job == j.id)

/-- Flush the write-combining buffers of a die's stacks (R206, R236). -/
def State.flushDie (s : State) (d : Nat) : State :=
  (List.finRange 24).foldl (fun s m => if m.val / 4 = d then s.flushWhere m (fun _ => true) .memWcbFlushFence else s) s

/-- SAVE_COMPLETE: the blocks are written and the buffers flushed; the job is PREEMPTED, or IDLE where it lends
(R236, R244, R257). -/
def State.saveJob (s : State) (j : Job) : State :=
  let tiles := jobTiles j.p
  let lend := j.saving
  let s := tiles.foldl (fun s t => s.saveTile j t) s
  let s := (List.range 6).foldl (fun s d => if tiles.any fun t => t / 512 == d then s.flushDie d else s) s
  let s := (s.bump .ctxSaves 0 0 tiles.length).bump .ctxSaveNs 0 0 (s.time.work - j.preemptT)
  let s := if lend then match j.period with | some p => s.bump .periodLends p.slot | none => s else s
  (s.modJob j.id fun b => { b with
    state := if lend then .idle else .preempted, saving := false, preempt := none, startWanted := false }).scheduleJobs.dropPpe fun e =>
    e.job == j.id

/-! ## Resumption and restore (R227, R233, R234, R237) -/

/-- Resume a suspended move from its NEXT addresses (R227, R229). -/
def QMove.resume (m : QMove) : QMove :=
  match m.state with
  | .suspended _ => { m with state := .queued, resumed := true, next := m.done, failing := none }
  | _ => m

/-- Resume the suspended moves of a tile: its records go with them (R226, R227). -/
def State.resumeTile (s : State) (t : Nat) : State :=
  let ids := ((s.tile t).queue.filter QMove.suspended).map QMove.id
  let s := s.modTile t fun x => { x with queue := x.queue.map QMove.resume }
  { s with moveFaults := s.moveFaults.filter fun r =>
      !(r.job == (s.tile t).job && !r.flags.getLsbD 7 && ((r.mv.map fun k => k.1 == t && ids.contains k.2).getD false)) }

/-- Read whole lines of a save area: the bytes, and the lines that read poisoned (R207). -/
def State.readLines (s : State) (a n : Nat) : State × List Byte × List Nat :=
  let (s, bad) := (List.range (n / 64)).foldl (fun (acc : State × List Nat) k =>
    let (s, p) := acc.1.checkRead (a + 64 * k) 64
    (s, if p.isSome then acc.2 ++ [k] else acc.2)) (s, [])
  (s, s.readPhys a n, bad)

/-- An accumulator row of a save area; a poisoned line is a poisoned half-row (log 35). -/
def rowOfBytes (words mbytes : List Byte) (badWords badMeta : List Nat) (a : Nat) : AccRow :=
  let m (h : Nat) : Byte :=
    if badMeta.contains (2 * a / 64) then 0xC0
    else mbytes.getD (2 * a + h) 0x40 ||| (if badWords.contains (2 * a + h) then 0x80 else 0)
  { words := (List.range 32).map fun i => BitVec.ofNat 32 (leNat ((words.drop (128 * a + 4 * i)).take 4)), meta0 := m 0, meta1 := m 1 }

/-- Restore one tile from its block (R235 to R237, R243, R527). -/
def State.restoreTile (s : State) (j : Job) (v : SavedTile) : State :=
  let t := v.tile
  let s := ((s.partAny t).zeroSram t).zeroTallies t
  let base := s.baseFor t v.steps
  let st := { v.st with stepBase := base, heldSteps := v.steps, nextId := max v.st.nextId (s.tile t).nextId, mvUntil := 0 }
  let s := match s.saveBlock j t with
    | none => s.setTile t st
    | some a =>
      let (s, bs, bad) := s.readLines a sramSize
      let (s, ws, badW) := s.readLines (a + 0x100000) 0x40000
      let (s, ms, badM) := s.readLines (a + 0x140000) 0x1000
      let words := bad.flatMap fun k =>
        let w := v.bad.filter fun w => w / 8 == k
        if w.isEmpty then (List.range 8).map fun i => 8 * k + i else w
      let acc := (List.range 2048).foldl (fun (rows : List (Nat × AccRow)) a => insertRow a (rowOfBytes ws ms badW badM a) rows) []
      let s := s.writeSram (sramBase t) bs false
      { s with poisonWords := (words.map fun w => sramBase t / 8 + w) ++ s.poisonWords }.setTile t { st with acc := acc }
  let s := s.bump .tileTallyRestored (t / 512) 0 (v.st.tallies.toList.map BitVec.toNat).sum
  let s := (s.applyHeld j.id t).resumeTile t
  s.modTile t fun x => { x with
    job := j.id, prepared := true
    queue := x.queue.map fun m => if Hdr.op m.w == 0x50 && m.state == .started then { m with state := .queued } else m
    wait := if x.wait == .yield_ then .none else x.wait }

/-- RESTORE_COMPLETE: the blocks are back and the job is RUNNING (R237). -/
def State.restoreJob (s : State) (j : Job) : State :=
  let s := s.modJob j.id fun b => { b with state := .running, restoring := false, saved := [] }
  let s := j.saved.foldl (fun s v => s.restoreTile j v) s
  let s := (s.bump .ctxRestores 0 0 j.saved.length).bump .ctxRestoreNs 0 0 (s.time.work - j.preemptT)
  let s := j.saved.foldl (fun s v => if v.st.wait = .yield_ then s.wake v.tile else s.fetchCheck v.tile) s
  let s := (s.collResume j.id).scheduleJobs
  (j.saved.foldl (fun s v => s.kickAll v.tile) s).checkDone j.id

/-! ## The period scheduler (R250 to R259) -/

/-- The check of period n, and the reclaim time before the next, in 1/16 ns (R250, R257). -/
def checkT (p : JobParams) (n : Int) : Int := startT p n + 16 * (9 * p.deadline / 10 : Nat)
def reclaimAt (p : JobParams) (n : Int) : Int := startT p (n + 1) - 16000 * (p.leadUs : Int)

/-- The first period of a job whose start is given now: the first S(n) at least 100 µs away (R250). -/
def firstPeriod (p : JobParams) (now : Int) : Int :=
  let d : Int := 16 * p.period
  let due : Int := p.phase.toNat - (now + 1600000)
  0 - due / d

/-- A time as a time-stamp. -/
def stamp (t : Int) : BitVec 64 := BitVec.ofInt 64 t

/-- The schedule of a job is in force: it has been started and has not ended (R244). -/
def Job.scheduled (j : Job) : Bool := j.p.periodic && (j.period.map Period.started).getD false && j.state != .ended

/-- Bookkeeping of the tile at a period's start (R252, R259). -/
def State.startTileBooks (s : State) (j : BitVec 12) (t : Nat) : State :=
  let k := s.stepCount t
  s.modJobTile j t fun x => { x with marked := false, stepsAtStart := k, stepsAtDone := none }

/-- Period n starts (R250, R257). -/
def State.startPeriod (s : State) (j : Job) (p : Period) : State :=
  let n := p.n + 1
  let late := j.state != .running
  let s := s.modPeriod j.id fun q => { q with
    n := n, checkRun := false, checked := false, lateStart := late, outputsT := none, workT := none, milestoneT := 0
    milestoneSteps := 0, outputsSteps := 0, milestone := 0, movesDiscarded := 0, epochDrops := 0, finished := false }
  let s := if late then s.bump .periodLateStarts p.slot else s
  let s := (jobTiles j.p).foldl (fun s t => s.startTileBooks j.id t) s
  (jobTiles j.p).foldl (fun s t => if (s.tile t).job == j.id then s.noteWork t else s) s

/-- The check of the period in force (R252). -/
def State.checkPeriod (s : State) (j : Job) (p : Period) (post : Bool) : State :=
  let s := s.modPeriod j.id fun q => { q with checkRun := true }
  if !post || s.workComplete j then s else
  ((s.modPeriod j.id fun q => { q with checked := true }).bump .periodChecks p.slot).event .check
    ⟨8, j.id.setWidth 24⟩ (leBytes 2 j.id.toNat ++ leBytes 1 (p.n % 256).toNat) (some (stamp (checkT j.p p.n)))

/-- The tile is left as it is at flag fall (R172, R256). -/
def Tile.standsAtFall (x : Tile) : Bool :=
  x.seq == .halted || x.seq == .parked || x.seq == .stopped ||
  (match x.seq, x.wait with | .waiting, .epoch false _ _ => true | _, _ => false)

/-- The array moves in progress that run on under FINISH (R253): those that have started, but for ring passes (R254). -/
def QMove.runsOn (m : QMove) : Bool :=
  m.unit == .array && m.state == .started && !(Hdr.op m.w == 0x21 && bit m.w 51)

/-- A PROJECT is discarded at flag fall, on a tile that stands too (R183): the queue that is left. -/
def Tile.withoutProjects (x : Tile) : List QMove := x.queue.filter fun m => Hdr.op m.w != 0x50 || m.state == .done

/-- Discard the PROJECT moves of a tile that stands at flag fall (R183, R234): the state and the moves discarded. -/
def State.dropProjects (s : State) (j : BitVec 12) (t : Nat) : State × Nat :=
  let x := s.tile t
  let gone := x.queue.filter fun m => Hdr.op m.w == 0x50 && m.state != .done
  (((s.discardRecords j ((gone.filter QMove.suspended).map fun m => (t, m.id))).setTile t { x with queue := x.withoutProjects }), gone.length)

/-- Flag fall on one tile that the job holds: its moves are discarded, or its array move runs on (R172, R253, R254):
the state and the moves discarded. -/
def State.fallTile (s : State) (j : Job) (t : Nat) : State × Nat :=
  let x := s.tile t
  if x.standsAtFall then s.dropProjects j.id t else
  let on := if j.p.finish then x.queue.filter QMove.runsOn else []
  let gone := x.queue.filter fun m => m.state != .done && !on.any fun y => y.id == m.id
  let ended (r : Run) : Bool := !on.any fun y => y.id == r.id
  let s := (s.bump .tileArrayAbandoned (t / 512) 0 (x.runs.filter ended).length).dropRuns t ended
  let s := s.discardRecords j.id ((gone.filter QMove.suspended).map fun m => (t, m.id))
  let s := s.modTile t fun x => { x with
    queue := on, late := []
    waitTal := none, wait := .none, seq := .waiting, loops := [], rets := [] }
  if on.isEmpty then (s.restartTile t, gone.length)
  else ((s.modTile t fun x => { x with finishing := true }).modPeriod j.id fun q => { q with finished := true }, gone.length)

/-- Flag fall on one saved tile (R183, R256). -/
def SavedTile.fall (v : SavedTile) : SavedTile × Nat :=
  let x := { v.st with tallies := Vector.replicate 64 0 }
  if x.standsAtFall then ({ v with st := { x with queue := x.withoutProjects } }, x.queue.length - x.withoutProjects.length) else
  ({ v with st := { x with
      queue := [], late := [], runs := [], waitTal := none, wait := .none, seq := .running, pc := x.periodEntry, loops := []
      rets := [] } }, (x.queue.filter fun m => m.state != .done).length)

/-- The tiles of a job at flag fall (R172, R253, R256): the moves discarded. -/
def State.fallTiles (s : State) (j : Job) : State × Nat :=
  if j.saved.isEmpty then
    (jobTiles j.p).foldl (fun (acc : State × Nat) t =>
      if (acc.1.tile t).job == j.id && (acc.1.tile t).prepared then
        let (s, k) := acc.1.fallTile j t
        (s.zeroTallies t, acc.2 + k)
      else acc) (s, 0)
  else
    let vs := j.saved.map SavedTile.fall
    let left := vs.flatMap fun v => v.1.st.queue.map fun m => (v.1.tile, m.id)
    let s := s.discardRecords j.id ((s.suspendedMoves j).filter fun k => !left.contains k)
    let s := j.saved.foldl (fun s v => if v.st.standsAtFall then s else s.bump .tileSeqFlagFallRestarts (v.tile / 512)) s
    (s.modJob j.id fun b => { b with saved := vs.map Prod.fst, held := [] }, (vs.map Prod.snd).sum)

/-- The period scheduler writes for a job (R224, R255, R259). -/
def State.schedWrite (s : State) (j : Job) (a : Nat) (bs : List Byte) : State :=
  match s.writeJob 6 j a bs with
  | (s, some f) => s.schedFault j f
  | (s, none) => s

/-- Mark one stale word (R255); one that does not translate faults and is left as it is (R224). -/
def State.markStale (s : State) (j : Job) (n : Int) (a : Nat) : State :=
  let e := (n % 256).toNat
  match s.readJob 6 j a 8 with
  | (s, .error f) => s.schedFault j f
  | (s, .ok bs) =>
    let w := leNat bs
    if w % 512 = e then s
    else s.schedWrite j a (leBytes 8 (w / 512 * 512 + 256 + (e + 1) % 256))

/-- The record of a period (R259). -/
def State.periodRecord (s : State) (j : Job) (p : Period) (late : Bool) : List Byte :=
  let tiles := jobTiles j.p
  let xs := tiles.map fun t => (t, s.tileOfJob j t)
  let steps := xs.map fun (t, x) => (x.stepsAtDone.getD (s.stepCount t)) - x.stepsAtStart
  let flags := (if p.checked then 1 else 0) + (if late then 2 else 0) + (if p.lateStart then 4 else 0) +
    (if p.outputsT.isSome then 8 else 0) + (if p.finished then 16 else 0)
  leBytes 2 j.id.toNat ++ leBytes 1 (p.n % 256).toNat ++ leBytes 1 flags ++ leBytes 4 (BitVec.ofInt 32 p.n).toNat ++
  leBytes 8 (stamp (startT j.p p.n)).toNat ++ leBytes 8 (p.outputsT.getD 0).toNat ++ leBytes 8 (p.workT.getD 0).toNat ++
  leBytes 4 (xs.filter fun (_, x) => x.workComplete p.n).length ++ leBytes 4 tiles.length ++ leBytes 8 p.milestoneT.toNat ++
  leBytes 1 p.milestone ++ leBytes 3 0 ++ leBytes 4 p.movesDiscarded ++ leBytes 8 p.epochDrops ++
  leBytes 8 (steps.foldl max 0) ++ leBytes 8 (match steps with | [] => 0 | k :: ks => ks.foldl min k) ++ leBytes 8 s.now.toNat ++
  List.replicate 40 0

/-- Flag fall of period n, the period in force (R253 to R256, R259, R521): `whole` restarts the tiles. Requests of
pre-emption that waited for it follow (R256). -/
def State.flagFall (s : State) (j : Job) (p : Period) (whole : Bool) : State :=
  let late := !s.workComplete j
  let before := s.periodRecord j p late
  let done := (before.drop 32).take 4
  let steps := (before.drop 64).take 16
  let s := (s.bump .periodFlagFalls p.slot).bump .periodLate p.slot 0 (if late then 1 else 0)
  let (s, k) := if whole then s.fallTiles j else (s, 0)
  let s := if whole then s.modJob j.id fun b => { b with held := [] } else s
  let s := (s.bump .periodMovesDiscarded p.slot 0 k).modPeriod j.id fun q => { q with movesDiscarded := q.movesDiscarded + k }
  let s := j.p.staleWords.foldl (fun s a => s.markStale j p.n a.toNat) s
  let s := if whole then
      let b := s.batchesLeft fun e => e.job == j.id
      let s := s.dropPpe fun e => e.job == j.id
      let n := (s.coll.ctxs.filter fun c => c.job == j.id).length
      ((s.bump .ppeFlagFallDropped 0 0 b).bump .collFlagFallDiscarded 0 0 n).dropJobCtxs j.id
    else s
  let s := match s.job j.id with
    | none => s
    | some b =>
      let q := b.period.getD p
      let r := s.periodRecord b q late
      let r := r.take 32 ++ done ++ (r.drop 36).take 28 ++ steps ++ r.drop 80
      s.schedWrite b (b.p.reportBase.toNat + 128 * (q.n % b.p.reportCount).toNat) r
  let s := s.modPeriod j.id fun q => { q with fallen := q.n }
  let s := if late then
      s.event .flagFall ⟨8, j.id.setWidth 24⟩ (leBytes 2 j.id.toNat ++ leBytes 1 (p.n % 256).toNat) (some (stamp (fallT j.p p.n)))
    else s
  if whole then ((jobTiles j.p).foldl (fun s t => if (s.tile t).job == j.id then s.kickAll t else s) s).scheduleJobs else s

/-- Start the save of a job that lends its tiles (R257). -/
def State.lend (s : State) (j : Job) (p : Period) : State :=
  s.modJob j.id fun b => { b with
    saving := true, preemptT := s.time.work
    period := b.period.map fun q => { q with reclaimT := reclaimAt j.p p.n } }

/-- A lending job is runnable again (R247, R257). -/
def State.reclaim (s : State) (j : Job) : State := (s.modJob j.id fun b => { b with startWanted := true }).scheduleJobs

/-! ## Actions deferred by a freeze (R521) -/

/-- The next action of a job's schedule, if its time is not after t: its time, and 0 start, 1 check, 2 flag fall,
3 reclaim. -/
def Job.due (j : Job) (t : Int) : Option (Int × Nat) :=
  match j.period with
  | none => none
  | some p =>
    if !j.scheduled then none else
    let a : Int × Nat :=
      if p.n = p.fallen then (startT j.p (p.n + 1), 0)
      else if !p.checkRun then (checkT j.p p.n, 1)
      else (fallT j.p p.n, 2)
    let a := if j.state == .idle && !j.startWanted && p.reclaimT < a.1 then (p.reclaimT, 3) else a
    if a.1 ≤ t then some a else none

/-- Carry out the actions that fell due by a time, in time order (R521); `fell` are the jobs whose tiles have been
restarted already. -/
def State.catchUp (t : Int) : Nat → List (BitVec 12) → State → State
  | 0, _, s => s
  | f + 1, fell, s =>
    let next := s.jobs.foldl (fun (a : Option (Int × Nat × Job)) j =>
      match j.due t, a with
      | none, a => a
      | some d, none => some (d.1, d.2, j)
      | some d, some (u, k, i) => if d.1 < u then some (d.1, d.2, j) else some (u, k, i)) none
    match next with
    | none => s
    | some (_, k, j) =>
      match j.period with
      | none => s
      | some p =>
        match k with
        | 0 => State.catchUp t f fell (s.startPeriod j p)
        | 1 => State.catchUp t f fell (s.checkPeriod j p (fallT j.p p.n > t))
        | 2 => State.catchUp t f (j.id :: fell) (s.flagFall j p (!fell.contains j.id))
        | _ => State.catchUp t f fell (s.reclaim j)

/-- How many actions can fall due between two times. -/
def State.dueBound (s : State) (t : Int) : Nat :=
  (s.jobs.map fun j => match j.period with
    | some p => 4 * ((t - startT j.p p.n) / (16 * j.p.period) + 2).toNat + 4
    | none => 0).sum

/-- The deferred actions at THAW (R521). -/
def State.deferredActions (s : State) : State := State.catchUp s.globalT (s.dueBound s.globalT) [] s

end Sys2Proof.Machine
end

