-- ==== Sys2Proof/Machine/Jobs.lean ====
section
/-! DEFINITION. The events of jobs and periods (R236, R237, R243, R250 to R257). -/

namespace Sys2Proof.Machine

/-- TILE_PREPARED (R243): the preparation of a tile ends, and it runs the job. -/
def execTilePrepared (t : TileIx) (s : State) : Out :=
  match s.jobs.find? fun j => j.state == .running && j.preparing.contains t.val with
  | none => .next s
  | some j => when_ s (s.tileRuns t) fun s => s.prepareTile j t

/-- SAVE_COMPLETE (R236, R244): a flag fall that is due goes first (R256). -/
def execSaveComplete (job : BitVec 12) (s : State) : Out :=
  match s.job job with
  | none => .next s
  | some j => when_ s (s.working && j.state == .running && (j.preempt.isSome || j.saving) && !s.fallDue j && s.unitsStopped j) fun s => s.saveJob j

/-- RESTORE_COMPLETE (R237, R244). -/
def execRestoreComplete (job : BitVec 12) (s : State) : Out :=
  match s.job job with
  | none => .next s
  | some j => when_ s (s.working && j.restoring) fun s => s.restoreJob j

/-- A period action of a resident job whose schedule is in force. -/
def State.periodAct (s : State) (job : BitVec 12) (f : Job → Period → Bool) (g : State → Job → Period → State) : Out :=
  match s.job job with
  | none => .next s
  | some j =>
    match j.period with
    | none => .next s
    | some p => when_ s (s.working && j.scheduled && f j p) fun s => g s j p

/-- PERIOD_START (R250). -/
def execPeriodStart (job : BitVec 12) (s : State) : Out :=
  s.periodAct job (fun j p => p.n == p.fallen && decide (startT j.p (p.n + 1) ≤ s.globalT)) State.startPeriod

/-- CHECK (R252). -/
def execCheck (job : BitVec 12) (s : State) : Out :=
  s.periodAct job (fun j p => p.n != p.fallen && !p.checkRun && decide (checkT j.p p.n ≤ s.globalT)) fun s j p => s.checkPeriod j p true

/-- FLAG_FALL (R253). -/
def execFlagFall (job : BitVec 12) (s : State) : Out :=
  s.periodAct job (fun j p => p.n != p.fallen && decide (fallT j.p p.n ≤ s.globalT)) fun s j p => s.flagFall j p true

/-- LEND (R257): the save of a work-complete job begins where its next reclaim is at least 50 µs away. -/
def execLend (job : BitVec 12) (s : State) : Out :=
  s.periodAct job (fun j p => j.p.lend && j.state == .running && j.preempt.isNone && !j.saving && !s.fallDue j && j.preparing.isEmpty &&
    s.workComplete j && decide (s.globalT + 800000 ≤ reclaimAt j.p p.n)) State.lend

/-- RECLAIM (R257). -/
def execReclaim (job : BitVec 12) (s : State) : Out :=
  s.periodAct job (fun j p => j.state == .idle && !j.startWanted && !j.restoring && decide (p.reclaimT ≤ s.globalT)) fun s j _ => s.reclaim j

end Sys2Proof.Machine
end

