-- ==== Sys2Proof/Machine/Endpoint.lean ====
section
/-! DEFINITION. Fabric messages that reach the endpoint, and the timers of the transport (R270 to R291). Timers count the
work clock (R510). -/

namespace Sys2Proof.Machine

/-- A request of one operation arrives; an operation code that is reserved is malformed under any of the four rows. -/
def State.requestRow (s : State) (p : Option PortIx) (q : Request) (op : Nat) : Out :=
  when_ s (s.hears p && s.fid == some q.dst && (q.op.toNat == op || q.op.toNat > 3)) fun s => s.request q

/-- REQUEST_PUT (R267, R275, R392). -/
def execRequestPut (p : Option PortIx) (q : Request) (s : State) : Out := s.requestRow p q 0

/-- REQUEST_GET (R267, R270). -/
def execRequestGet (p : Option PortIx) (q : Request) (s : State) : Out := s.requestRow p q 1

/-- REQUEST_ATOMIC (R267, R271, R288). -/
def execRequestAtomic (p : Option PortIx) (q : Request) (s : State) : Out := s.requestRow p q 2

/-- REQUEST_SIGNAL (R267, R272). -/
def execRequestSignal (p : Option PortIx) (q : Request) (s : State) : Out := s.requestRow p q 3

/-- GET_DATA (R270, R277). -/
def execGetData (seq : BitVec 24) (ce : Bool) (payload : List Byte) (s : State) : Out :=
  when_ s s.working fun s => s.getData seq ce payload

/-- ATOMIC_REPLY (R271, R277). -/
def execAtomicReply (seq : BitVec 24) (ce : Bool) (old : BitVec 64) (s : State) : Out :=
  when_ s s.working fun s => s.atomicAnswer seq ce old

/-- RECEIPT (R277, R279, R289). -/
def execReceipt (entries : List ReceiptEntry) (s : State) : Out :=
  when_ s s.working fun s => entries.foldl (fun s e =>
    (List.range 32).foldl (fun s i => if e.mask.getLsbD i then s.receiptSeq (e.base + BitVec.ofNat 24 i) e.ce else s) s) s

/-- NAK (R277, R282, R290, R291). -/
def execNak (_src : BitVec 16) (entries : List (BitVec 24 × BitVec 8)) (s : State) : Out :=
  when_ s s.working fun s => entries.foldl (fun s e => s.nakEntry e.1 e.2) s

/-- LOST (R282, R318). -/
def execLost (_reporter : BitVec 16) (_rport : BitVec 4) (seqs : List (BitVec 24)) (s : State) : Out :=
  when_ s s.working fun s => seqs.foldl State.lostSeq s

/-- LOW_MARK (R281). -/
def execLowMark (src : BitVec 16) (low : BitVec 24) (s : State) : Out := when_ s s.working fun s => s.takeLow src low

/-- CONG_MAP (R321): the latest map of each source is kept for the fabric manager (log 23). -/
def execCongMap (src : BitVec 16) (record : List Byte) (s : State) : Out :=
  when_ s (s.working && record.length == 256) fun s =>
    s.modFab fun f => { f with maps := (src, record) :: f.maps.filter fun x => x.1 != src }

/-- RECEIPT_FLUSH (R278): 500 ns since the oldest pending receipt of a source. -/
def execReceiptFlush (src : BitVec 16) (s : State) : Out :=
  match s.fab.pend.find? fun p => p.src == src with
  | some p => when_ s (s.working && !p.seqs.isEmpty && p.oldest + 500 ≤ s.time.work) fun s => s.flushReceipts src
  | none => .next s

/-- RETRANSMIT_TIMEOUT (R282): no answer for RTO / 4 since the last send. -/
def execRetransmitTimeout (seq : BitVec 24) (s : State) : Out :=
  match s.entry seq with
  | some e => when_ s (s.working && e.wait == .none && e.last + s.fab.rto / 4 ≤ s.time.work) fun s => s.resend e .fabTxRetransmitTimeout
  | none => .next s

/-- BACKOFF_EXPIRY (R282). -/
def execBackoffExpiry (seq : BitVec 24) (s : State) : Out :=
  match s.entry seq with
  | some e =>
    match e.wait with
    | .backoff till => when_ s (s.working && till ≤ s.time.work) fun s => s.resend e .fabTxRetransmitBackoff
    | _ => .next s
  | none => .next s

/-- ABANDON (R283): no delivery receipt at RTO after the first send. -/
def execAbandon (seq : BitVec 24) (s : State) : Out :=
  match s.entry seq with
  | some e =>
    when_ s (s.working && e.first + s.fab.rto ≤ s.time.work) fun s =>
      ((s.retire e).bump .fabOrtAbandoned).ownerFault e.owner { status := .transportTimeout, addr := e.q.waddr.toNat, write := e.q.op != 1 }
  | none => .next s

/-- LOW_MARK_TIMER (R281): at most once in 2 µs to a destination, once an entry for it has been retired. -/
def execLowMarkTimer (dst : BitVec 16) (s : State) : Out :=
  match s.fab.peers.find? fun p => p.dst == dst with
  | some p =>
    when_ s (s.working && p.retired && s.lowFree dst) fun s =>
      (s.sendLow dst).modFab fun f => { f with
        peers := mapIf (fun p => p.dst == dst) (fun p => { p with retired := false }) f.peers }
  | none => .next s

/-- RATE_RAISE (R289): 8 µs without CE raises the rate by 1/16 of full rate. -/
def execRateRaise (dst : BitVec 16) (s : State) : Out :=
  match s.fab.peers.find? fun p => p.dst == dst with
  | some p =>
    when_ s (s.working && p.rate < 256 && p.lastRaise + 8000 ≤ s.time.work) fun s =>
      s.modFab fun f => { f with
        peers := mapIf (fun p => p.dst == dst) (fun p => { p with rate := min 256 (p.rate + 16), lastRaise := s.time.work }) f.peers }
  | none => .next s

end Sys2Proof.Machine
end

