-- ==== Sys2Proof/Machine/Zcp.lean ====
section
/-! DEFINITION. ZCP packets, reassembly and queueing, and the commands of the groups 0x00xx and 0x01xx that concern the
control processor itself (R433 to R457). -/

namespace Sys2Proof.Machine

/-! ## Packets (R433 to R445) -/

/-- The header fields of a request packet (R435). -/
structure ZcpHead where
  ver : Nat
  flags : Nat
  seq : BitVec 32
  op : BitVec 16
  len : Nat
  target : Nat
  tag : BitVec 32
  frag : Nat
  nfrag : Nat
  maxReply : Nat
  rfrag : Nat
  body : List Byte
  deriving DecidableEq, Repr

/-- A packet as its header and parameter bytes (R435). -/
def zcpHead (pkt : List Byte) : ZcpHead :=
  let f (a n : Nat) : Nat := leNat ((pkt.drop a).take n)
  { ver := f 2 1, flags := f 3 1, seq := BitVec.ofNat 32 (f 4 4), op := BitVec.ofNat 16 (f 8 2), len := f 12 4, target := f 16 4
    tag := BitVec.ofNat 32 (f 20 4), frag := f 24 2, nfrag := f 26 2, maxReply := f 28 2, rfrag := f 30 2, body := pkt.drop 32 }

/-- The TARGET of a field (R436). -/
def targetOf (v : Nat) : Target := ⟨BitVec.ofNat 8 (v / 2 ^ 24), BitVec.ofNat 24 v⟩

/-- The header as the head of a reply. -/
def ZcpHead.reply (h : ZcpHead) (st : Status) (ver2 : Bool) : ReplayEntry :=
  { seq := h.seq, op := h.op, target := targetOf h.target, ver2 := ver2, tag := h.tag, status := st.code, body := none }

/-- Answer a packet that does not become a request. -/
def State.answerPacket (s : State) (src : ZcpSrc) (h : ZcpHead) (st : Status) (ver2 : Bool := h.ver == 2) : State :=
  s.sendReply src (h.reply st ver2) h.maxReply 0 []

/-- A command's row of R450 as its encoding is checked: the KINDs of its target, its mandatory parameters, and how many it
lists. -/
structure ParamRow where
  op : Nat
  kinds : List Nat := [0]
  need : List Nat := []
  most : Nat := 0
  deriving DecidableEq, Repr

/-- The rows of R450, groups 0x00xx to 0x03xx. -/
def paramRowsLow : List ParamRow := [
  ⟨0x0001, [0], [], 0⟩, ⟨0x0002, [0], [1, 2], 2⟩, ⟨0x0003, [0], [], 1⟩, ⟨0x0010, [0], [1, 2], 2⟩, ⟨0x0011, [0], [1], 1⟩,
  ⟨0x0012, [0], [1, 2], 2⟩, ⟨0x0101, [5], [], 6⟩, ⟨0x0102, [5], [], 0⟩, ⟨0x0110, [0], [1], 1⟩, ⟨0x0111, [0], [1], 1⟩,
  ⟨0x0112, [0], [], 1⟩, ⟨0x0113, [0], [], 0⟩, ⟨0x0201, [8], (List.range 21).map (· + 1), 21⟩, ⟨0x0202, [8], [], 0⟩,
  ⟨0x0203, [8], [], 0⟩, ⟨0x0204, [8], [], 0⟩, ⟨0x0205, [8], [1], 3⟩, ⟨0x0206, [8], [1], 2⟩, ⟨0x0207, [0, 8], [], 0⟩,
  ⟨0x0208, [0, 8], [1], 1⟩, ⟨0x0209, [8], [1, 2], 2⟩, ⟨0x020A, [8], [1], 1⟩, ⟨0x0301, [8], [1, 2, 3, 4, 5, 6], 6⟩,
  ⟨0x0302, [8], [1, 2], 2⟩, ⟨0x0303, [8], [1, 2, 3, 4], 4⟩, ⟨0x0304, [8], [1], 1⟩, ⟨0x0305, [3], [], 1⟩, ⟨0x0306, [3], [], 0⟩,
  ⟨0x0310, [8], [1, 2, 3], 3⟩, ⟨0x0311, [8], [1], 1⟩, ⟨0x0320, [8], (List.range 12).map (· + 1), 12⟩, ⟨0x0321, [9], [1], 13⟩,
  ⟨0x0322, [9], [], 0⟩, ⟨0x0323, [9], [], 0⟩, ⟨0x0324, [9], [], 0⟩]

/-- The rows of R450, groups 0x04xx to 0x09xx. -/
def paramRowsHigh : List ParamRow := [
  ⟨0x0401, [0], [1], 1⟩, ⟨0x0402, [0], [], 0⟩, ⟨0x0403, [4], [], 0⟩, ⟨0x0404, [0, 4], [], 10⟩, ⟨0x0405, [4], [], 0⟩,
  ⟨0x0406, [4], [], 0⟩, ⟨0x0410, [0], [1, 2], 2⟩, ⟨0x0411, [0], [1, 2], 2⟩, ⟨0x0420, [0], [1, 2], 2⟩, ⟨0x0421, [0], [1], 1⟩,
  ⟨0x0422, [0], [1], 1⟩, ⟨0x0430, [0], [], 0⟩, ⟨0x0440, [8], [1, 2, 3, 4], 4⟩, ⟨0x0441, [10], [1], 1⟩, ⟨0x0442, [10], [], 0⟩,
  ⟨0x0443, [10], [], 0⟩, ⟨0x0444, [0, 10], [1], 1⟩, ⟨0x0501, [6], [], 0⟩, ⟨0x0502, [6], [], 0⟩, ⟨0x0503, [6], [], 0⟩,
  ⟨0x0504, [6], [], 0⟩, ⟨0x0505, [6], [], 0⟩, ⟨0x0510, [7], (List.range 8).map (· + 1), 8⟩, ⟨0x0511, [7], [], 0⟩,
  ⟨0x0512, [0, 7], [], 0⟩, ⟨0x0513, [0], [], 0⟩, ⟨0x0601, [0, 1, 3], [], 0⟩, ⟨0x0602, [0], [], 0⟩, ⟨0x0603, [0], [1], 1⟩,
  ⟨0x0604, [0], [], 0⟩, ⟨0x0605, [0], [1], 1⟩, ⟨0x0701, [0], [1], 1⟩, ⟨0x0702, [0], [], 0⟩, ⟨0x0703, [0], [1, 2, 3], 3⟩,
  ⟨0x0704, [0], [1, 2, 3, 4], 4⟩, ⟨0x0705, [0], [1, 2], 2⟩, ⟨0x0710, [0], [1, 2], 2⟩, ⟨0x0711, [0], [1, 2], 2⟩,
  ⟨0x0712, [0], [], 0⟩, ⟨0x0713, [0], [1, 2], 2⟩, ⟨0x0720, [0], [], 0⟩, ⟨0x0721, [0, 1, 3, 4, 5, 6], [1], 1⟩,
  ⟨0x0730, [4], [1], 1⟩, ⟨0x0801, [0], [1], 2⟩, ⟨0x0802, [0], [], 0⟩, ⟨0x0803, [0], [], 0⟩, ⟨0x0901, [0], [], 0⟩,
  ⟨0x0902, [0], [1, 2], 2⟩, ⟨0x0903, [0], [], 0⟩, ⟨0x0904, [0], [], 0⟩, ⟨0x0905, [0], [], 0⟩]

/-- Parameters whose codes R450 lists, as opcode, TYPE, place in the value, and the first reserved code (R11, R437). -/
def codeRows : List (Nat × Nat × Nat × Nat) := [
  (0x0101, 1, 0, 4), (0x0111, 1, 0, 2), (0x0201, 2, 0, 8), (0x0201, 3, 0, 64), (0x0201, 11, 0, 3), (0x0201, 13, 0, 2), (0x0201, 14, 0, 2),
  (0x0201, 18, 0, 2), (0x0201, 19, 0, 2), (0x0205, 1, 0, 3), (0x0206, 1, 0, 2), (0x0206, 2, 0, 8), (0x020A, 1, 0, 2),
  (0x0301, 5, 0, 2), (0x0301, 6, 0, 2), (0x0303, 3, 0, 2), (0x0303, 4, 0, 2), (0x0310, 3, 0, 8), (0x0320, 7, 0, 2), (0x0320, 8, 0, 2),
  (0x0320, 12, 0, 2), (0x0321, 1, 0, 5), (0x0321, 8, 0, 2), (0x0321, 9, 0, 2), (0x0321, 13, 0, 2), (0x0404, 7, 0, 2), (0x0404, 9, 0, 2),
  (0x0404, 10, 0, 3), (0x0510, 1, 0, 2), (0x0510, 3, 0, 2), (0x0510, 7, 0, 2), (0x0605, 1, 0, 3), (0x0703, 2, 0, 4),
  (0x0703, 0x8001, 0, 8), (0x0703, 0x8002, 0, 2), (0x0704, 3, 0, 2), (0x0704, 4, 0, 2), (0x0730, 1, 0, 16)]

/-- A parameter of a request that holds a reserved code: its TYPE. VC 12 to 14 of an AUDIT are reserved too (R450). -/
def reservedParam (w : Waiting) (ts : List Nat) : Option Nat :=
  let code (t o : Nat) : Nat := ((paramOf t w.bytes.length w.bytes).getD o 0).toNat
  ((codeRows.find? fun r => r.1 == w.op.toNat && ts.contains r.2.1 &&
    (code r.2.1 r.2.2.1 ≥ r.2.2.2 || (w.op == 0x0730 && code 1 0 ≥ 12 && code 1 0 ≤ 14))).map fun r => r.2.1)

/-- Instances of a KIND (R436). -/
def kindSize (k : Nat) : Nat := [1, 6, 3072, 24, 16, 16, 11, 8, 4096, 8193, 65536].getD k 0

/-- TYPEs of the items of a parameter stream, and whether no item runs past its end (R437). -/
def itemTypes : Nat → List Byte → List Nat × Bool
  | 0, bs => ([], bs.isEmpty)
  | n + 1, bs =>
    if bs.isEmpty then ([], true)
    else if bs.length < 4 then ([], false)
    else
      let size := 4 + ceilDiv (leNat ((bs.drop 2).take 2)) 4 * 4
      if bs.length < size then ([leNat (bs.take 2)], false)
      else ((leNat (bs.take 2)) :: (itemTypes n (bs.drop size)).1, (itemTypes n (bs.drop size)).2)

/-- The refusal of a request's encoding: its TARGET, then its parameters and their codes (R11, R436, R437, R548). -/
def encodingRefusal (w : Waiting) : Option (Status × Option Nat) :=
  match (paramRowsLow ++ paramRowsHigh).find? fun x => x.op == w.op.toNat with
  | none => none
  | some x =>
    let (ts, whole) := itemTypes w.bytes.length w.bytes
    let k := w.target.kind.toNat
    let low := if k = 8 || k = 9 then 1 else 0
    if !x.kinds.contains k || w.target.index.toNat < low || w.target.index.toNat ≥ kindSize k then some (.reservedValue, none)
    else match ts.find? fun t => t < 0x8000 && (t = 0 || t > x.most) with
    | some t => some (.paramUnknown, some t)
    | none =>
      match x.need.find? fun t => !ts.contains t with
      | some t => if whole then some (.paramMissing, some t) else some (.malformed, none)
      | none =>
        if !whole || ts.any fun t => ts.count t > 1 then some (.malformed, none)
        else (reservedParam w ts).map fun t => (.reservedValue, some t)

/-- The opcode is a row of R450. -/
def opKnown (op : BitVec 16) : Bool := (paramRowsLow ++ paramRowsHigh).any fun x => x.op == op.toNat

/-- What is wrong with a packet as a packet (R435, R439, R548): reserved bits of FLAGS are RESERVED_VALUE (R11; log 28). -/
def packetRefusal (h : ZcpHead) : Option Status :=
  if h.ver ≠ 1 && h.ver ≠ 2 then some .versionUnsupported
  else if h.flags / 8 ≠ 0 then some .reservedValue
  else if h.len ≠ h.body.length || h.frag ≥ h.nfrag then some .malformed
  else if h.ver = 1 && h.nfrag ≠ 1 then some .versionUnsupported
  else none

/-- The counter of a command's refusals (R177, R178, R199, R241, R265, R304, R379, R381). -/
def refusedCtr (op : Nat) : Option CtrId :=
  if op = 0x0201 then some .jobLoadRefused
  else if op = 0x0301 || op = 0x0302 || op = 0x0303 then some .memMapRefused
  else if op = 0x0404 then some .fabConfigRefused
  else if op = 0x0420 then some .fabWindowOpenRefused
  else if op = 0x0440 || op = 0x0441 then some .collGroupRefused
  else if op = 0x0510 || op = 0x0511 then some .ppeSlotRefused
  else none

/-- A whole request arrives (R437, R441 to R444): a duplicate is answered, a full queue answers BUSY, an encoding that is
refused is answered, and another waits or starts. -/
def State.arrivesZcp (s : State) (src : ZcpSrc) (h : ZcpHead) (bytes : List Byte) : State :=
  match s.zcp.inHand src h.seq with
  | some w => ((s.bump .zcpReplayDuplicates).touchSource src).sendReply src (w.head .inProgress [] 0) h.maxReply 0 []
  | none =>
    match s.zcp.cached src h.seq with
    | some e => s.answerDuplicate src e h.maxReply h.rfrag
    | none =>
      let s := s.touchSource src
      if bytes.length > 65536 && opKnown h.op then s.answerPacket src h .lengthRange
      else if (s.zcp.waiting.filter fun w => w.started.isNone).length ≥ 64 then (s.bump .zcpBusy).answerPacket src h .busy
      else
        let w : Waiting :=
          { src := src, seq := h.seq, op := h.op, target := targetOf h.target, ver2 := h.ver == 2, tag := h.tag
            maxReply := h.maxReply, bytes := bytes, started := none }
        match encodingRefusal w with
        | some (st, p) =>
          let s := match refusedCtr w.op.toNat with | some c => s.bump c | none => s
          s.reply w false st (match p with | some t => items [leBytes 2 t] | none => [])
        | none => { s with zcp := { s.zcp with waiting := s.zcp.waiting ++ [w] } }.startQueued

/-- A fragment of a message of several (R440). -/
def State.fragment (s : State) (src : ZcpSrc) (h : ZcpHead) : State :=
  let mine (x : Reassembly) : Bool := x.src == src && x.seq == h.seq
  match s.zcp.reassembly.find? mine with
  | none =>
    if s.zcp.reassembly.length ≥ 16 then s.answerPacket src h .busy else
    let x : Reassembly := { src := src, seq := h.seq, op := h.op, target := BitVec.ofNat 32 h.target, nfrag := h.nfrag, first := s.clock
                            frags := [(h.frag, h.body)] }
    { s with zcp := { s.zcp with reassembly := s.zcp.reassembly ++ [x] } }
  | some x =>
    let rest := s.zcp.reassembly.filter fun y => !mine y
    if h.op ≠ x.op || h.target ≠ x.target.toNat || h.nfrag ≠ x.nfrag then
      { s with zcp := { s.zcp with reassembly := rest } }.answerPacket src h .malformed
    else
      let frags := if x.frags.any fun p => p.1 == h.frag then x.frags else x.frags ++ [(h.frag, h.body)]
      if frags.length < x.nfrag then
        { s with zcp := { s.zcp with reassembly := rest ++ [{ x with frags := frags }] } }
      else
        let bytes := (List.range x.nfrag).flatMap fun i => ((frags.find? fun p => p.1 == i).map Prod.snd).getD []
        { s with zcp := { s.zcp with reassembly := rest } }.arrivesZcp src h bytes

/-- A ZCP packet reaches the control processor (R434 to R440, R449): of several refusals the opcode's comes first (R548). -/
def State.zcpPacketIn (s : State) (src : ZcpSrc) (pkt : List Byte) : State :=
  if !s.live || !s.accepts src then s
  else if leNat (pkt.take 2) ≠ 0x5A4D || pkt.length < 32 then s.bump .zcpRxBadMagic
  else
    let h := zcpHead pkt
    if h.flags % 4 ≠ 0 then s.bump .zcpRxUnexpected
    else if !filterAllows s.zcp.filter src then s.bump .zcpFiltered
    else match packetRefusal h with
    | some st => s.answerPacket src h (if opKnown h.op then st else .opcodeUnknown)
    | none => if h.nfrag = 1 then s.arrivesZcp src h h.body else s.fragment src h

/-- ZCP_FRAGMENT (R433 to R444). -/
def execZcpFragment (src : ZcpSrc) (pkt : List Byte) (s : State) : Out := .next (s.zcpPacketIn src pkt)

/-- REASSEMBLY_TIMEOUT (R440). -/
def execReassemblyTimeout (src : ZcpSrc) (seq : BitVec 32) (s : State) : Out :=
  let due (x : Reassembly) : Bool := x.src == src && x.seq == seq && x.first + 1000000000 ≤ s.clock
  when_ s (s.live && s.zcp.reassembly.any due) fun s =>
    { s with zcp := { s.zcp with reassembly := s.zcp.reassembly.filter fun x => !due x } }.bump .zcpRxReassemblyTimeout

/-- INTERIM_REPLY (R445): 100 ms after it started, then every second. -/
def execInterimReply (src : ZcpSrc) (seq : BitVec 32) (s : State) : Out :=
  match s.zcp.inHand src seq with
  | some w =>
    when_ s (s.live && (w.started.map fun t => decide (t + 100000000 + 1000000000 * w.interims ≤ s.clock)).getD false) fun s =>
      let s := s.sendReply src (w.head .inProgress [] 0) w.maxReply 0 []
      { s with zcp := { s.zcp with
        waiting := mapIf (fun (x : Waiting) => x.src == src && x.seq == seq) (fun x => { x with interims := x.interims + 1 }) s.zcp.waiting } }
  | none => .next s

/-- LOCK_EXPIRY (R448). -/
def execLockExpiry (s : State) : Out :=
  match s.zcp.lock with
  | some (_, till) => when_ s (s.live && till ≤ s.clock) fun s => s.dropLock
  | none => .next s

/-- ZCP_UNKNOWN_OPCODE (R450): the opcode decides before anything else (R548). -/
def execZcpUnknownOpcode (r : ZcpReq) (op : BitVec 16) (s : State) : Out :=
  .next (s.zcpStep r { op := op.toNat, change := false, bad := some .opcodeUnknown } fun s => .err s .opcodeUnknown)

/-! ## Capabilities (R452, R453) -/

/-- HBM bytes online (R37). -/
def State.capacity (s : State) : Nat := stackSize * (s.hbm.toList.filter fun k => !k.offline).length

/-- The code of DEVICE_INFO STATE (R453). -/
def devCode : DevState → Nat | .starting => 0 | .ready => 1 | .frozen => 2

/-- Version of the running image (R465). -/
def State.fwField (s : State) (a n : Nat) : Nat := (s.flash.bank s.boot.running).field s.boot.running a n

/-- The body of DEVICE_INFO (R453). -/
def State.deviceInfo (s : State) : List Byte :=
  [1] ++ leBytes 1 Config.siliconRev.toNat ++ leBytes 2 Config.jep106.toNat ++ leBytes 1 s.board.slotId.toNat ++
  leBytes 1 (devCode s.devState) ++ leBytes 2 0 ++ (Config.serial ++ List.replicate 24 0).take 24 ++ leBytes 6 Config.macBase.toNat ++
  leBytes 2 0 ++ leBytes 4 (s.fwField 8 4) ++ leBytes 1 (if s.boot.running then 1 else 0) ++ leBytes 1 0 ++
  leBytes 2 (s.fid.getD 0xFFFF).toNat ++ leBytes 8 s.capacity

/-- A state of the PPE by its position in R187. -/
def ppeCode : PpeState → Nat | .offline => 0 | .calibrating => 1 | .ready => 2 | .switching => 3

/-- Bits of the stacks that a test selects. -/
def State.stackMask (s : State) (p : Stack → Bool) : Nat := (s.hbm.toList.zipIdx.map fun (k, i) => if p k then 2 ^ i else 0).sum

/-- The bodies of the capabilities in order (R452). -/
def State.capBodies (s : State) : List (Nat × List Byte) :=
  let rows (d : Nat) : List Nat := s.boot.offlineRows.filterMap fun r => if r.1.val = d then some r.2.val else none
  [(1, s.deviceInfo),
   (2, (List.range 6).flatMap (fun d => leBytes 2 (512 - 32 * (rows d).length)) ++
       (List.range 6).flatMap (fun d => leBytes 2 ((rows d).map fun r => 2 ^ r).sum) ++ leBytes 2 0x7FFF),
   (3, leBytes 4 (s.stackMask Stack.offline) ++ leBytes 4 (s.stackMask fun k => !k.failedPcs.isEmpty) ++
       leBytes 4 (s.stackMask Stack.spareUsed) ++ leBytes 4 0 ++ leBytes 8 s.capacity),
   (4, [16, 0x10, 0x12, 12] ++ leBytes 4 7 ++ leBytes 4 16384 ++ leBytes 4 16384 ++ leBytes 4 65536),
   (5, [4, 15, 7, 0] ++ leBytes 4 8192 ++ leBytes 4 65536),
   (6, [8] ++ leBytes 1 (ppeCode s.ppe.state) ++ leBytes 2 s.ppe.dead.length ++ leBytes 8 16000000000),
   (7, [64, 56] ++ leBytes 2 1024 ++ leBytes 4 262144),
   (8, [64, 16] ++ leBytes 2 0 ++ leBytes 4 1024),
   (9, [11] ++ leBytes 1 Config.trustVendors.length ++ leBytes 2 0 ++ Config.trustVendors.flatMap fun v => leBytes 4 v.1.toNat),
   (10, [6] ++ leBytes 2 0x03FF ++ [64] ++ leBytes 4 65536 ++ leBytes 2 256 ++ [8, 0]),
   (11, leBytes 1 s.flash.rollback ++ leBytes 7 0),
   (12, leBytes 2 424 ++ leBytes 2 1500 ++ leBytes 2 3600 ++ leBytes 2 0),
   (13, leBytes 4 Config.numCounters ++ leBytes 4 8192)]

/-- The capability list from an offset (R452). -/
def capList (off : Nat) : List (Nat × List Byte) → List Byte
  | [] => []
  | (id, body) :: cs =>
    let n := ceilDiv (8 + body.length) 8
    leBytes 2 id ++ [1] ++ leBytes 1 n ++ leBytes 4 (if cs.isEmpty then 0 else off + 8 * n) ++ body ++
      List.replicate (8 * n - 8 - body.length) 0 ++ capList (off + 8 * n) cs

/-- DEVICE_INFO (R453). -/
def execDeviceInfo (r : ZcpReq) (s : State) : Out :=
  .next (s.zcpStep r { op := 0x0001, change := false } fun s => .ok s [(capList 0 s.capBodies).take 64])

/-- CAP_READ (R452). -/
def execCapRead (r : ZcpReq) (offset len : Nat) (s : State) : Out :=
  .next (s.zcpStep r { op := 0x0002, change := false } fun s =>
    let caps := capList 0 s.capBodies
    if offset % 8 ≠ 0 then .err s .alignment (some 1)
    else if len < 8 || len > 1024 || offset + len > caps.length then .err s .lengthRange (some 2)
    else .ok s [(caps.drop offset).take len])

/-- PING (R498): `stamp` is the hardware time-stamp of the request. -/
def execPing (r : ZcpReq) (data : List Byte) (stamp : BitVec 64) (s : State) : Out :=
  .next (s.zcpStep r { op := 0x0003, change := false } fun s =>
    if data.length > 1024 then .err s .lengthRange (some 1) else
    let t := match s.time.state with | .free => 0 | .sync => 1 | .holdover => 2
    .ok s [data, leBytes 8 stamp.toNat, leBytes 1 (devCode s.devState) ++ leBytes 1 t ++ leBytes 1 s.time.stratum.toNat])

/-! ## Events and flags (R454 to R457) -/

/-- EVENT_REGISTER (R456). -/
def execEventRegister (r : ZcpReq) (l : Listener) (mask : BitVec 32) (s : State) : Out :=
  .next (s.zcpStep r { op := 0x0010, early := true, frozen := true } fun s =>
    match (List.finRange 8).find? fun i => s.zcp.listeners[i].isNone with
    | none => .err s .listenerLimit
    | some i =>
      .ok { s with zcp := { s.zcp with listeners := s.zcp.listeners.set i (some { who := l, mask := mask }) } } [leBytes 1 i.val])

/-- EVENT_DEREGISTER (R456); an index that is not registered is deregistered with no effect (log 28). -/
def execEventDeregister (r : ZcpReq) (ix : Nat) (s : State) : Out :=
  .next (s.zcpStep r { op := 0x0011, early := true, frozen := true, bad := if ix ≥ 8 then some .reservedValue else none } fun s =>
    .ok { s with zcp := { s.zcp with listeners := s.zcp.listeners.setIfInBounds ix none } })

/-- EVENT_READ (R456): the log from a sequence on, oldest first. -/
def execEventRead (r : ZcpReq) (first : BitVec 32) (count : Nat) (s : State) : Out :=
  .next (s.zcpStep r { op := 0x0012, change := false } fun s =>
    if count < 1 || count > 64 then .err s .lengthRange (some 2) else
    .ok s [((s.zcp.log.reverse.filter fun e => (e.seq - first).toNat < 2 ^ 31).take count).flatMap EventRec.bytes])

/-- FLAG_READ (R455): ID, instance and count of each flag that is set. -/
def execFlagRead (r : ZcpReq) (s : State) : Out :=
  .next (s.zcpStep r { op := 0x0720, change := false } fun s =>
    .ok s [(s.zcp.flags.filter fun x => x.count > 0).flatMap fun x =>
      leBytes 2 x.flag.code.toNat ++ leBytes 4 (x.kind * 2 ^ 24 + x.index) ++ leBytes 4 x.count])

/-- FLAG_CLEAR (R454, R455). -/
def execFlagClear (r : ZcpReq) (tgt : Target) (flag : BitVec 16) (s : State) : Out :=
  let ok := ((FlagId.ofCode flag).map fun f => f.kinds.contains tgt.kind.toNat && decide (tgt.index.toNat < kindSize tgt.kind.toNat)).getD false
  .next (s.zcpStep r { op := 0x0721, target := tgt, early := true, frozen := true, bad := if ok then none else some .reservedValue } fun s =>
    match FlagId.ofCode flag with
    | none => .err s .reservedValue
    | some f =>
      let c := s.flagCount f tgt.kind.toNat tgt.index.toNat
      let s := { s with zcp := { s.zcp with
        flags := s.zcp.flags.filter fun x => !(x.flag == f && x.kind == tgt.kind.toNat && x.index == tgt.index.toNat) } }
      .ok s [leBytes 4 c, leBytes 1 0])

/-! ## Lock and source filter (R448, R449) -/

/-- MGMT_LOCK (R448): the holder's identity, and the global time at which the lease ends. -/
def execMgmtLock (r : ZcpReq) (lease : Nat) (s : State) : Out :=
  .next (s.zcpStep r { op := 0x0110, early := true, frozen := true, bad := if lease < 1 || lease > 600 then some .reservedValue else none }
    fun s =>
      let s' := { s with zcp := { s.zcp with lock := some (r.src, s.clock + lease * 1000000000) } }
      let s' := if s.zcp.lock.isNone then s'.event .lock {} [0] else s'
      .ok s' [sourceBytes r.src, leBytes 8 (s.now + BitVec.ofNat 64 (16 * lease * 1000000000)).toNat])

/-- MGMT_UNLOCK (R448): the previous holder. -/
def execMgmtUnlock (r : ZcpReq) (force : Bool) (s : State) : Out :=
  .next (s.zcpStep r { op := 0x0111, early := true, frozen := true, free := force } fun s =>
    match s.zcp.lock with
    | none => if force then .ok s [List.replicate 24 0] else .err s .locked
    | some (h, _) =>
      let s := { s with zcp := { s.zcp with lock := none } }
      if h = r.src then .ok (s.event .lock {} [1]) [sourceBytes h]
      else .ok ((s.setFlag .lockForced 0 0).event .lock {} [3]) [sourceBytes h])

/-- Bytes of a filter entry: its kind, then its fields (log 28). -/
def filterBytes : FilterEntry → List Byte
  | .ip p n => [0] ++ (leBytes 16 p.toNat).reverse ++ leBytes 1 n
  | .fid lo hi => [1] ++ leBytes 2 lo.toNat ++ leBytes 2 hi.toNat
  | .port p => [2] ++ leBytes 1 p.val

/-- SOURCE_FILTER (R449). -/
def execSourceFilter (r : ZcpReq) (es : List FilterEntry) (s : State) : Out :=
  .next (s.zcpStep r { op := 0x0112, early := true, frozen := true } fun s =>
    if !filterAllows es r.src then .err s .filterSelf
    else if es.length > 16 then .err s .lengthRange (some 1)
    else .ok { s with zcp := { s.zcp with filter := es } } [es.flatMap filterBytes])

/-- SOURCE_FILTER_READ (R449). -/
def execSourceFilterRead (r : ZcpReq) (s : State) : Out :=
  .next (s.zcpStep r { op := 0x0113, change := false } fun s => .ok s [s.zcp.filter.flatMap filterBytes])

end Sys2Proof.Machine
end

