-- ==== Sys2Proof/Machine/RouterOps.lean ====
section
/-! DEFINITION. The hub's router: credits, inputs, lookup, choice of an output, arbitration, delivery, and what a port that
goes DOWN leaves behind (R294 to R321). -/

namespace Sys2Proof.Machine

/-- The state that an outcome leaves; the old one where the model stops. -/
def after (o : Out) (s : State) : State := match o with | .next t => t | _ => s

/-! ## Credits (R305, R306) -/

/-- Credits of a sender on a VC (R305). -/
def Port.credits (x : Port) (v : Nat) : Nat :=
  ((x.bv.toArray[v]?).getD 0).toNat - ((x.sent.toArray[v]?).getD 0 - (x.freedSeen.toArray[v]?).getD 0).toNat

/-- Send CREDIT: the running totals FREED (R305). -/
def State.sendCredit (s : State) (p : PortIx) : State :=
  let x := s.ports[p]
  (s.modPort p fun x => { x with freedSent := x.freed, lastCredit := s.clock }).sendControl p
    (lcFlit 1 (x.freed.toList.flatMap fun f => leBytes 2 f.toNat))

/-- Flits leave an input buffer (R305, R315): 64 or more freed on a VC since the last CREDIT send one at once. -/
def State.freeFlits (s : State) (p : Option PortIx) (v n : Nat) (stale : Bool) : State :=
  match p with
  | none => if n = 0 then s else s.modFab fun f => { f with injMoved := f.injMoved.setIfInBounds v s.time.work }
  | some p =>
    if n = 0 then s else
    let s := s.modPort p fun x => { x with
      moved := x.moved.setIfInBounds v s.time.work
      freed := if stale then x.freed else x.freed.setIfInBounds v ((x.freed.toArray[v]?).getD 0 + BitVec.ofNat 16 n) }
    let x := s.ports[p]
    if (List.range 12).any fun v => ((x.freed.toArray[v]?).getD 0 - (x.freedSent.toArray[v]?).getD 0).toNat ≥ 64 then s.sendCredit p else s

/-! ## Inputs -/

/-- The packets at an input of the router: a port's, or the endpoint's own (R309). -/
def State.inputOf (s : State) (p : Option PortIx) : List InPkt :=
  match p with | some p => s.ports[p].input | none => s.fab.inject

/-- Change an input. -/
def State.modInput (s : State) (p : Option PortIx) (f : List InPkt → List InPkt) : State :=
  match p with
  | some p => s.modPort p fun x => { x with input := f x.input }
  | none => s.modFab fun x => { x with inject := f x.inject }

/-- The inputs of the router. -/
def inputs : List (Option PortIx) := none :: (List.finRange 16).map some

/-- Flits of a packet that still lie at its input. -/
def InPkt.left (x : InPkt) : Nat := x.pkt.flits - x.sent

/-- Flits that a VC of a port's input buffer holds for the credits in force (R306). -/
def Port.occupancy (x : Port) (v : Nat) : Nat :=
  ((x.input.filter fun y => y.pkt.vc == v && !y.stale).map InPkt.left).sum +
  ((x.asm.filter fun a => a.1 == v).map fun a => a.2.length).sum

/-- Take a packet out of an input, with all of its flits. -/
def State.dropInput (s : State) (p : Option PortIx) (k : Nat) : State :=
  match (s.inputOf p)[k]? with
  | none => s
  | some x => (s.modInput p fun xs => xs.eraseIdx k).freeFlits p x.pkt.vc x.left x.stale

/-- Change packet k of an input. -/
def State.modAt (s : State) (p : Option PortIx) (k : Nat) (f : InPkt → InPkt) : State :=
  s.modInput p fun xs => match xs[k]? with | some x => xs.set k (f x) | none => xs

/-! ## Lookup (R308, R309, R311, R322) -/

/-- A route entry (R308). -/
def State.route (s : State) (f : BitVec 16) : BitVec 64 := ((s.fab.routes.find? fun r => r.1 == f.toNat).map Prod.snd).getD 0

/-- Bits of a route entry. -/
def rtFld (e : BitVec 64) (hi lo : Nat) : Nat := e.toNat / 2 ^ lo % 2 ^ (hi + 1 - lo)

/-- The usable ports of AMASK (R311). -/
def State.amask (s : State) (e : BitVec 64) : List PortIx :=
  (List.finRange 16).filter fun q => e.getLsbD (48 + q.val) && s.ports[q].usable

/-- The escape port of an entry, where it is valid and usable (R311). -/
def State.eport (s : State) (e : BitVec 64) : Option PortIx :=
  if e.getLsbD 47 then
    let q : PortIx := ⟨rtFld e 46 43 % 16, Nat.mod_lt _ (by decide)⟩
    if s.ports[q].usable then some q else none
  else none

/-- What the lookup of a head decides (R309). -/
inductive Lookup where
  | deliver | refuse (r : Reason) (transit : Bool) | entry (e : BitVec 64)
  deriving DecidableEq, Repr

/-- A port carries a message that is bound to it (R311, R353, R354): a usable port does; a HELD port carries CONTROL to the
peer reported on it, link-local on a link of MFP 1.1 or later. -/
def State.carries (s : State) (q : PortIx) (h : Head) : Bool :=
  let x := s.ports[q]
  x.usable || (x.state == .held && h.ty == 8 &&
    (if h.dst = 0xFFFF then x.rev.toNat ≥ 0x11 else (x.peer.map Identity.fid) == some h.dst))

/-- Look up a head at an input (R309, R322, R353). A message bound to one port, link-local or to the peer of a HELD port, has
no use for the table. -/
def State.lookup (s : State) (p : Option PortIx) (x : InPkt) : Lookup :=
  let h := headOf x.pkt.head
  if s.fid == some h.dst || (p.isSome && h.dst == 0xFFFF && h.ty == 8) then .deliver
  else if h.ty ≠ 1 && x.only.isSome then
    if x.only.any fun q => s.carries q h then .entry 0 else .refuse .noRoute false
  else if p.isSome && !s.fab.transit then .refuse .noRoute true
  else
    let e := s.route h.dst
    if !e.getLsbD 0 || ((s.amask e).isEmpty && (s.eport e).isNone) then .refuse .noRoute false
    else if h.hops ≥ rtFld e 41 36 then .refuse .hopBudget false
    else .entry e

/-! ## Choosing an output (R311 to R314) -/

/-- The bay that feeds a port (R327). -/
def bayOf (p : PortIx) : BayIx := ⟨p.val / 2, by omega⟩

/-- No packet holds an output VC. -/
def State.vcIdle (s : State) (q : PortIx) (v : Nat) : Bool :=
  inputs.all fun p => (s.inputOf p).all fun x => x.out != some (q, v)

/-- An AUDIT covers a VC of its port (R529). -/
def Port.audits (x : Port) (v : Nat) : Bool := (x.audit.map fun a => a.vc == v || a.vc == 15).getD false

/-- An output VC may be allocated (R312): no packet holds it, no AUDIT quiesces it (R529), and its port is not leaving
service (R377). -/
def State.vcFree (s : State) (q : PortIx) (v : Nat) : Bool :=
  s.bays[bayOf q].state != .draining && !s.ports[q].audits v && s.vcIdle q v

/-- The escape channel of a hop (R313). -/
def State.escVc (s : State) (p : Option PortIx) (x : InPkt) (q : PortIx) (dl : Bool) : Nat :=
  let cls := x.pkt.vc / 3
  let same := match p with | none => false | some p => s.ports[p].cfg.dim == s.ports[q].cfg.dim
  if dl then 3 * cls + 2 else if same && x.pkt.vc % 3 = 2 then 3 * cls + 2 else 3 * cls + 1

/-- The adaptive port with the most credits; ties go round from the port taken last (R312). -/
def State.bestPort (s : State) (v : Nat) (qs : List PortIx) : Option PortIx :=
  let key (q : PortIx) : Nat × Nat := (s.ports[q].credits v, (s.fab.rr + 16 - q.val) % 16)
  qs.foldl (fun (a : Option PortIx) q =>
    match a with
    | none => some q
    | some b => if (key b).1 < (key q).1 || ((key b).1 = (key q).1 && (key b).2 < (key q).2) then some q else some b) none

/-- The ports that a packet may take: adaptive candidates, and its escape port with DL (R311). `only` packets leave on
their port; a chunk of R393 whose port is lost leaves on the next usable one. A retransmission keeps off the port it left
while another candidate exists (R318). -/
def State.candidates (s : State) (x : InPkt) (e : BitVec 64) : List PortIx × Option (PortIx × Bool) :=
  let h := headOf x.pkt.head
  let onlyEsc := h.ord || h.esc
  match x.only with
  | some q0 =>
    let q : Option PortIx :=
      if h.ty = 1 then ((List.range 16).map fun i => (⟨(q0.val + i) % 16, Nat.mod_lt _ (by decide)⟩ : PortIx)).find? fun q => s.ports[q].usable
      else if s.carries q0 h then some q0 else none
    match q with
    | none => ([], none)
    | some q => (if onlyEsc then [] else [q], some (q, false))
  | none =>
    let a := if onlyEsc then [] else s.amask e
    let esc := (s.eport e).map fun q => (q, e.getLsbD 42)
    match x.avoid with
    | none => (a, esc)
    | some l =>
      let a' := a.filter fun q => q != l
      let esc' := esc.filter fun q => q.1 != l
      if a'.isEmpty && esc'.isNone then (a, esc) else (a', esc')

/-- The output VC that a head is allocated, if one qualifies (R312, R313). -/
def State.chooseOut (s : State) (p : Option PortIx) (x : InPkt) (e : BitVec 64) : Option (PortIx × Nat) :=
  let (as, esc) := s.candidates x e
  let v := x.pkt.vc / 3 * 3
  match s.bestPort v (as.filter fun q => s.vcFree q v && s.ports[q].credits v ≥ x.pkt.flits) with
  | some q => some (q, v)
  | none => esc.bind fun q =>
    let v := s.escVc p x q.1 q.2
    if s.vcFree q.1 v then some (q.1, v) else none

/-- A REQUEST is marked (R320): the average of its input VC, or a wait of 1 µs. -/
def State.marks (s : State) (p : Option PortIx) (x : InPkt) : Bool :=
  let h := headOf x.pkt.head
  h.ty == 1 && !h.ce &&
  (decide (x.arrived + 1000 ≤ s.time.work) ||
   (match p with
    | none => false
    | some p => decide ((s.ports[p].cfg.ceThresh : Rat) ≤ (s.ports[p].avg.toArray[x.pkt.vc]?).getD 0)))

/-- The port under which a mark at the endpoint's own input counts: the escape port of its entry, else its first candidate,
else F0 (log 30). -/
def State.markPort (s : State) (x : InPkt) : Nat :=
  let (as, esc) := s.candidates x (x.route.getD (s.route (headOf x.pkt.head).dst))
  ((esc.map Prod.fst).or as.head?).elim 0 Fin.val

/-- Set CE of packet k of an input, and count it (R320). -/
def State.markCe (s : State) (p : Option PortIx) (k : Nat) : State :=
  let at_ := match p with | some p => p.val | none => (((s.inputOf none)[k]?).map s.markPort).getD 0
  (s.modAt p k fun x => { x with pkt := { x.pkt with head := markHead x.pkt.head 74 } }).bump .fabPortCeMarked at_

/-! ## Arbitration and transmission (R316, R333, R338) -/

/-- Slots in use in a direction (R333). -/
def PortDir.slots (d : PortDir) : Nat := ((List.range 8).filter fun k => !d.skip.getLsbD k).length

/-- Packets allocated to an output that have a flit to send and credit for it: input, place, VC. -/
def State.ready (s : State) (q : PortIx) : List (Option PortIx × Nat × Nat) :=
  inputs.flatMap fun p => ((s.inputOf p).zipIdx).filterMap fun (x, k) =>
    match x.out with
    | some (o, v) => if o = q && x.sent < x.pkt.flits && s.ports[q].credits v ≥ 1 then some (p, k, v) else none
    | none => none

/-- The packet whose flit goes next (R316): deficit round robin over classes, escape VCs before the adaptive one. -/
def State.nextFlit (s : State) (q : PortIx) : Option ((Option PortIx × Nat × Nat) × Nat × Nat) :=
  let rs := s.ready q
  let x := s.ports[q]
  let has (c : Nat) : Bool := rs.any fun r => r.2.2 / 3 == c
  let turn := if x.deficit > 0 && has x.turn then some (x.turn, x.deficit) else
    ((List.range 4).map fun i => (x.turn + 1 + i) % 4).find? has |>.map fun c => (c, (x.cfg.wclass.toArray[c]?).getD 1)
  turn.bind fun (c, d) =>
    (([3 * c + 1, 3 * c + 2, 3 * c].filterMap fun v => rs.find? fun r => r.2.2 == v).head?).map fun r => (r, c, d - 1)

/-- Flit i of a packet: its head, then its payload. -/
def Pkt.flit (k : Pkt) (i : Nat) : BitVec 256 := if i = 0 then k.head else (k.payload[i - 1]?).getD 0

/-- The tag of a flit (R294). -/
def flitTag (v : Nat) (head tail : Bool) : BitVec 6 := BitVec.ofNat 4 v ++ BitVec.ofBool head ++ BitVec.ofBool tail

/-- Send one flit of a packet; the head goes out as the router forwards it (R294, R301, R305, R309, R337). -/
def State.sendFlit (s : State) (q : PortIx) (p : Option PortIx) (k v : Nat) : State :=
  match (s.inputOf p)[k]? with
  | none => s
  | some x =>
    let last := x.sent + 1 == x.pkt.flits
    let pkt := if x.sent = 0 then { x.pkt with head := forwardHead x.pkt.head (v % 3 != 0) } else x.pkt
    let out := { pkt with vc := v }
    let s := (s.handOver q (flitTag v (x.sent == 0) last) (pkt.flit x.sent)).emit (.flits q v (x.sent == 0) last [pkt.flit x.sent])
    let s := s.modPort q fun y => { y with
      sent := y.sent.setIfInBounds v ((y.sent.toArray[v]?).getD 0 + 1)
      unacked := (if x.sent = 0 then y.unacked else ((y.unacked.reverse).eraseP fun u => u.2 == out).reverse) ++ [(y.txFsn, out)] }
    let s := (s.bump .fabPortTxFlits q.val).freeFlits p x.pkt.vc 1 x.stale
    if last then s.modInput p fun xs => xs.eraseIdx k else s.modAt p k fun x => { x with pkt := pkt, sent := x.sent + 1 }

/-- Send up to n flits. -/
def State.serveN (q : PortIx) : Nat → State → State
  | 0, s => s
  | n + 1, s =>
    match s.nextFlit q with
    | none => s
    | some ((p, k, v), c, d) => State.serveN q n ((s.modPort q fun y => { y with turn := c, deficit := d }).sendFlit q p k v)

/-- Flits that a frame carries (R333). -/
def Port.frameFlits (x : Port) : Nat := 10 * x.tx.slots

/-- The retry buffer takes the next frame: it is resent, or there is room for it among the whole frames that 4,096 flits
hold (R337, R338). -/
def Port.room (x : Port) : Bool :=
  let after := (x.frameFsn - x.acked).toNat + x.frameFlits
  decide (after ≤ (x.framed - x.acked).toNat) || decide (after ≤ 4096 / x.frameFlits * x.frameFlits)

/-- An output hands over what the next frame takes (R316), while the retry buffer has room (R333, R337, R338); nothing during
a freeze (R509). -/
def State.serve (s : State) (q : PortIx) : State :=
  let x := s.ports[q]
  if s.dbg.frozen || !(x.usable || x.state == .held) || x.tx.slots = 0 || !x.room then s
  else State.serveN q (x.frameFlits - (x.txFsn - x.frameFsn).toNat) s

/-! ## Delivery to the hub (R309) -/

/-- Deliver a packet to the endpoint, the control processor or the collective engine. -/
def State.deliver (s : State) (p : Option PortIx) (k : Pkt) : State :=
  let h := headOf k.head
  let bs := payloadOf h k.payload
  if h.ty = 1 then s.request (requestOf h bs)
  else if h.ty = 2 then s.getData (BitVec.ofNat 24 h.seq) h.ce bs
  else if h.ty = 3 then s.atomicAnswer (BitVec.ofNat 24 h.seq) h.ce (BitVec.ofNat 64 (h.tf 63 0))
  else if h.ty = 4 then after (execReceipt ((wordsOf 8 bs).map receiptOf) s) s
  else if h.ty = 5 then (wordsOf 8 bs).foldl (fun s v => s.nakEntry (BitVec.ofNat 24 (v / 2 ^ 40)) (BitVec.ofNat 8 (v / 2 ^ 32))) s
  else if h.ty = 6 then (wordsOf 4 bs).foldl (fun s v => s.lostSeq (BitVec.ofNat 24 (v / 2 ^ 8))) s
  else if h.ty = 7 then s.takeLow h.src (BitVec.ofNat 24 (h.tf 23 0))
  else if h.ty = 8 then
    match p with
    | none => s
    | some p => s.zcpPacketIn (if h.dst = 0xFFFF then .linkLocal p else .mfp p h.src) bs
  else if h.ty = 9 then after (execCongMap h.src bs s) s
  else if h.ty = 10 then
    match p with
    | none => s
    | some p =>
      let key : EscrowKey := ⟨BitVec.ofNat 12 (h.tf 127 116), BitVec.ofNat 16 (h.tf 111 96), BitVec.ofNat 32 (h.tf 95 64)⟩
      let eop := h.tf 115 112
      if eop = 2 then after (execGrant p key (h.tf 23 16) (h.tf 1 1 == 1) s) s
      else if eop = 3 then after (execRefuse p key (BitVec.ofNat 8 (h.tf 11 4)) s) s
      else if eop = 5 then after (execResult p key (BitVec.ofNat 8 (h.tf 31 24)) (h.tf 15 4) bs s) s
      else if eop = 7 then after (execReleased p key s) s
      else s
  else s

/-! ## Routing one head (R302, R309, R312) -/

/-- What R302 finds wrong with a packet at an input. -/
inductive HeadFault where | unreadable | malformed
  deriving DecidableEq, Repr

/-- The checks of R302, in order. -/
def headFault (k : Pkt) : Option HeadFault :=
  let h := headOf k.head
  if !headCrcOk k.head then some .unreadable
  else if !(typeClassOk h.ty h.cls && h.cls == k.vc / 3 && h.len ≤ 256) || k.flits != h.flits then some .malformed
  else none

/-- Refuse a packet at the router: NAK to its source, straight to the module's own transport, or a discard for a message
other than REQUEST (R302, R309, R322). -/
def State.routerNak (s : State) (p : Option PortIx) (h : Head) (r : Reason) (other : CtrId) : State :=
  if h.ty ≠ 1 then s.bump other
  else if p.isNone then (s.bump .fabNak r.code.toNat).nakEntry (BitVec.ofNat 24 h.seq) r.code
  else s.nak h.src (BitVec.ofNat 24 h.seq) r

/-- The place of an input in WIN: its port, 16 for the endpoint (R316). -/
def winIx (p : Option PortIx) : Nat := match p with | some p => p.val | none => 16

/-- Which of the inputs that compete for an output VC its weighted round robin serves (R316): the one whose turn it is
while it has allocations left, else the next after it. -/
def State.winner (s : State) (q : PortIx) (v : Nat) (ins : List Nat) : Option Nat :=
  let (t, left) := (s.ports[q].winTurn.toArray[v]?).getD (16, 0)
  if left > 0 && ins.contains t then some t
  else ((List.range 17).map fun i => (t + 1 + i) % 17).find? ins.contains

/-- An input takes an output VC: its turn goes on, or begins with its weight (R316). -/
def State.takeTurn (s : State) (q : PortIx) (v : Nat) (p : Option PortIx) : State :=
  let i := winIx p
  s.modPort q fun x =>
    let (t, left) := (x.winTurn.toArray[v]?).getD (16, 0)
    let left := if t = i && left > 0 then left else (x.cfg.win.toArray[i]?).getD 1
    { x with winTurn := x.winTurn.setIfInBounds v (i, left - 1) }

/-- Route packet k of an input (R302, R309 to R314). -/
def State.routeOne (s : State) (p : Option PortIx) (k : Nat) : State :=
  match (s.inputOf p)[k]? with
  | none => s
  | some x =>
    if x.out.isSome then s else
    match headFault x.pkt with
    | some .unreadable => (s.dropInput p k).bump .fabDrop 0x23
    | some .malformed => (s.dropInput p k).routerNak p (headOf x.pkt.head) .malformed .fabRRspMalformed
    | none =>
      let s := if s.marks p x then s.markCe p k else s
      let x := ((s.inputOf p)[k]?).getD x
      let h := headOf x.pkt.head
      let l : Lookup := match x.route with | some e => .entry e | none => s.lookup p x
      match l with
      | .deliver => (s.dropInput p k).deliver p x.pkt
      | .refuse r transit =>
        let s := if transit then s.bump .fabRTransitRefused else s
        (s.dropInput p k).routerNak p h r .fabRRspUnroutable
      | .entry e =>
        match s.chooseOut p x e with
        | none => s.modAt p k fun x => { x with route := if x.only.isSome then none else some e }
        | some (q, v) =>
          let s := (s.modAt p k fun x => { x with route := some e, out := some (q, v) }).takeTurn q v p
          let s := if p.isNone && h.ty == 1 then s.modOrt (BitVec.ofNat 24 h.seq) fun e => { e with port := some q } else s
          ((s.modFab fun f => { f with rr := q.val }).bump (if v % 3 != 0 then .fabPortEscape else .fabPortAdaptive) q.val).serve q

/-- Places of the packets that may be routed next on a VC: the front of a port's VC; at the endpoint, which sorts its
packets by output, every packet that holds none. -/
def State.fronts (s : State) (p : Option PortIx) (v : Nat) : List Nat :=
  let ks := ((s.inputOf p).zipIdx).filterMap fun (x, k) => if x.pkt.vc = v then some (k, x.out.isNone) else none
  match p with
  | some _ => (ks.take 1).filterMap fun k => if k.2 then some k.1 else none
  | none => ks.filterMap fun k => if k.2 then some k.1 else none

/-- The output VC that packet k of an input would be allocated now (R309, R312). -/
def State.offer (s : State) (p : Option PortIx) (k : Nat) : Option (PortIx × Nat) :=
  ((s.inputOf p)[k]?).bind fun x =>
    if x.out.isSome || (headFault x.pkt).isSome then none else
    match (match x.route with | some e => Lookup.entry e | none => s.lookup p x) with
    | .entry e => s.chooseOut p x e
    | _ => none

/-- The heads of other inputs that compete for an output VC: one for each input (R316). -/
def State.rivals (s : State) (p : Option PortIx) (o : PortIx × Nat) : List (Option PortIx × Nat) :=
  (inputs.filter fun q => q != p).filterMap fun q =>
    ((((List.range 3).map fun c => o.2 / 3 * 3 + c).flatMap (s.fronts q)).find? fun k => s.offer q k == some o).map fun k => (q, k)

/-- Route packet k of an input. Where heads of other inputs compete for the output VC that it would get, they go first as the
weighted round robin of the output says (R316). -/
def State.contend (p : Option PortIx) (k : Nat) : Nat → State → State
  | 0, s => s.routeOne p k
  | f + 1, s =>
    match s.offer p k with
    | none => s.routeOne p k
    | some o =>
      let rs := s.rivals p o
      match rs.find? fun r => some (winIx r.1) == s.winner o.1 o.2 (winIx p :: rs.map fun r => winIx r.1) with
      | some r => State.contend p k f (s.routeOne r.1 r.2)
      | none => s.routeOne p k

/-- Route the front of a VC; at the endpoint the first packet that can leave. -/
def State.routeVc (s : State) (p : Option PortIx) (v : Nat) : State :=
  (s.fronts p v).foldl (fun (a : State × Bool) k =>
    if a.2 then a else
    let n := (a.1.inputOf p).length
    let t := a.1.contend p k 17
    let moved := (t.inputOf p).length != n || (((t.inputOf p)[k]?).map fun x => x.out.isSome).getD true
    (t, moved)) (s, false) |>.1

/-! ## Arrival (R302, R311, R512) -/

/-- A HELD port delivers a CONTROL message for this module only (R311, R353, R354). -/
def State.heldTakes (s : State) (p : PortIx) (k : Pkt) : Bool :=
  let h := headOf k.head
  h.ty == 8 && (s.fid == some h.dst || (h.dst == 0xFFFF && s.ports[p].rev.toNat ≥ 0x11))

/-- Count flits in flight at a freeze (R512). -/
def addInFlight (p v n : Nat) : List (Nat × Nat × Nat) → List (Nat × Nat × Nat)
  | [] => [(p, v, n)]
  | x :: xs => if x.1 = p && x.2.1 = v then (p, v, x.2.2 + n) :: xs else x :: addInFlight p v n xs

/-- A packet flit arrives on a port (R294, R512). -/
def State.countRxFlits (s : State) (p : PortIx) (v n : Nat) : State :=
  let s := (s.bump .fabPortRxFlits p.val 0 n).modPort p fun x => { x with
    received := x.received.setIfInBounds v ((x.received.toArray[v]?).getD 0 + BitVec.ofNat 16 n) }
  if s.dbg.frozen then { s with dbg := { s.dbg with inFlight := addInFlight p.val v n s.dbg.inFlight } } else s

/-- A packet has arrived whole on a port (R302, R309, R311): it is routed at once where it is the front of its VC. -/
def State.arrivePkt (s : State) (p : PortIx) (k : Pkt) : State :=
  let x := s.ports[p]
  if x.state == .held && !s.heldTakes p k then (s.freeFlits (some p) k.vc k.flits false).bump .fabPortHeldDiscarded p.val
  else
    let front := x.input.all fun y => y.pkt.vc != k.vc
    let s := s.modPort p fun x => { x with input := x.input ++ [{ pkt := k, arrived := s.time.work }] }
    if s.dbg.frozen || !front then s else s.contend (some p) x.input.length 17

/-! ## Link loss at the router (R317, R318) -/

/-- Packets that a port's loss discards: those with flits sent there and not acknowledged (R317). -/
def State.lostPackets (s : State) (q : PortIx) : List Pkt :=
  let un := s.ports[q].unacked.map Prod.snd
  let part := inputs.flatMap fun p => (s.inputOf p).filterMap fun x =>
    match x.out with
    | some (o, v) => if o = q && x.sent > 0 && !un.contains { x.pkt with vc := v } then some x.pkt else none
    | none => none
  un ++ part

/-- Name the lost SEQs of one source: to the module's own transport, or with LOST messages of 64 (R317). -/
def State.nameLost (s : State) (q : PortIx) (src : BitVec 16) (seqs : List Nat) : State :=
  let s := s.bump .fabRLostNamed 0 0 seqs.length
  if s.fid == some src then seqs.foldl (fun s x => s.lostSeq (BitVec.ofNat 24 x)) s else
  (List.range (ceilDiv seqs.length 64)).foldl (fun s k =>
    s.message src 6 1 ((s.fid.getD 0xFFFF).toNat * 2 ^ 112 + q.val * 2 ^ 108)
      (((seqs.drop (64 * k)).take 64).flatMap fun x => leBytes 4 (x * 2 ^ 8))) s

/-- The router's steps when a port leaves ACTIVE, DEGRADED or HELD (R317, R318). -/
def State.routerDown (s : State) (q : PortIx) : State :=
  let lost := s.lostPackets q
  let s := inputs.foldl (fun s p =>
    let gone := (s.inputOf p).filter fun x => match x.out with | some (o, _) => o == q && x.sent > 0 | none => false
    let s := gone.foldl (fun s x => s.freeFlits p x.pkt.vc x.left x.stale) s
    s.modInput p fun xs => (xs.filter fun x => match x.out with | some (o, _) => !(o == q && x.sent > 0) | none => true).map fun x =>
      match x.out with | some (o, _) => if o = q then { x with out := none, route := none } else x | none => x) s
  let reqs := (lost.map fun k => headOf k.head).filter fun h => h.ty == 1
  let srcs := (reqs.map Head.src).eraseDups
  let s := s.modPort q fun x => { x with unacked := [] }
  let s := srcs.foldl (fun s src => s.nameLost q src ((reqs.filter fun h => h.src == src).map Head.seq)) s
  s.bump .fabPortLostResponses q.val 0 (lost.length - reqs.length)

end Sys2Proof.Machine
end

