-- ==== Sys2Proof/Machine/Rs.lean ====
section
/-! DEFINITION. The forward error correction of a lane (R332): RS(272,256) over GF(2¹⁰). The spec gives the field and the
code's size; the first of the 16 consecutive roots of its generator is Config's, and so is with it the direction in which
symbols count (log 42). Polynomials are lists of coefficients, lowest first. -/

namespace Sys2Proof.Machine

/-- Twice an element: times α, modulo x¹⁰ + x³ + 1. -/
def gfTwice (a : Nat) : Nat := let d := 2 * a; if d < 1024 then d else d ^^^ 0x409

/-- Product in GF(2¹⁰). -/
def gfMul (a b : Nat) : Nat :=
  if b = 0 || a = 0 then 0
  else (List.range 10).foldl (fun acc i => gfTwice acc ^^^ (if b.testBit (9 - i) then a else 0)) 0

/-- α to a power. -/
def gfExp (n : Nat) : Nat := (List.range (n % 1023)).foldl (fun a _ => gfTwice a) 1

/-- Inverse in GF(2¹⁰): the power 1022. -/
def gfInv (a : Nat) : Nat :=
  ((List.range 9).foldl (fun (p : Nat × Nat) _ => let q := gfMul p.1 p.1; (q, gfMul p.2 q)) (a, 1)).2

/-- Sum of two polynomials. -/
def polyAdd : List Nat → List Nat → List Nat
  | [], q => q
  | p, [] => p
  | a :: p, b :: q => (a ^^^ b) :: polyAdd p q

/-- A polynomial times an element. -/
def polyScale (k : Nat) (p : List Nat) : List Nat := p.map fun a => gfMul a k

/-- Product of two polynomials. -/
def polyMul : List Nat → List Nat → List Nat
  | [], _ => []
  | a :: p, q => polyAdd (polyScale a q) (0 :: polyMul p q)

/-- The value of a polynomial. -/
def polyAt (p : List Nat) (x : Nat) : Nat := p.foldr (fun a acc => a ^^^ gfMul x acc) 0

/-- The generator whose roots are α^b to α^(b + 15). -/
def rsGenerator (b : Nat) : List Nat := (List.range 16).foldl (fun g j => polyMul [gfExp (b + j), 1] g) [1]

/-- The 16 check symbols of 256 data symbols, highest coefficient first: the remainder by the generator. -/
def rsChecks (b : Nat) (data : List Nat) : List Nat :=
  let g := (rsGenerator b).take 16
  (data.foldl (fun (r : List Nat) d => polyAdd (0 :: r.take 15) (polyScale (d ^^^ (r[15]?).getD 0) g)) (List.replicate 16 0)).reverse

/-- The 16 syndromes of the symbols of a word, highest coefficient first. -/
def rsSyndromes (b : Nat) (w : List Nat) : List Nat :=
  (List.range 16).map fun j => let x := gfExp (b + j); w.foldl (fun acc d => gfMul x acc ^^^ d) 0

/-- The state of the search for the error locator: the locator, the one before its last change of length, the discrepancy
met there, the length, and the steps since. -/
structure Locator where
  now : List Nat := [1]
  old : List Nat := [1]
  disc : Nat := 1
  len : Nat := 0
  gap : Nat := 1
  deriving DecidableEq, Repr

/-- One step of the search (Berlekamp and Massey), with the syndromes so far, latest first. -/
def Locator.next (l : Locator) (n : Nat) (seen : List Nat) : Locator :=
  let d := ((l.now.zip seen).take (l.len + 1)).foldl (fun a p => a ^^^ gfMul p.1 p.2) 0
  if d = 0 then { l with gap := l.gap + 1 } else
  let now := polyAdd l.now (List.replicate l.gap 0 ++ polyScale (gfMul d (gfInv l.disc)) l.old)
  if 2 * l.len ≤ n then { now := now, old := l.now, disc := d, len := n + 1 - l.len, gap := 1 }
  else { l with now := now, gap := l.gap + 1 }

/-- The error locator of 16 syndromes. -/
def locatorOf (syn : List Nat) : Locator :=
  ((List.range syn.length).foldl (fun (l : Locator) n => l.next n (syn.take (n + 1)).reverse) {})

/-- The places of a word, as powers of α, at which the locator finds an error, each with its value (Forney). -/
def rsErrors (b : Nat) (syn : List Nat) (l : Locator) : List (Nat × Nat) :=
  let omega := (polyMul syn l.now).take 16
  let slope := l.now.zipIdx.tail.map fun p => if p.2 % 2 = 1 then p.1 else 0
  ((List.range 272).filter fun i => polyAt l.now (gfExp (1023 - i)) == 0).map fun i =>
    let x := gfExp (1023 - i)
    (i, gfMul (gfMul (gfExp (i + 1023 * b - i * b)) (polyAt omega x)) (gfInv (polyAt slope x)))

/-- Decode a received word of 272 symbols, highest coefficient first: the codeword at most eight symbols away and how many
were corrected, or none (R332). -/
def rsDecode (b : Nat) (w : List Nat) : Option (List Nat × Nat) :=
  let syn := rsSyndromes b w
  if syn.all (· == 0) then some (w, 0) else
  let l := locatorOf syn
  let es := rsErrors b syn l
  if l.len > 8 || es.length ≠ l.len then none else
  let c := w.zipIdx.map fun p => match es.find? fun e => e.1 + p.2 == 271 with | some e => p.1 ^^^ e.2 | none => p.1
  if (rsSyndromes b c).all (· == 0) then some (c, es.length) else none

end Sys2Proof.Machine
end

