-- ==== Sys2Proof/Machine/Frames.lean ====
section
/-! DEFINITION. Frames of lane blocks: how the transmitter stripes, fills, keeps and resends them, and what a receiver
reads from one (R332 to R334, R337, R338). -/

namespace Sys2Proof.Machine

/-! ## Lane blocks (R332, R334) -/

/-- Ten-bit symbols of a number, the lowest first. -/
def symbolsOf (n w : Nat) : List Nat := (List.range n).map fun i => w / 2 ^ (10 * i) % 1024

/-- The number that pieces of a width make, the lowest first. -/
def pack (width : Nat) (xs : List Nat) : Nat := xs.foldr (fun x acc => x % 2 ^ width + 2 ^ width * acc) 0

/-- The CRC of a lane block: over its ten flits in order, then bits [169:32] of the overhead (R334). -/
def laneCrc (fs : List (BitVec 256)) (upper : BitVec 138) : BitVec 32 :=
  crc32Bits (bitsOf (fs.flatMap fun f => leBytes 32 f.toNat) ++ (List.range 138).map fun k => upper.getLsbD (137 - k))

/-- The lane block of a lane (R332, R334). -/
def laneBlock (fsn : BitVec 16) (k : LaneIx) (slot : BitVec 4) (skip : BitVec 8) (fs : List (BitVec 6 × BitVec 256)) : LaneBlock :=
  let data := pack 256 (fs.map fun f => f.2.toNat)
  let upper : BitVec 138 := 0x33C#10 ++ fsn ++ BitVec.ofNat 4 k.val ++ slot ++ skip ++ 0#36 ++ BitVec.ofNat 60 (pack 6 (fs.map fun f => f.1.toNat))
  { data := BitVec.ofNat 2560 data
    check := BitVec.ofNat 160 (pack 10 (rsChecks Config.rsFirstRoot (symbolsOf 256 data)))
    ovh := upper ++ laneCrc (fs.map Prod.snd) upper }

/-- The MARKER of a lane block. -/
def blockMarker (b : LaneBlock) : BitVec 10 := b.ovh.extractLsb' 160 10

/-- The data of a lane block after FEC and the symbols corrected; the data as received where the codeword is uncorrectable
(R332). -/
def blockData (b : LaneBlock) : Nat × Option Nat :=
  match rsDecode Config.rsFirstRoot (symbolsOf 256 b.data.toNat ++ symbolsOf 16 b.check.toNat) with
  | some (c, n) => (pack 10 (c.take 256), some n)
  | none => (b.data.toNat, none)

/-- What a lane block carries, and whether its CRC is right (R334). -/
def blockSlice (b : LaneBlock) (data : Nat) : Slice × Bool :=
  let fs := (List.range 10).map fun i => (b.ovh.extractLsb' (32 + 6 * i) 6, BitVec.ofNat 256 (data / 2 ^ (256 * i)))
  ({ fsn := b.ovh.extractLsb' 144 16, wave := b.ovh.extractLsb' 140 4, slot := b.ovh.extractLsb' 136 4, skip := b.ovh.extractLsb' 128 8, flits := fs },
    laneCrc (fs.map Prod.snd) (b.ovh.extractLsb' 32 138) == b.ovh.extractLsb' 0 32)

/-- A lane meets a MARKER or misses it: four in a row gain frame alignment, four misses in a row lose it (R334). -/
def Lane.mark (l : Lane) (ok : Bool) : Lane :=
  if ok then { l with markers := min 4 (l.markers + 1), misses := 0 }
  else if l.markers < 4 then { l with markers := 0 }
  else if l.misses + 1 < 4 then { l with misses := l.misses + 1 }
  else { l with markers := 0, misses := 0 }

/-! ## The transmitter (R333, R337, R338) -/

/-- The slot that a lane carries. -/
def PortDir.slotOf (d : PortDir) (k : LaneIx) : Option Nat := (List.range 8).find? fun i => (d.map.toArray[i]?).join == some k

/-- Slots in use, in ascending order (R333). -/
def PortDir.used (d : PortDir) : List Nat := (List.range 8).filter fun i => !d.skip.getLsbD i

/-- The idle flit with its tag (R333). -/
def idleFlit : BitVec 6 × BitVec 256 := (0x3C, 0)

/-- The flits of a frame that its r-th used slot of m carries (R333). -/
def stripe (fs : List (BitVec 6 × BitVec 256)) (m r : Nat) : List (BitVec 6 × BitVec 256) :=
  (List.range 10).map fun c => (fs[c * m + r]?).getD idleFlit

/-- The lane blocks of a frame: each data lane its slot, the standby lane none (R333, R339). -/
def PortDir.blocks (d : PortDir) (fsn : BitVec 16) (fs : List (BitVec 6 × BitVec 256)) : List (LaneIx × LaneBlock) :=
  let idle := List.replicate 10 idleFlit
  (List.finRange 9).filterMap fun k =>
    match d.lanes[k].state, d.slotOf k with
    | .standby, _ => some (k, laneBlock fsn k 15 d.skip idle)
    | .data, some i =>
      some (k, laneBlock fsn k (BitVec.ofNat 4 i) d.skip (match d.used.findIdx? (· == i) with | some r => stripe fs d.used.length r | none => idle))
    | _, _ => none

/-- The time of a frame in tenths of a ns: 13.6 ns, twice that at 100 Gb/s (R329, R332). -/
def Port.frameTime (x : Port) : Nat := if x.rate100 then 272 else 136

/-- A port whose next frame has been sent: idle flits fill it, and the retry buffer keeps it (R333, R337). -/
def Port.sent1 (x : Port) (clock : Nat) : Port :=
  let fill := x.frameFlits - (x.txFsn - x.frameFsn).toNat
  let next := x.frameFsn + BitVec.ofNat 16 x.frameFlits
  { x with
    retry := x.retry ++ List.replicate fill idleFlit, txFsn := x.txFsn + BitVec.ofNat 16 fill, frameFsn := next
    framed := if (next - x.framed).toNat < 2 ^ 15 then next else x.framed
    frameAt := max (x.frameAt + x.frameTime) (if 10 * clock < x.frameAt + x.frameTime then 0 else 10 * clock + x.frameTime) }

/-- Send the next frame of a port (R333). -/
def State.sendFrame (s : State) (q : PortIx) : State :=
  let x := s.ports[q]
  let y := x.sent1 s.clock
  let fs := (y.retry.drop (x.frameFsn - x.acked).toNat).take x.frameFlits
  (s.modPort q fun _ => y).emit (.frame q (x.tx.blocks x.frameFsn fs))

/-- A port past FEC sends a frame in every frame time, freeze or not, while the retry buffer has room (R332, R333, R338,
R346, R356). -/
def State.tickFrame (s : State) (q : PortIx) : State :=
  let x := s.ports[q]
  if x.pastFec && decide (0 < x.tx.slots) && decide (x.frameAt ≤ 10 * s.clock) && x.room then (s.serve q).sendFrame q else s

/-- Framing starts, or starts afresh: the retry buffer is empty and FSN 0 comes next (R346). -/
def Port.startFraming (x : Port) : Port :=
  { x with retry := [], txFsn := 0, acked := 0, framed := 0, frameFsn := 0 }

end Sys2Proof.Machine
end

