-- ==== Sys2Proof/Machine/LinkOps.lean ====
section
/-! DEFINITION. The optical links: going down, training, the cabling check, frames and link retry, and lane swaps
(R327 to R357). Timers of the link layer count the clock, freeze or not (R356, R510). -/

namespace Sys2Proof.Machine

/-! ## The cabling plan (R350 to R352) -/

/-- The plan's entry of a port (R351). -/
def planEntry (plan : List Byte) (p : PortIx) : List Byte := (plan.drop (64 + 48 * p.val)).take 48

/-- A field of bytes. -/
def bfld (bs : List Byte) (a n : Nat) : Nat := leNat ((bs.drop a).take n)

/-- MODE of a port in the plan in force; ANY where none is loaded (R351). -/
def State.planMode (s : State) (p : PortIx) : Nat := (s.fab.plan.map fun l => bfld (planEntry l p) 0 1).getD 0

/-- A serial number as the 24 bytes of the identity record. -/
def serial24 (bs : List Byte) : List Byte := (bs ++ List.replicate 24 0).take 24

/-- The identity record that the module sends on a port (R350). -/
def State.ownIdentity (s : State) (p : PortIx) : Identity :=
  { serial := serial24 Config.serial, port := BitVec.ofNat 8 p.val, fid := s.fid.getD 0xFFFF
    planId := BitVec.ofNat 32 ((s.fab.plan.map fun l => bfld l 0 4).getD 0) }

/-- The outcome of the cabling check (R352), by its code. -/
def cablingOutcome (plan : Option (List Byte)) (p : PortIx) (id : Identity) (rev : Nat) : Nat :=
  match plan with
  | none => 6
  | some l =>
    let e := planEntry l p
    let mode := bfld e 0 1
    if mode = 0 then 0 else if mode = 2 then 5
    else if (e.drop 8).take 24 ≠ serial24 id.serial || bfld e 1 1 ≠ id.kind.toNat then 1
    else if bfld e 2 1 ≠ id.port.toNat || (bfld e 4 2 ≠ 0xFFFF && bfld e 4 2 ≠ id.fid.toNat) then 2
    else if rev < bfld e 3 1 then 3
    else if (BitVec.ofNat 32 (bfld e 32 4)) &&& ~~~id.caps ≠ 0 then 4 else 0

/-- A port observes the peer that another port's entry expects. -/
def State.observes (s : State) (p q : PortIx) : Bool :=
  match s.ports[p].peer, s.fab.plan with
  | some id, some l =>
    let e := planEntry l q
    bfld e 0 1 == 1 && (e.drop 8).take 24 == serial24 id.serial && bfld e 1 1 == id.kind.toNat && bfld e 2 1 == id.port.toNat
  | _, _ => false

/-- The port with which a port's cable is swapped (R352). -/
def State.swappedWith (s : State) (p : PortIx) : Option PortIx :=
  let bad (q : PortIx) : Bool := s.ports[q].outcome == 1 || s.ports[q].outcome == 2
  if !bad p then none else (List.finRange 16).find? fun q => q != p && bad q && s.observes p q && s.observes q p

/-- Compare the observed identity of a port with the plan (R352): a mismatch sets FAB_CABLING, posts CABLING and counts. -/
def State.checkCabling (s : State) (p : PortIx) : State :=
  match s.ports[p].peer with
  | none => s
  | some id =>
    let o := cablingOutcome s.fab.plan p id s.ports[p].rev.toNat
    let s := s.modPort p fun x => { x with outcome := o }
    if o = 0 || o = 6 then s else
    let s := (s.bump .fabPortHeld p.val).setFlag .fabCabling 4 p.val
    s.event .cabling ⟨4, BitVec.ofNat 24 p.val⟩ (leBytes 1 o ++ leBytes 1 (((s.swappedWith p).map fun q => q.val).getD 0xFF))

/-! ## Training starts, and a port goes DOWN (R346, R349) -/

/-- Wavelengths that show light. -/
def lit (w : BitVec 9) : Nat := ((List.range 9).filter w.getLsbD).length

/-- A DOWN port's cause has cleared (R346, R349, R356): its bay is ACTIVE, it is enabled, the peer is present, and no wait
is left. -/
def State.mayTrain (s : State) (p : PortIx) : Bool :=
  let x := s.ports[p]
  s.live && !s.dbg.frozen && x.state == .down && s.bays[bayOf p].state == .active && x.cfg.enabled && s.planMode p != 3 &&
  lit x.waves ≥ 4 && x.retryAt ≤ s.clock

/-- Enter a step of training and announce it (R346). -/
def State.enterStep (s : State) (p : PortIx) (k : Nat) : State :=
  let s := s.modPort p fun x => { x with step := k, stepT := s.clock }
  if k ≥ 4 then s.emit (.training p k (s.ownIdentity p)) else s

/-- A lane at the start of LOCK: a wavelength whose laser is FAILED is excused from LIGHT and FAILED here (R375). -/
def startLane (dead : Bool) : Lane := if dead then { state := .failed } else { state := .locking }

/-- Start training (R346): the own comb and the peer's light are there, so LIGHT ends and the rings lock. -/
def State.startTraining (s : State) (p : PortIx) : State :=
  let dead (k : LaneIx) : Bool := (s.bays[bayOf p].lasers[k]).failed
  ((s.modPort p fun x => { x with
    state := .training, peerStep := 0, peer := none, outcome := 6
    tx := { lanes := Vector.ofFn fun k => startLane (dead k) }
    rx := { lanes := Vector.ofFn fun _ => startLane false } }).bump .fabPortTrainings p.val).enterStep p 2

/-- Train where the cause has cleared. -/
def State.tryTrain (s : State) (p : PortIx) : State := if s.mayTrain p then s.startTraining p else s

/-- The state of a lane of a port that is DOWN (R339). -/
def downLane (light : Bool) (l : Lane) : Lane :=
  if l.state = .failed then l else { state := if light then .locking else .dark }

/-- When training may resume by itself (R349): waits of a second after three consecutive timeouts, and for REV_MISMATCH. -/
def resumeAt (clock : Nat) (r : DownReason) (timeouts : Nat) : Nat :=
  match r with
  | .revMismatch => clock + 1000000000
  | .trainTimeout => if timeouts ≥ 3 then clock + 1000000000 else clock
  | .tooFewLanes => if timeouts ≥ 3 then clock + 1000000000 else clock
  | _ => clock

/-- Every flit sent on a VC has been acknowledged, and a CREDIT has come since (R529). -/
def State.vcQuiet (s : State) (p : PortIx) (v : Nat) : Bool :=
  let x := s.ports[p]
  s.vcIdle p v && x.unacked.all (fun u => u.2.vc != v) && x.creditSince && x.tx.swap.isNone

/-- RESULT of one VC (R529, R530): 0 BALANCED, 1 TX_MISMATCH, 2 RX_MISMATCH. -/
def Port.balance (x : Port) (v : Nat) : Nat :=
  let at_ (w : Vector (BitVec 16) 12) : BitVec 16 := (w.toArray[v]?).getD 0
  if (at_ x.sent - at_ x.freedSeen).toNat > (at_ x.bv).toNat then 1
  else if x.occupancy v ≠ (at_ x.received - at_ x.freed).toNat then 2 else 0

/-- The record of one VC (R530). -/
def State.auditRecord (s : State) (p : PortIx) (v start result : Nat) : List Byte :=
  let x := s.ports[p]
  let at_ (w : Vector (BitVec 16) 12) : List Byte := leBytes 2 ((w.toArray[v]?).getD 0).toNat
  leBytes 1 v ++ leBytes 1 result ++ at_ x.bv ++ leBytes 2 (x.credits v) ++ at_ x.sent ++ at_ x.freedSeen ++ at_ x.received ++ at_ x.freed ++
  leBytes 2 (x.occupancy v) ++ leBytes 8 (s.clock - start) ++ leBytes 8 s.now.toNat

/-- The VCs of an AUDIT. -/
def Audit.vcs (a : Audit) : List Nat := if a.vc = 15 then List.range 12 else [a.vc]

/-- Reply to the AUDIT of a port, and begin the next that waits (R529 to R531). -/
def State.auditReply (s : State) (p : PortIx) (st : Status) (vs : List (List Byte)) : State :=
  let s := s.modPort p fun x => { x with audit := (x.auditQ.head?).map fun v => ⟨v, s.clock⟩, auditQ := x.auditQ.tail }
  match s.zcp.waiting.find? fun w => w.later && w.op.toNat == 0x0730 && w.target.index.toNat == p.val with
  | some w => s.reply w true st (items vs)
  | none => s

/-- Answer every AUDIT of a port that has not been read (R531). -/
def State.auditEnd (s : State) (p : PortIx) (st : Status) : State :=
  (List.range (s.ports[p].auditQ.length + 1)).foldl (fun s _ => if s.ports[p].audit.isSome then s.auditReply p st [] else s) s

/-- A port goes DOWN (R317, R318, R349): the router acts, a swap is discarded, and training resumes at once where R349
lets it. -/
def State.goDown (s : State) (p : PortIx) (r : DownReason) : State :=
  let x := s.ports[p]
  if x.state = .down then s.modPort p fun x => { x with reason := r } else
  let s := match x.audit with
    | some a => (s.auditReply p .success [a.vcs.flatMap fun v => s.auditRecord p v a.start 3]).auditEnd p .portState
    | none => s
  let was := x.usable || x.state == .held
  let timeouts := if r = .trainTimeout || r = .tooFewLanes then x.timeouts + 1 else x.timeouts
  let waves := if r = .noPeer then 0 else x.waves
  let bayLit := s.bays[bayOf p].state == .active || s.bays[bayOf p].state == .draining
  let s := s.modPort p fun x => { x with
    state := .down, reason := r, step := 0, timeouts := timeouts, waves := waves, retryAt := resumeAt s.clock r timeouts
    tx := { x.tx with swap := none, lanes := x.tx.lanes.map (downLane bayLit) }
    rx := { x.rx with swap := none, lanes := Vector.ofFn fun k => downLane (waves.getLsbD k.val) x.rx.lanes[k] }
    input := x.input.map fun y => { y with stale := true }
    frame := [], frameBad := [], asm := [], retryOut := none, retryIn := none }
  let s := (s.bump .fabPortDown p.val).bump .fabPortRxTruncated p.val 0 x.asm.length
  let s := if was then (s.routerDown p).collPortDown p else s
  s.tryTrain p

/-- Read the books of an AUDIT once its VCs are quiet, or at 100 µs (R529): a VC that fails its check retrains the port. -/
def State.auditTry (s : State) (p : PortIx) : State :=
  match s.ports[p].audit with
  | none => s
  | some a =>
    if s.dbg.frozen then s.auditEnd p .frozen else
    if !(a.vcs.all (s.vcQuiet p) || a.start + 100000 ≤ s.clock) then s else
    let rs := a.vcs.map fun v => (v, if s.vcQuiet p v then s.ports[p].balance v else 3)
    let fails := (rs.filter fun r => r.2 == 1 || r.2 == 2).length
    let s := s.auditReply p .success [rs.flatMap fun r => s.auditRecord p r.1 a.start r.2]
    if fails = 0 then s
    else ((s.bump .fabPortAuditFail p.val 0 fails).bump .fabPortCreditError p.val 0 fails).goDown p .creditError

/-! ## Steps of training (R346 to R348, R354) -/

/-- Limit of a step in ns (R346). -/
def stepLimit (k : Nat) : Nat :=
  match k with | 2 => 6000000 | 3 => 4000000 | 7 => 100000 | 8 => 100000 | _ => 1000000

/-- The lane map of a direction (R348): slots to the lowest passing lanes, one left over on STANDBY, unfilled slots
skipped. -/
def buildMap (lanes : Vector Lane 9) : PortDir :=
  let ok := (List.finRange 9).filter fun k => lanes[k].state == .trained
  let used := ok.take 8
  { lanes := Vector.ofFn fun k =>
      if used.contains k then { lanes[k] with state := .data } else if ok.contains k then { lanes[k] with state := .standby } else lanes[k]
    map := Vector.ofFn fun i => used[i.val]?
    skip := BitVec.ofNat 8 (((List.range 8).filter fun i => used.length ≤ i).map (2 ^ ·)).sum }

/-- Lanes of a direction that are trained. -/
def PortDir.trained (d : PortDir) : Nat := (d.lanes.toList.filter fun l => l.state == .trained).length

/-- Build both lane maps at step FEC; a fabric wavelength whose laser has reached spare-in is left out (R348, R374). -/
def State.buildMaps (s : State) (p : PortIx) : State :=
  s.modPort p fun x => { x with
    tx := buildMap (Vector.ofFn fun k =>
      if (s.bays[bayOf p].lasers[k]).faded then { x.tx.lanes[k] with state := .failed } else x.tx.lanes[k])
    rx := buildMap x.rx.lanes }

/-- Credits and retry start afresh, and CREDIT_INIT is sent (R304, R346). -/
def State.startCredits (s : State) (p : PortIx) : State :=
  let s := s.modPort p fun x => { x.startFraming with
    own := x.cfg.split, freed := Vector.replicate 12 0, freedSent := Vector.replicate 12 0, sent := Vector.replicate 12 0
    freedSeen := Vector.replicate 12 0, bv := Vector.replicate 12 0, lastCredit := s.clock
    unacked := [], asm := []
    avg := Vector.replicate 12 0, turn := 3, deficit := 0, received := Vector.replicate 12 0, creditSince := true
    input := x.input.map fun y => { y with stale := true } }
  s.sendControl p (lcFlit 2 (s.ports[p].own.toList.flatMap fun n => leBytes 2 n))

/-- The state of a port whose link is trained (R348, R352). -/
def Port.settled (x : Port) : PortState :=
  if x.outcome ≠ 0 then .held else if x.tx.slots < 8 || x.rx.slots < 8 then .degraded else .active

/-- Lane identity: a lane that shows the wavelength index of another, or more than 40 ns of skew, is FAILED (R331, R335). -/
def PortDir.identified (d : PortDir) (idents : Vector LaneIdent 9) : PortDir :=
  { d with lanes := Vector.ofFn fun k =>
      if d.lanes[k].state = .trained && (idents[k].wave.toNat ≠ k.val || idents[k].skewNs > 40) then { d.lanes[k] with state := .failed }
      else d.lanes[k] }

/-- Both ends start framing under R332 (R346). -/
def State.startFrames (s : State) (p : PortIx) : State :=
  (s.modPort p fun x => { x.startFraming with
    frameAt := 10 * s.clock, rxFsn := 0, ackSent := 0, lastAck := s.clock, frame := [], frameBad := [] }).enterStep p 7

/-- Carry out the step of training that both ends are in, and enter the next (R346 to R348, R352, R354). -/
def State.trainStep (s : State) (p : PortIx) (id : Identity) (idents : Vector LaneIdent 9) (rt : Nat) : State :=
  let x := s.ports[p]
  match x.step with
  | 4 =>
    let s := s.modPort p fun x => { x with roundTrip := rt, rx := x.rx.identified idents }
    if s.ports[p].rx.trained < 4 then s.goDown p .tooFewLanes else s.enterStep p 5
  | 5 =>
    let rev := min 0x12 id.revMax.toNat
    if rev < max 0x10 id.revMin.toNat then s.goDown p .revMismatch else
    let s := if rev < 0x12 then s.bump .fabPortRevBelowMax p.val else s
    let s := s.modPort p fun x => { x with peer := some id, rev := BitVec.ofNat 8 rev }
    if rev = 0x10 && x.rate100 then
      let s := s.modPort p fun x => { x with
        rate100 := false, rx := { x.rx with lanes := x.rx.lanes.map fun l => if l.state = .trained && !l.pass200 then { l with state := .failed } else l } }
      if s.ports[p].rx.trained < 4 then s.goDown p .tooFewLanes else s.enterStep p 6
    else s.enterStep p 6
  | 6 =>
    if s.planMode p = 3 then s.goDown p .disabled else
    let s := (s.checkCabling p).buildMaps p
    if s.ports[p].tx.slots < 4 || s.ports[p].rx.slots < 4 then s.goDown p .tooFewLanes else s.startFrames p
  | 7 => (s.startCredits p).enterStep p 8
  | _ => s

/-- Steps 4 to 7 while the peer is as far (R346). -/
def State.trainOn (p : PortIx) (id : Identity) (idents : Vector LaneIdent 9) (rt : Nat) : Nat → State → State
  | 0, s => s
  | n + 1, s =>
    let x := s.ports[p]
    if x.state = .training && 4 ≤ x.step && x.step ≤ 7 && x.step ≤ x.peerStep then
      State.trainOn p id idents rt n (s.trainStep p id idents rt)
    else s

/-- Rates and lanes at the end of EQUALISE (R347): `forced` is 0 none, 1 100 Gb/s, 2 200 Gb/s. -/
def chooseRate (n200 n100 : Nat) (forced : Nat) (peer100 hot : Bool) : Bool :=
  let own := if forced = 1 || hot then true else if forced = 2 then false
    else n200 < 8 && min n100 8 * 100 > min n200 8 * 200
  own || peer100

/-! ## Link control (R296, R305, R337) -/

/-- Send RETRY for the frame expected (R336, R337): 16 for one FSN within 1 ms take the port DOWN. -/
def retryNow (clock : Nat) (fsn : BitVec 16) (r : Option RetryRun) : RetryRun :=
  match r with
  | some r => if r.fsn = fsn then ⟨fsn, clock :: r.times.filter fun t => clock < t + 1000000⟩ else ⟨fsn, [clock]⟩
  | none => ⟨fsn, [clock]⟩

/-- The receiver asks for a frame again (R336). -/
def State.sendRetry (s : State) (p : PortIx) : State :=
  let fsn := s.ports[p].rxFsn
  let r := retryNow s.clock fsn s.ports[p].retryOut
  let s := ((s.modPort p fun x => { x with retryOut := some r }).sendControl p (lcFlit 5 (leBytes 2 fsn.toNat))).bump .fabPortRetries p.val
  if r.times.length ≥ 16 then s.goDown p .retryExhausted else s

/-- RETRY arrives: the transmitter resends from the named FSN, which its retry buffer holds (R337). -/
def State.retryIn (s : State) (p : PortIx) (fsn : BitVec 16) : State :=
  let r := retryNow s.clock fsn s.ports[p].retryIn
  let s := s.modPort p fun x => { x with retryIn := some r }
  let x := s.ports[p]
  if r.times.length ≥ 16 then s.goDown p .retryExhausted
  else if (fsn - x.acked).toNat < (x.framed - x.acked).toNat then (s.modPort p fun x => { x with frameFsn := fsn }).emit (.resend p fsn)
  else s

/-- ACK arrives: frames before ACK_FSN leave the retry buffer, and waiting flits go (R337, R338). An ACK_FSN of flits that no
frame has carried, or older than the last, acknowledges nothing. -/
def State.ackIn (s : State) (p : PortIx) (fsn : BitVec 16) : State :=
  let x := s.ports[p]
  let n := (fsn - x.acked).toNat
  if n > (x.framed - x.acked).toNat then s else
  ((s.modPort p fun x => { x with
    acked := fsn, retry := x.retry.drop n, frameFsn := if (x.frameFsn - x.acked).toNat < n then fsn else x.frameFsn, creditSince := false, unacked := x.unacked.filter fun u => (fsn - u.1).toNat ≥ 2 ^ 15 }).serve p).auditTry p

/-- CREDIT arrives (R305): the totals FREED give the credits, or a protocol error retrains the link. -/
def State.creditIn (s : State) (p : PortIx) (freed : Vector (BitVec 16) 12) : State :=
  let x := s.ports[p]
  if !(x.usable || x.state == .held) then s else
  if (List.finRange 12).any fun v => (x.sent[v] - freed[v]).toNat > x.bv[v].toNat then
    (s.bump .fabPortCreditError p.val).goDown p .creditError
  else ((s.modPort p fun x => { x with freedSeen := freed, creditSince := true }).serve p).auditTry p

/-- CREDIT_INIT arrives (R304, R346): the peer has reached step CREDIT; its sizes end the training of the port. -/
def State.creditInit (s : State) (p : PortIx) (sizes : Vector (BitVec 16) 12) : State :=
  let x := s.ports[p]
  if x.state ≠ .training || x.step < 7 then s else
  let s := if x.step = 7 then (s.startCredits p).enterStep p 8 else s
  (s.modPort p fun x => { x with bv := sizes, step := 9, stepT := s.clock, timeouts := 0, reason := .none, state := x.settled })

/-- FREEZE flit (R508). -/
def State.freezeFlitIn (s : State) (p : PortIx) (f : FreezeFlit) : State :=
  if !s.ports[p].pastFec then s
  else if s.dbg.frozen || !s.dbg.accept then s.bump .dbgFreezeFlitsIgnored
  else s.freeze .peer (f.originFid ++ f.originNo.setWidth 16) (some (p, f))

/-! ## Lane failure and swap (R340 to R345) -/

/-- Change one direction of a port. -/
def Port.modDir (x : Port) (d : Dir) (f : PortDir → PortDir) : Port :=
  match d with | .tx => { x with tx := f x.tx } | .rx => { x with rx := f x.rx }

/-- One direction of a port. -/
def Port.dir (x : Port) (d : Dir) : PortDir := match d with | .tx => x.tx | .rx => x.rx

/-- Set the state of a lane. -/
def PortDir.setLane (d : PortDir) (k : LaneIx) (st : LaneState) : PortDir :=
  { d with lanes := d.lanes.set k { d.lanes[k] with state := st, clean := none } }

/-- The STANDBY lane of a direction. -/
def PortDir.standby (d : PortDir) : Option LaneIx := (List.finRange 9).find? fun k => d.lanes[k].state == .standby

/-- ACTIVE or DEGRADED by the slots in use (R343). -/
def State.regrade (s : State) (p : PortIx) : State :=
  s.modPort p fun x => if x.usable then { x with state := x.settled } else x

/-- The bytes of a SWAP flit (R337). -/
def swapBytes (m : SwapMsg) : List Byte := [m.op, m.slot, m.from_, m.to_] ++ leBytes 2 m.at_.toNat

/-- Frames until AT (R341): the frame lasts 13.6 ns, 27.2 ns at 100 Gb/s; the round trip is in 1/16 ns. -/
def atFrames (x : Port) : Nat := max 16 (ceilDiv (x.roundTrip * 10) (16 * 136 * (if x.rate100 then 2 else 1)) + 4)

/-- Schedule a swap of a slot from a lane to the STANDBY lane, or to none (R341, R343). -/
def State.schedule (s : State) (p : PortIx) (slot from_ : Nat) (to_ : Option LaneIx) (tries : Nat) : State :=
  let x := s.ports[p]
  let at_ := x.frameFsn + BitVec.ofNat 16 (atFrames x * x.frameFlits)
  let to_ := (to_.map fun k => k.val).getD 15
  (s.modPort p fun x => { x with tx := { x.tx with swap := some { slot := slot, from_ := from_, to_ := to_, at_ := at_, tries := tries } } }).sendControl
    p (lcFlit 6 (swapBytes ⟨1, BitVec.ofNat 8 slot, BitVec.ofNat 8 from_, BitVec.ofNat 8 to_, at_⟩))

/-- The transmitter skips a slot from its next frame, and schedules its swap unless one is in force (R341, R344). -/
def State.skipSlot (s : State) (p : PortIx) (slot : Nat) (lane : LaneIx) : State :=
  let s := s.modPort p fun x => { x with tx := { x.tx.setLane lane .failed with skip := x.tx.skip ||| BitVec.ofNat 8 (2 ^ slot) } }
  if s.ports[p].tx.slots < 4 then s.goDown p .tooFewLanes
  else if s.ports[p].tx.swap.isSome then s
  else s.schedule p slot lane.val s.ports[p].tx.standby 1

/-- Lanes of a direction that still carry a slot. -/
def PortDir.carrying (d : PortDir) : Nat := (d.lanes.toList.filter fun l => l.state == .data).length

/-- Why a port goes DOWN when fewer than four lanes are left to its receiver (R343, R349, R355). -/
def lossReason (waves : BitVec 9) (c : LaneCause) : DownReason :=
  if c = .alignment then .alignmentLost else if lit waves < 4 then .noPeer else .tooFewLanes

/-- The ring of a lane that fails in service may re-sweep (R331, R345; log 42). -/
def PortDir.sweep (d : PortDir) (k : LaneIx) : PortDir :=
  if d.lanes[k].state = .data || d.lanes[k].state = .standby
  then { d with lanes := d.lanes.set k { d.lanes[k] with sweeps := true, attempts := 0 } } else d

/-- A lane fails (R340 to R345). A fade at the transmitter swaps while the lane works, or changes nothing with no spare
(R342, R344, R374). A receiver asks for the frame that the lane leaves incomplete, and for the swap. Below MFP 1.1 the failure of a DATA lane retrains the port (R354). -/
def State.failLane (s : State) (p : PortIx) (d : Dir) (k : LaneIx) (c : LaneCause) : State :=
  let x := s.ports[p]
  if !(x.usable || x.state == .held) then s else
  let fade := c == .laser && d == .tx
  let s := if fade then s else s.modPort p fun x => x.modDir d fun y => y.sweep k
  match (x.dir d).lanes[k].state with
  | .failed => s.modPort p fun x => x.modDir d fun y => { y with lanes := y.lanes.set k { y.lanes[k] with clean := none } }
  | .standby =>
    ((s.modPort p fun x => x.modDir d fun y => y.setLane k .failed).bump .fabPortLaneFailures p.val k.val).setFlag .fabSpareLost 4 p.val
  | .data =>
    match (x.dir d).slotOf k with
    | none => s
    | some slot =>
      if fade && (x.tx.standby.isNone || x.tx.swap.isSome) && x.rev.toNat ≥ 0x11 then s else
      let s := s.bump .fabPortLaneFailures p.val k.val
      if x.rev.toNat < 0x11 then s.goDown p .command
      else if fade then s.schedule p slot k.val x.tx.standby 1
      else match d with
      | .tx => s.skipSlot p slot k
      | .rx =>
        let waves := if c = .lossOfSignal then x.waves &&& ~~~(BitVec.ofNat 9 (2 ^ k.val)) else x.waves
        let s := s.modPort p fun x => { x with waves := waves, rx := x.rx.setLane k .failed }
        if s.ports[p].rx.carrying < 4 then s.goDown p (lossReason waves c) else
        let s := s.modPort p fun x => { x with frame := [], frameBad := [] }
        let s := if s.ports[p].retryOut.isNone then s.sendRetry p else s
        if s.ports[p].state = .down then s
        else s.sendControl p (lcFlit 6 (swapBytes ⟨0, BitVec.ofNat 8 slot, BitVec.ofNat 8 k.val,
          BitVec.ofNat 8 ((x.rx.standby.map fun k => k.val).getD 15), 0⟩))
  | _ => s

/-- A SWAP flit arrives (R341, R344): the receiver's request, or the transmitter's schedule. -/
def State.swapIn (s : State) (p : PortIx) (m : SwapMsg) : State :=
  let x := s.ports[p]
  if !(x.usable || x.state == .held) || x.rev.toNat < 0x11 || m.slot.toNat > 7 then s
  else if m.op = 0 then
    match (x.tx.map.toArray[m.slot.toNat]?).join with
    | none => s
    | some k =>
      if k.val ≠ m.from_.toNat || x.tx.skip.getLsbD m.slot.toNat || (x.tx.swap.map fun w => w.slot == m.slot.toNat).getD false then s
      else s.skipSlot p m.slot.toNat k
  else if m.op = 1 then
    if (m.at_ - x.rxFsn).toNat ≥ 2 ^ 15 then s else
    (s.modPort p fun x => { x with rx := { x.rx with
      swap := some { slot := m.slot.toNat, from_ := m.from_.toNat, to_ := m.to_.toNat, at_ := m.at_, acked := true } } }).sendControl p
      (lcFlit 7 (swapBytes m))
  else s

/-- SWAP_ACK arrives for the schedule in force (R341). -/
def State.swapAckIn (s : State) (p : PortIx) (m : SwapMsg) : State :=
  s.modPort p fun x => match x.tx.swap with
    | some w =>
      if w.slot = m.slot.toNat && w.from_ = m.from_.toNat && w.to_ = m.to_.toNat && w.at_ = m.at_ && m.op = 1
      then { x with tx := { x.tx with swap := some { w with acked := true } } } else x
    | none => x

/-- A swap takes effect in a direction (R341, R343): the slot moves to TO, or stays skipped with none. -/
def PortDir.swapped (d : PortDir) (w : Swap) : PortDir :=
  let d := if h : w.from_ < 9 then d.setLane ⟨w.from_, h⟩ .failed else d
  let d := { d with swap := none }
  if h : w.to_ < 9 then
    { d.setLane ⟨w.to_, h⟩ .data with
      map := d.map.setIfInBounds w.slot (some ⟨w.to_, h⟩), skip := d.skip &&& ~~~(BitVec.ofNat 8 (2 ^ w.slot)) }
  else { d with skip := d.skip ||| BitVec.ofNat 8 (2 ^ w.slot) }

/-- The FSN of the frame that a direction handles next. -/
def Port.nextFsn (x : Port) (d : Dir) : BitVec 16 := match d with | .tx => x.frameFsn | .rx => x.rxFsn

/-- Frame AT is reached, that is, the next frame is that one or a later one (R341, R343): an unacknowledged schedule is made
again, three times at most. -/
def State.swapDue (s : State) (p : PortIx) (d : Dir) : State :=
  match (s.ports[p].dir d).swap with
  | none => s
  | some w =>
    if (s.ports[p].nextFsn d - w.at_).toNat ≥ 2 ^ 15 then s
    else if !w.acked then
      if w.tries ≥ 3 then s.goDown p .command
      else s.schedule p w.slot w.from_ (if h : w.to_ < 9 then some ⟨w.to_, h⟩ else none) (w.tries + 1)
    else
      let s := s.modPort p fun x => x.modDir d fun y => y.swapped w
      let s := if w.to_ < 9 then s.bump .fabPortSwaps p.val else s
      if (s.ports[p].dir d).slots < 4 then s.goDown p .tooFewLanes else s.regrade p

/-! ## Frames (R332 to R336) -/

/-- A tag that R295 and R333 allow: a VC, an idle flit or a link-control flit. -/
def tagOk (t : BitVec 6) : Bool :=
  let v := t.toNat / 4
  v < 12 || (v == 15 && (t.getLsbD 1 == t.getLsbD 0))

/-- A link-control flit arrives (R296). -/
def State.linkControlIn (s : State) (p : PortIx) (f : BitVec 256) : State :=
  let w (i n : Nat) : Nat := ffld f (8 * i + 8 * n - 1) (8 * i)
  let ws : Vector (BitVec 16) 12 := Vector.ofFn fun v => BitVec.ofNat 16 (w (2 + 2 * v.val) 2)
  let m : SwapMsg := ⟨BitVec.ofNat 8 (w 2 1), BitVec.ofNat 8 (w 3 1), BitVec.ofNat 8 (w 4 1), BitVec.ofNat 8 (w 5 1), BitVec.ofNat 16 (w 6 2)⟩
  match w 0 1 with
  | 1 => s.creditIn p ws
  | 2 => s.creditInit p ws
  | 3 => s.freezeFlitIn p ⟨BitVec.ofNat 16 (w 2 2), BitVec.ofNat 32 (w 4 4), BitVec.ofNat 64 (w 8 8), BitVec.ofNat 8 (w 16 1),
      BitVec.ofNat 8 (w 17 1), BitVec.ofNat 32 (w 18 4)⟩
  | 4 => s.ackIn p (BitVec.ofNat 16 (w 2 2))
  | 5 => s.retryIn p (BitVec.ofNat 16 (w 2 2))
  | 6 => s.swapIn p m
  | 7 => s.swapAckIn p m
  | _ => s.bump .fabPortLcReserved p.val

/-- One flit of an accepted frame (R294, R302, R318, R333). -/
def State.flitIn (s : State) (p : PortIx) (tag : BitVec 6) (f : BitVec 256) : State :=
  let v := tag.toNat / 4
  let head := tag.getLsbD 1
  let tail := tag.getLsbD 0
  if v = 15 then if head && tail then s.linkControlIn p f else s
  else if !(s.ports[p].usable || s.ports[p].state == .held) then s
  else
    let s := s.countRxFlits p v 1
    let old := (s.ports[p].asm.find? fun a => a.1 == v).map Prod.snd
    let rest := s.ports[p].asm.filter fun a => a.1 != v
    let s := match old with
      | some fs => if head then s.freeFlits (some p) v fs.length false else s
      | none => s
    let fs : Option (List (BitVec 256)) := if head then some [f] else old.map fun fs => if fs.length < 10 then fs ++ [f] else fs
    match fs with
    | none => s.freeFlits (some p) v 1 false
    | some fs =>
      let s := if !head && (old.map List.length).getD 0 ≥ 10 then s.freeFlits (some p) v 1 false else s
      if !tail then s.modPort p fun x => { x with asm := (v, fs) :: rest }
      else (s.modPort p fun x => { x with asm := rest }).arrivePkt p ⟨v, fs.headD 0, fs.drop 1⟩

/-- The frame that is expected has arrived on every used slot: its flits in order (R333). -/
def State.frameIn (s : State) (p : PortIx) (skip : BitVec 8) : State :=
  let used := (List.range 8).filter fun k => !skip.getLsbD k
  let fr := s.ports[p].frame
  let blocks := used.filterMap fun k => (fr.find? fun b => b.2.slot.toNat == k).map Prod.snd
  let s := s.modPort p fun x => { x with
    rxFsn := x.rxFsn + BitVec.ofNat 16 (10 * used.length), retryOut := none, frame := [], frameBad := [], rx := { x.rx with skip := skip } }
  let s := (List.range 10).foldl (fun s i => blocks.foldl (fun s b => let f := (b.flits[i]?).getD idleFlit; s.flitIn p f.1 f.2) s) s
  if used.length < 4 then s.goDown p .tooFewLanes else s

/-- The block is one of the next frame, or starts the numbering of a link in training, whose FSN starts at 0 at step CREDIT
(R336, R346; log 42). -/
def State.expect (s : State) (p : PortIx) (fsn : BitVec 16) : State :=
  s.modPort p fun x => if x.state = .training && fsn = 0 && x.rxFsn ≠ 0 then { x with rxFsn := 0, frame := [], frameBad := [] } else x

/-- A lane block of an aligned lane is checked, and completes its frame or has it sent again (R332 to R337). `n` is what FEC
corrected. -/
def State.sliceIn (s : State) (p : PortIx) (k : LaneIx) (b : Slice) (n : Option Nat) (crcOk : Bool) : State :=
  let x := s.ports[p]
  let ln := x.rx.lanes[k]
  let s := match n with
    | some n => (s.bump .fabPortFecCorrected p.val 0 n).bump .fabPortLaneFecCorrected p.val k.val n
    | none => s.bump .fabPortLaneFecUncorrectable p.val k.val
  let swapTo := (x.rx.swap.map fun w => w.to_ == k.val && w.slot == b.slot.toNat).getD false
  let slotOk := swapTo || (match x.rx.slotOf k with | some i => b.slot.toNat == i | none => b.slot == 15)
  let bad := n.isNone || !crcOk || b.wave.toNat != k.val || !slotOk || b.flits.any fun f => !tagOk f.1
  let carries := ln.state == .data || swapTo
  let s := if bad then s.bump .fabPortCrcErrors p.val else s.expect p b.fsn
  let unc := if n.isNone then s.clock :: ln.uncorr.filter (fun t => s.clock < t + 10000) else ln.uncorr
  let s := s.modPort p fun x => { x with rx := { x.rx with lanes := x.rx.lanes.set k { x.rx.lanes[k] with uncorr := unc } } }
  let x := s.ports[p]
  let s :=
    if !carries || (b.fsn ≠ x.rxFsn && !(bad && x.retryOut.isNone)) then s else
    let again := x.frameBad.contains k || x.frame.any fun y => y.1 == k
    let (frame, fbad) := if again then ([], []) else (x.frame, x.frameBad)
    if bad then
      let s := s.modPort p fun x => { x with frame := frame, frameBad := k :: fbad }
      if fbad.isEmpty then s.sendRetry p else s
    else
      let s := s.modPort p fun x => { x with frame := frame ++ [(k, b)], frameBad := fbad }
      let need := (List.range 8).filter fun i => !b.skip.getLsbD i
      if fbad.isEmpty && !need.isEmpty && need.all fun i => s.ports[p].frame.any fun y => y.2.slot.toNat == i
      then s.frameIn p b.skip else s
  if unc.length ≥ 4 && n.isNone then s.failLane p .rx k .uncorrectable else s

/-- A lane block arrives (R332 to R337, R340): its MARKER keeps or loses frame alignment, without which nothing is read. -/
def State.blockIn (s : State) (p : PortIx) (k : LaneIx) (b : LaneBlock) : State :=
  let ln := s.ports[p].rx.lanes[k]
  if !s.ports[p].pastFec then s else
  let now := ln.mark (blockMarker b == 0x33C)
  let s := s.modPort p fun x => { x with rx := { x.rx with lanes := x.rx.lanes.set k now } }
  if ln.markers < 4 || !(ln.state == .data || ln.state == .standby) then s else
  let (data, n) := blockData b
  let (sl, ok) := blockSlice b data
  let s := s.sliceIn p k sl n ok
  if now.markers < 4 then s.failLane p .rx k .alignment else s

end Sys2Proof.Machine
end

