-- ==== Sys2Proof/Machine/Router.lean ====
section
/-! DEFINITION. The router's commands: arrival, allocation, credits, stalemate, marking, occupancy and congestion maps
(R294 to R321, R433, R523). -/

namespace Sys2Proof.Machine

/-- HEAD_FLIT (R302, R309): a whole packet arrives on a port and is routed; at the endpoint, the packet with this head that
waits to be looked up. -/
def execHeadFlit (p : Option PortIx) (vc : VcIx) (head : BitVec 256) (payload : List (BitVec 256)) (s : State) : Out :=
  match p with
  | some p =>
    when_ s (s.live && (s.ports[p].usable || s.ports[p].state == .held)) fun s =>
      (s.countRxFlits p vc.val (1 + payload.length)).arrivePkt p ⟨vc.val, head, payload⟩
  | none =>
    when_ s s.working fun s =>
      match s.fab.inject.findIdx? fun x => x.pkt == ⟨vc.val, head, payload⟩ && x.out.isNone with
      | some k => s.contend none k 17
      | none => s

/-- VC_ALLOCATION (R312): the front of an input VC is looked up, if it has not been, and allocated once it qualifies. -/
def execVcAllocation (p : Option PortIx) (vc : VcIx) (s : State) : Out := when_ s s.working fun s => s.routeVc p vc.val

/-- CREDIT (R305). -/
def execCredit (p : PortIx) (freed : Vector (BitVec 16) 12) (s : State) : Out := when_ s s.live fun s => s.creditIn p freed

/-- CREDIT_INIT (R304, R346). -/
def execCreditInit (p : PortIx) (sizes : Vector (BitVec 16) 12) (s : State) : Out := when_ s s.live fun s => s.creditInit p sizes

/-- FREEZE_FLIT (R508). -/
def execFreezeFlit (p : PortIx) (f : FreezeFlit) (s : State) : Out := when_ s s.live fun s => s.freezeFlitIn p f

/-- RESERVED_LINK_CONTROL (R296): KINDs 0x01 to 0x07 are not reserved. -/
def execReservedLinkControl (p : PortIx) (kind : BitVec 8) (s : State) : Out :=
  when_ s (s.live && s.ports[p].pastFec && (kind.toNat == 0 || kind.toNat > 7)) fun s => s.bump .fabPortLcReserved p.val

/-- CREDIT_TIMER (R305): a total has changed and 32 ns have passed since the last CREDIT. -/
def execCreditTimer (p : PortIx) (s : State) : Out :=
  let x := s.ports[p]
  when_ s (s.live && (x.usable || x.state == .held) && x.freed != x.freedSent && x.lastCredit + 32 ≤ s.clock) fun s => s.sendCredit p

/-- CONTROL (R353, R433): a CONTROL message arrives on REQ.a. -/
def execControl (p : PortIx) (src dst : BitVec 16) (pkt : List Byte) (s : State) : Out :=
  let k := mkPkt { dst := dst, src := src, ty := 8, cls := 0, len := pkt.length } pkt
  when_ s (s.live && (s.ports[p].usable || s.ports[p].state == .held) && 32 ≤ pkt.length && pkt.length ≤ 256) fun s =>
    (s.countRxFlits p 0 k.flits).arrivePkt p k

/-- STALL of an input (R315). -/
def State.stall (s : State) (p : Option PortIx) : Nat := match p with | some p => s.ports[p].cfg.stall | none => s.fab.epStall

/-- Work clock at which a flit of an input VC last moved. -/
def State.movedAt (s : State) (p : Option PortIx) (v : VcIx) : Nat :=
  match p with | some p => s.ports[p].moved[v] | none => s.fab.injMoved[v]

/-- STALEMATE (R315): the head at the front has waited STALL and no flit of its VC has moved: ESC is set. -/
def execStalemate (p : Option PortIx) (vc : VcIx) (s : State) : Out :=
  let late (x : InPkt) : Bool := x.arrived + s.stall p ≤ s.time.work && !(headOf x.pkt.head).esc
  match (s.fronts p vc.val).find? fun k => (((s.inputOf p)[k]?).map late).getD false with
  | none => .next s
  | some k => when_ s (s.working && s.movedAt p vc + s.stall p ≤ s.time.work) fun s =>
    let s := s.modAt p k fun x => { x with pkt := { x.pkt with head := markHead x.pkt.head 73 } }
    match p with | some p => s.bump .fabPortStalemateForced p.val | none => s.bump .fabEpStalemateForced

/-- CE_WAIT (R320): a REQUEST has waited 1 µs for allocation. -/
def execCeWait (p : Option PortIx) (vc : VcIx) (s : State) : Out :=
  let late (x : InPkt) : Bool := x.arrived + 1000 ≤ s.time.work && (headOf x.pkt.head).ty == 1 && !(headOf x.pkt.head).ce
  match (s.fronts p vc.val).find? fun k => (((s.inputOf p)[k]?).map late).getD false with
  | none => .next s
  | some k => when_ s s.working fun s => s.markCe p k

/-- Buffer size of a VC in force (R304): the configured split until credits are first initialised. -/
def Port.size (x : Port) (v : VcIx) : Nat := if x.own[v] = 0 then x.cfg.split[v] else x.own[v]

/-- Count a sample of a histogram (R523): occupancy n of a queue with capacity c. -/
def State.sample (s : State) (id : CtrId) (i j n c : Nat) : State :=
  let k : CtrKey := ⟨id, i, j, min 7 (n * 8 / max 1 c)⟩
  s.setCtr k (s.ctr k + 1)

/-- Averages in 1/256 of B_v, and the occupancy histogram of every input VC (R319). -/
def State.sampleOccupancy (s : State) : State :=
  let s := (List.finRange 16).foldl (fun s p =>
    let x := s.ports[p]
    let s := s.modPort p fun x => { x with avg := Vector.ofFn fun v =>
      x.avg[v] + ((x.occupancy v.val * 256 : Nat) / (x.size v : Rat) - x.avg[v]) / 16 }
    (List.finRange 12).foldl (fun s v => s.sample .fabPortVcOccupancy p.val v.val (x.occupancy v.val) (x.size v)) s) s
  s.modFab fun f => { f with avgT := s.now, avgClock := s.clock }

/-- OCCUPANCY_UPDATE (R319): every 64 ns. -/
def execOccupancyUpdate (s : State) : Out :=
  when_ s (s.live && s.fab.avgClock + 64 ≤ s.clock) fun s => s.sampleOccupancy

/-- Sample the occupancy of a queue of the memory controllers or of the ring: how full it is at a moment is timing, and
free (log 39). -/
def State.sampleFree (s : State) (id : CtrId) (i j : Nat) : State :=
  let (v, s) := s.free
  s.sample id i j (v.toNat % 8) 8

/-- The histograms beside those of R319 (R523). -/
def State.sampleHistograms (s : State) : State :=
  let s := (s.modFab fun f => { f with histClock := s.clock }).sample .fabDedupOccupancy 0 0 s.fab.dedup.length 65536
  let s := (List.range 6).foldl (fun s i => (List.range 2).foldl (fun s j => s.sampleFree .d2dOccupancy i j) s) s
  (List.range 24).foldl (fun s m => s.sampleFree .memOccupancy m 0) s

/-- HISTOGRAM_SAMPLE (R523): every 64 ns, the histograms beside those of R319. -/
def execHistogramSample (s : State) : Out :=
  when_ s (s.live && s.fab.histClock + 64 ≤ s.clock) fun s =>
    s.sampleHistograms

/-- State of a port as a congestion map codes it (R321). -/
def PortState.code : PortState → Nat
  | .down => 0 | .training => 1 | .held => 2 | .active => 3 | .degraded => 4

/-- The congestion map (R321). -/
def State.congMap (s : State) : List Byte :=
  leBytes 8 s.fab.avgT.toNat ++ leBytes 2 (s.fid.getD 0xFFFF).toNat ++ leBytes 2 0 ++ leBytes 4 s.fab.congSeq.toNat ++
  s.ports.toList.flatMap (fun x => leBytes 1 x.state.code) ++
  s.ports.toList.flatMap (fun x => x.avg.toList.flatMap fun a => leBytes 1 (min 255 a.floor.toNat)) ++ leBytes 32 0

/-- CONG_MAP_SEND (R321): every 100 µs, to the collector that FABRIC_CONFIG names. -/
def execCongMapSend (s : State) : Out :=
  match s.fab.collector with
  | none => .next s
  | some c => when_ s (s.working && s.fab.congClock + 100000 ≤ s.clock) fun s =>
    ((s.message c 9 1 0 s.congMap).bump .fabRCongMaps).modFab fun f => { f with congSeq := f.congSeq + 1, congClock := s.clock }

end Sys2Proof.Machine
end

