-- ==== Sys2Proof/Machine/FabricControl.lean ====
section
/-! DEFINITION. The ZCP commands of the fabric and of collectives: plan, ports, routes, windows, topologies, groups
(R264 to R266, R304, R310, R351 to R353, R379 to R382, R386). -/

namespace Sys2Proof.Machine

/-- TARGET of a fabric port, of a job and of a group (R436). -/
def portTarget (p : PortIx) : Target := ⟨4, BitVec.ofNat 24 p.val⟩
def jobTarget (j : BitVec 12) : Target := ⟨8, BitVec.ofNat 24 j.toNat⟩
def groupTarget (g : BitVec 16) : Target := ⟨10, BitVec.ofNat 24 g.toNat⟩

/-! ## The plan (R324, R351 to R353) -/

/-- A reserved value in a plan, or PLAN_ID 0 (R351). -/
def planBad (l : List Byte) : Bool :=
  let zero (bs : List Byte) : Bool := bs.all fun b => b == 0
  bfld l 0 4 == 0 || bfld l 4 2 == 0xFFFF || bfld l 6 1 > 1 || !zero ((l.drop 7).take 57) ||
  (List.finRange 16).any fun p =>
    let e := planEntry l p
    bfld e 0 1 > 3 || bfld e 1 1 > 2 || !zero ((e.drop 6).take 2) || bfld e 32 4 ≥ 32 || !zero (e.drop 36)

/-- PORT_DIM of the direct topology (R324). -/
def directDim (p : PortIx) : BitVec 2 := if p.val < 12 then BitVec.ofNat 2 (p.val / 4 + 1) else 0

/-- Why a DOWN port is DOWN, where that shows now (R349). -/
def State.refreshDown (s : State) (p : PortIx) : State :=
  let x := s.ports[p]
  if x.state ≠ .down then s else
  let r : DownReason := if !x.cfg.enabled || s.planMode p = 3 then .disabled
    else if s.bays[bayOf p].state ≠ .active then .noLaser
    else if lit x.waves < 4 then .noPeer
    else if x.reason = .disabled then .command else x.reason
  (s.modPort p fun x => { x with reason := r }).tryTrain p

/-- Compare a port with the plan in force and settle its state (R317, R352). -/
def State.recheck (s : State) (p : PortIx) : State :=
  let x := s.ports[p]
  if !(x.usable || x.state == .held) then s.refreshDown p
  else if s.planMode p = 3 then s.goDown p .disabled
  else
    let s := s.checkCabling p
    let new := s.ports[p].settled
    let s := s.modPort p fun x => { x with state := new }
    if x.usable && new = .held then s.routerDown p else s

/-- Measure the plan in force (R475). -/
def State.measurePlan (s : State) (l : List Byte) : State :=
  { s with fab := { s.fab with plan := some l }, sec := { s.sec with plan := shake256 64 l } }

/-- A plan is put in force: every port is compared with it, and takes its topology (R322, R324, R351, R352). -/
def State.loadPlan (s : State) (plan : List Byte) : State :=
  let direct := bfld plan 6 1 == 1
  let s := (s.measurePlan plan).modFab fun f => { f with transit := direct }
  let s := (List.finRange 16).foldl (fun s p =>
    s.modPort p fun x => { x with cfg := { x.cfg with dim := if direct then directDim p else 0 } }) s
  (List.finRange 16).foldl State.recheck s

/-- PLAN_LOAD (R322, R351, R352). -/
def execPlanLoad (r : ZcpReq) (plan : List Byte) (s : State) : Out :=
  .next (s.zcpStep r { op := 0x0401, early := true, bad := if plan.length = 832 && planBad plan then some .reservedValue else none } fun s =>
    if plan.length ≠ 832 then .err s .lengthRange (some 1) else
    .ok (s.loadPlan plan))

/-- PLAN_READ (R351). -/
def execPlanRead (r : ZcpReq) (s : State) : Out :=
  .next (s.zcpStep r { op := 0x0402, change := false } fun s => .ok s [s.fab.plan.getD (List.replicate 832 0)])

/-- Put bytes into a list at an offset. -/
def putBytes (l : List Byte) (a : Nat) (bs : List Byte) : List Byte := l.take a ++ bs ++ l.drop (a + bs.length)

/-- The entry of a port after PLAN_ACCEPT (R353). -/
def acceptEntry (e : List Byte) (id : Identity) (rev : Nat) : List Byte :=
  let e := putBytes e 0 ([1, id.kind, id.port] ++ leBytes 1 (min (bfld e 3 1) rev) ++ leBytes 2 id.fid.toNat)
  putBytes (putBytes e 8 (serial24 id.serial)) 32 (leBytes 4 (BitVec.ofNat 32 (bfld e 32 4) &&& id.caps).toNat)

/-- The identity that a HELD port observed enters the plan, and the port goes on without retraining (R353). -/
def State.acceptPlan (s : State) (p : PortIx) (id : Identity) (l : List Byte) : State :=
  let l := putBytes l (64 + 48 * p.val) (acceptEntry (planEntry l p) id s.ports[p].rev.toNat)
  let s := (s.measurePlan l).modPort p fun x => { x with outcome := 0 }
  s.modPort p fun x => { x with state := x.settled }

/-- PLAN_ACCEPT (R353): the HELD port's observed identity enters the plan, and the port goes on without retraining. -/
def execPlanAccept (r : ZcpReq) (p : PortIx) (s : State) : Out :=
  .next (s.zcpStep r { op := 0x0403, early := true, target := portTarget p } fun s =>
    match s.ports[p].peer, s.fab.plan with
    | some id, some l =>
      if s.ports[p].state ≠ .held then .err s .portState else .ok (s.acceptPlan p id l)
    | _, _ => .err s .portState)

/-! ## Ports (R304, R329, R349) -/

/-- A value of FABRIC_CONFIG lies outside its range (R282, R313, R315, R316, R320). -/
def fabCfgBad (c : FabCfg) : Bool :=
  let out (o : Option Nat) (lo hi step : Nat) : Bool := (o.map fun v => v < lo || v > hi || v % step != 0).getD false
  out c.stallNs 100 1000000 100 || out c.ceThresh 1 255 1 || out c.rtoNs 100000 1000000000 1 ||
  (c.wclass.map fun w => w.length != 4 || w.any fun v => v < 1 || v > 255).getD false ||
  (c.win.map fun w => w.length != 17 || w.any fun v => v < 1 || v > 15).getD false

/-- A split of R304: twelve buffers of at least 64 flits, 8,192 in all. -/
def splitOk (w : List Nat) : Bool := w.length == 12 && w.all (fun v => 64 ≤ v) && w.sum == 8192

/-- What FABRIC_CONFIG sets for a port. -/
def PortCfg.set (k : PortCfg) (c : FabCfg) : PortCfg :=
  { split := (c.vcSplit.map fun w => Vector.ofFn fun i => w.getD i.val 64).getD k.split
    dim := c.portDim.getD k.dim
    wclass := (c.wclass.map fun w => Vector.ofFn fun i => w.getD i.val 1).getD k.wclass
    win := (c.win.map fun w => Vector.ofFn fun i => w.getD i.val 1).getD k.win
    stall := c.stallNs.getD k.stall, ceThresh := c.ceThresh.getD k.ceThresh
    enabled := c.enable.getD k.enabled, force := c.laneRate.getD k.force }

/-- The settings in force of a port, in the order of the command's parameters. -/
def State.fabSettings (s : State) (p : PortIx) : List (List Byte) :=
  let k := s.ports[p].cfg
  [k.split.toList.flatMap (leBytes 2), leBytes 1 k.dim.toNat, k.wclass.toList.flatMap (leBytes 1), k.win.toList.flatMap (leBytes 1),
   leBytes 4 k.stall, leBytes 1 k.ceThresh, leBytes 4 s.fab.rto, leBytes 1 (if s.fab.transit then 1 else 0),
   leBytes 2 (s.fab.collector.getD 0xFFFF).toNat, leBytes 1 (if k.enabled then 1 else 0), leBytes 1 k.force.val]

/-- The settings of ports and of the fabric are changed (R304, R313 to R322, R329); a port that is disabled goes DOWN. -/
def State.fabricConfigure (s : State) (p : Option PortIx) (c : FabCfg) : State :=
  let ps := match p with | some p => [p] | none => List.finRange 16
  let s := s.modFab fun f => { f with
    rto := c.rtoNs.getD f.rto, transit := c.transit.getD f.transit
    collector := match c.collector with | some x => if x = 0xFFFF then none else some x | none => f.collector
    epStall := if p.isNone then c.stallNs.getD f.epStall else f.epStall }
  ps.foldl (fun s p =>
    let s := s.modPort p fun x => { x with cfg := x.cfg.set c }
    if s.ports[p].cfg.enabled then s.refreshDown p
    else if s.ports[p].state = .down then s.refreshDown p else s.goDown p .disabled) s

/-- FABRIC_CONFIG (R304, R313 to R322, R329): for one port or for all. A split takes effect at the next credit
initialisation, a forced rate at the next training. -/
def execFabricConfig (r : ZcpReq) (p : Option PortIx) (c : FabCfg) (s : State) : Out :=
  .next (s.zcpStep r { op := 0x0404, early := true, target := (p.map portTarget).getD {}, count := some (.fabConfigRefused, 0)
                       bad := if fabCfgBad c then some .reservedValue else none } fun s =>
    if !(c.vcSplit.map splitOk).getD true then .err s .vcSplitRange (some 1) else
    .ok (s.fabricConfigure p c) ((s.fabricConfigure p c).fabSettings (p.getD 0)))

/-- The code of a DOWN reason (R349). -/
def downCode (r : DownReason) : Nat :=
  match r with
  | .none => 0 | .disabled => 1 | .noLaser => 2 | .noPeer => 3 | .trainTimeout => 4 | .tooFewLanes => 5 | .revMismatch => 6
  | .retryExhausted => 7 | .creditError => 8 | .alignmentLost => 9 | .command => 10

/-- The position of a lane state in R339. -/
def laneCode (l : LaneState) : Nat :=
  match l with | .dark => 0 | .locking => 1 | .trained => 2 | .data => 3 | .standby => 4 | .failed => 5

/-- The identity record (R350). -/
def identityBytes (id : Identity) : List Byte :=
  serial24 id.serial ++ [id.kind, id.port, id.revMax, id.revMin] ++ leBytes 4 id.caps.toNat ++ leBytes 2 id.fid.toNat ++
  leBytes 4 id.planId.toNat ++ leBytes 26 0

/-- The lane of each slot, 0xFF for a slot without one. -/
def mapBytes (d : PortDir) : List Byte :=
  (List.range 8).map fun i => if d.skip.getLsbD i then 0xFF else (((d.map.toArray[i]?).join).map fun k => BitVec.ofNat 8 k.val).getD 0xFF

/-- What PORT_STATUS replies (R339, R349, R350, R352). -/
def State.portReply (s : State) (p : PortIx) : List (List Byte) :=
  let x := s.ports[p]
  let lanes (d : PortDir) : List Byte := d.lanes.toList.map fun l => BitVec.ofNat 8 (laneCode l.state)
  [leBytes 1 x.state.code ++ leBytes 1 x.outcome, leBytes 1 (if x.state = .down then downCode x.reason else 0),
    lanes x.tx ++ lanes x.rx ++ mapBytes x.tx ++ mapBytes x.rx,
    (x.peer.map identityBytes).getD (List.replicate 64 0), [x.rev], leBytes 4 x.roundTrip]

/-- PORT_STATUS (R339, R349, R350, R352). -/
def execPortStatus (r : ZcpReq) (p : PortIx) (s : State) : Out :=
  .next (s.zcpStep r { op := 0x0405, change := false, target := portTarget p } fun s => .ok s (s.portReply p))

/-- PORT_RETRAIN (R349). -/
def execPortRetrain (r : ZcpReq) (p : PortIx) (s : State) : Out :=
  .next (s.zcpStep r { op := 0x0406, early := true, target := portTarget p } fun s =>
    if s.ports[p].state = .down then .ok ((s.modPort p fun x => { x with retryAt := s.clock }).refreshDown p) else .ok (s.goDown p .command))

/-! ## Routes (R308, R310) -/

/-- Write a route entry; an entry of 0 is not listed. -/
def setRoute (k : Nat) (e : BitVec 64) (xs : List (Nat × BitVec 64)) : List (Nat × BitVec 64) :=
  let rest := xs.filter fun x => x.1 != k
  if e = 0 then rest else (k, e) :: rest

/-- ROUTE_WRITE (R310). -/
def execRouteWrite (r : ZcpReq) (first : Nat) (es : List (BitVec 64)) (s : State) : Out :=
  .next (s.zcpStep r { op := 0x0410, early := true, bad := if es.any fun e => rtFld e 35 1 != 0 then some .reservedValue else none } fun s =>
    if es.length < 1 || es.length > 1024 || first + es.length > 65536 then .err s .lengthRange (some 2)
    else if es.any fun e => e.getLsbD 0 && rtFld e 41 36 == 0 then .err s .reservedValue (some 2)
    else .ok (s.modFab fun f => { f with routes := es.zipIdx.foldl (fun rs x => setRoute (first + x.2) x.1 rs) f.routes }))

/-- ROUTE_READ (R310). -/
def execRouteRead (r : ZcpReq) (first count : Nat) (s : State) : Out :=
  .next (s.zcpStep r { op := 0x0411, change := false } fun s =>
    if count < 1 || count > 1024 || first + count > 65536 then .err s .lengthRange (some 2)
    else .ok s [(List.range count).flatMap fun k => leBytes 8 (s.route (BitVec.ofNat 16 (first + k))).toNat])

/-! ## Windows (R264 to R266) -/

/-- Reserved bits of a window entry, JOB = 0 or V = 0 (R265). -/
def winBad (e : BitVec 256) : Bool :=
  winField e 255 240 != 0 || winField e 95 44 != 0 || winField e 19 5 != 0 || winJob e == 0 || !e.getLsbD 0

/-- WINDOW_OPEN (R265). -/
def execWindowOpen (r : ZcpReq) (ix : Nat) (e : BitVec 256) (s : State) : Out :=
  .next (s.zcpStep r { op := 0x0420, count := some (.fabWindowOpenRefused, 0), bad := if ix > 16383 || winBad e then some .reservedValue else none }
    fun s =>
      let w := winWbase e
      let n := winLen e
      if s.fab.windows.any fun x => x.1 == ix then .err s .windowExists
      else if w % 4096 ≠ 0 || winLbase e % 4096 ≠ 0 || n % 4096 ≠ 0 || n = 0 || w + n > 2 ^ 48 || winLbase e + n > 2 ^ 48 then .err s .alignment
      else if (s.job (winOwner e)).isNone then .err s .windowOwner
      else if s.fab.windows.any fun x => winJob x.2 == winJob e && winWbase x.2 < w + n && w < winWbase x.2 + winLen x.2 then .err s .windowOverlap
      else .ok (s.modFab fun f => { f with windows := f.windows ++ [(ix, e)] }))

/-- WINDOW_CLOSE (R266). Packets that the entry admitted have been written when the reply is sent: each command is whole. -/
def execWindowClose (r : ZcpReq) (ix : Nat) (s : State) : Out :=
  .next (s.zcpStep r { op := 0x0421, bad := if ix > 16383 then some .reservedValue else none } fun s =>
    .ok (s.modFab fun f => { f with windows := f.windows.filter fun x => x.1 != ix }))

/-- WINDOW_READ (R265). -/
def execWindowRead (r : ZcpReq) (ix : Nat) (s : State) : Out :=
  .next (s.zcpStep r { op := 0x0422, change := false, bad := if ix > 16383 then some .reservedValue else none } fun s =>
    .ok s [leBytes 32 (((s.fab.windows.find? fun x => x.1 == ix).map Prod.snd).getD 0).toNat])

/-- FABRIC_CONG_READ (R321). -/
def execFabricCongRead (r : ZcpReq) (s : State) : Out :=
  .next (s.zcpStep r { op := 0x0430, change := false } fun s => .ok s [s.congMap])

/-! ## Topologies and groups (R379 to R382) -/

/-- Positions of a topology. -/
def Topo.positions (t : Topo) : Nat := t.sizes.foldl (· * ·) 1

/-- A topology is complete (R379). -/
def Topo.complete (t : Topo) : Bool := t.fids.length == t.positions

/-- Put a topology in place of its job's. -/
def State.setTopo (s : State) (t : Topo) : State := s.modColl fun c => { c with topos := t :: c.topos.filter fun x => x.job != t.job }

/-- The topology after a part of it is loaded: a first part begins anew, a later one continues what is there; none
where it does not (R379). -/
def State.topoPart (s : State) (job : BitVec 12) (naxes : Nat) (sizes : List Nat) (first : Nat) (fids : List (BitVec 16)) : Option Topo :=
  if first = 0 then some { job := job, naxes := naxes, sizes := sizes ++ List.replicate (4 - naxes) 1, fids := fids }
  else (s.coll.topos.find? fun t => t.job == job).bind fun t =>
    if t.naxes = naxes && t.sizes = sizes ++ List.replicate (4 - naxes) 1 && first = t.fids.length && !t.complete
    then some { t with fids := t.fids ++ fids } else none

/-- Sizes that TOPO_LOAD reserves (R379). -/
def topoBad (job : BitVec 12) (naxes : Nat) (sizes : List Nat) : Bool :=
  naxes < 1 || naxes > 4 || sizes.length ≠ naxes || sizes.any (fun v => v < 1 || v > 65536) || sizes.foldl (· * ·) 1 > 65536 || job = 0

/-- TOPO_LOAD (R379). -/
def execTopoLoad (r : ZcpReq) (job : BitVec 12) (naxes : Nat) (sizes : List Nat) (first : Nat) (fids : List (BitVec 16)) (s : State) : Out :=
  let p := sizes.foldl (· * ·) 1
  .next (s.zcpStep r { op := 0x0440, target := jobTarget job, count := some (.collGroupRefused, 0)
                       bad := if topoBad job naxes sizes then some .reservedValue else none }
    fun s =>
      if (s.job job).isNone then .err s .jobUnknown
      else if fids.length < 1 || fids.length > 16384 then .err s .lengthRange
      else match s.topoPart job naxes sizes first fids with
      | none => .err s .topoInvalid
      | some t =>
        if t.fids.length > p then .err s .topoInvalid
        else if t.complete && (t.fids.filter fun f => s.fid == some f).length ≠ 1 then
          .err (if first = 0 then s else s.modColl fun c => { c with topos := c.topos.filter fun x => x.job != job }) .topoInvalid
        else if ((s.coll.topos.filter fun x => x.job != job).map Topo.positions).sum + p > 262144 then .err s .groupLimit
        else if first = 0 && s.coll.groups.any fun g => g.job == job then .err s .groupBusy
        else .ok (s.setTopo t) [leBytes 4 t.fids.length, leBytes 1 (if t.complete then 1 else 0)])

/-- Fields of a record's axis a (R380). -/
def axisMode (g : GroupRecord) (a : Nat) : Nat := recField g (8 + 8 * a) 1
def axisOrigin (g : GroupRecord) (a : Nat) : Nat := recField g (10 + 8 * a) 2
def axisExtent (g : GroupRecord) (a : Nat) : Nat := recField g (12 + 8 * a) 2

/-- Reserved bytes and encodings of a group record (R380). -/
def groupReserved (g : GroupRecord) : Bool :=
  recField g 2 2 ≥ 4096 || recField g 4 1 > 1 || recField g 5 3 != 0 || recField g 46 2 != 0 || recField g 54 2 != 0 ||
  recField g 58 2 != 0 || recField g 72 56 != 0 ||
  (List.range 4).any fun a => axisMode g a > 1 || recField g (9 + 8 * a) 1 != 0 || recField g (14 + 8 * a) 2 != 0

/-- Values of a group record out of range (R380). -/
def groupValues (g : GroupRecord) : Bool :=
  let bad (off n lo hi : Nat) : Bool := let v := recField g off n; v != 0 && (v < lo || v > hi)
  recField g 48 6 % 0x200000 != 0 || recField g 56 2 < 1 || recField g 56 2 > 64 ||
  bad 60 4 4096 1048576 || recField g 60 4 % 4096 != 0 || bad 64 4 1 60000 || bad 68 2 10 10000 || bad 70 2 10 10000

/-- Coordinates of a position (R379). -/
def coords (sizes : List Nat) (k : Nat) : List Nat :=
  let z (a : Nat) : Nat := sizes.getD a 1
  [k % z 0, k / z 0 % z 1, k / z 0 / z 1 % z 2, k / z 0 / z 1 / z 2 % z 3]

/-- The index of a position (R379). -/
def posIx (sizes xs : List Nat) : Nat :=
  let z (a : Nat) : Nat := sizes.getD a 1
  let x (a : Nat) : Nat := xs.getD a 0
  x 0 + z 0 * (x 1 + z 1 * (x 2 + z 2 * x 3))

/-- Members of a group by rank, as positions, from the own coordinates (R381). -/
def members (g : GroupRecord) (sizes own : List Nat) : List Nat :=
  let axis (a : Nat) : List Nat :=
    if axisMode g a = 1 then (List.range (axisExtent g a + 1)).map fun o => (axisOrigin g a + o) % sizes.getD a 1 else [own.getD a 0]
  (axis 3).flatMap fun x3 => (axis 2).flatMap fun x2 => (axis 1).flatMap fun x1 => (axis 0).map fun x0 => posIx sizes [x0, x1, x2, x3]

/-- The conditions of GROUP_DEFINE in their order (R379 to R381): the status that refuses it, or the rank of the module
and the FIDs of the members. -/
def State.groupCheck (s : State) (g : GroupRecord) : Except Status (Nat × List (BitVec 16)) :=
  let gid := BitVec.ofNat 16 (recField g 0 2)
  let job := BitVec.ofNat 12 (recField g 2 2)
  if (s.job job).isNone then .error .jobUnknown else
  match s.coll.topos.find? fun t => t.job == job && t.complete with
  | none => .error .groupInvalid
  | some t =>
    let fid := s.fid.getD 0xFFFF
    match t.fids.findIdx? fun f => f == fid with
    | none => .error .notMember
    | some me =>
    if (List.range 4).any fun a => axisMode g a = 1 && axisExtent g a + 1 > t.sizes.getD a 1 then .error .groupInvalid else
    let ms := members g t.sizes (coords t.sizes me)
    let fids := ms.map fun k => (t.fids[k]?).getD 0xFFFF
    if fids.any fun f => f == 0xFFFF then .error .groupInvalid
    else match ms.findIdx? fun k => k == me with
    | none => .error .notMember
    | some rank =>
      let cw := recField g 40 6
      if (s.group gid).isSome then .error .groupExists
      else if s.coll.groups.length ≥ 1024 then .error .groupLimit
      else if groupValues g then .error .reservedValue
      else if !(s.fab.windows.any fun w => winHas w.2 job cw && winOwner w.2 == job && w.2.getLsbD 2 && cw + 256 ≤ winWbase w.2 + winLen w.2)
      then .error .noWindow
      else .ok (rank, fids)

/-- GROUP_DEFINE (R380, R381): its TARGET is the record's group. -/
def execGroupDefine (r : ZcpReq) (g : GroupRecord) (s : State) : Out :=
  let gid := BitVec.ofNat 16 (recField g 0 2)
  let job := BitVec.ofNat 12 (recField g 2 2)
  .next (s.zcpStep r { op := 0x0441, target := groupTarget gid, count := some (.collGroupRefused, 0)
                       bad := if groupReserved g then some .reservedValue else none } fun s =>
    match s.groupCheck g with
    | .error e => .err s e
    | .ok (rank, fids) =>
      .ok (s.modColl fun c => { c with groups := c.groups ++ [{ id := gid, job := job, record := g, rank := rank, fids := fids }] })
        [leBytes 2 rank, leBytes 4 fids.length])

/-- GROUP_DELETE (R381). -/
def execGroupDelete (r : ZcpReq) (g : BitVec 16) (s : State) : Out :=
  .next (s.zcpStep r { op := 0x0442, target := groupTarget g } fun s =>
    if (s.group g).isNone then .err s .groupUnknown
    else if s.coll.ctxs.any fun x => x.group == g then .err s .groupBusy
    else .ok (s.modColl fun c => { c with groups := c.groups.filter fun x => x.id != g }))

/-- GROUP_READ (R382). -/
def execGroupRead (r : ZcpReq) (g : BitVec 16) (s : State) : Out :=
  .next (s.zcpStep r { op := 0x0443, change := false, target := groupTarget g } fun s =>
    match s.group g with
    | none => .err s .groupUnknown
    | some x => .ok s [leBytes 128 x.record.toNat, leBytes 2 (defCrc x.record)])

/-- A completion record (R386). -/
def CollRec.bytes (c : CollRec) : List Byte :=
  leBytes 2 c.group.toNat ++ leBytes 2 c.job.toNat ++ leBytes 4 c.seq.toNat ++ leBytes 8 c.time.toNat ++ leBytes 1 c.op ++ leBytes 1 c.dtype ++
  leBytes 1 c.algo ++ [c.flags] ++ leBytes 4 c.count ++ leBytes 2 c.status.toNat ++ leBytes 2 c.planes.toNat ++ leBytes 4 0

/-- COLL_STATUS (R386): live contexts, and the last completion records, oldest first. -/
def execCollStatus (r : ZcpReq) (g : Option (BitVec 16)) (count : Nat) (s : State) : Out :=
  .next (s.zcpStep r { op := 0x0444, change := false, target := (g.map groupTarget).getD {} } fun s =>
    if count > 1024 then .err s .lengthRange (some 1)
    else if (g.map fun g => (s.group g).isNone).getD false then .err s .groupUnknown
    else
      let mine (x : BitVec 16) : Bool := (g.map fun g => g == x).getD true
      let live := s.coll.ctxs.filter fun x => mine x.group
      let recs := s.coll.history.filter fun x => mine x.group
      .ok s [live.flatMap fun x => leBytes 2 x.group.toNat ++ leBytes 2 x.job.toNat ++ leBytes 4 x.seq.toNat ++
               leBytes 1 ((if x.issue.isSome then 1 else 0) + (if x.held then 2 else 0)) ++ leBytes 3 0,
             (recs.drop (recs.length - count)).flatMap CollRec.bytes])

end Sys2Proof.Machine
end

