-- ==== Sys2Proof/Machine/MapControl.lean ====
section
/-! DEFINITION. The map commands MAP_RANGE, UNMAP_RANGE, PROTECT_RANGE and MAP_READ, and the commands of the stacks,
MEM_FLUSH and MEM_STATUS (R199, R206, R215 to R223, R450). -/

namespace Sys2Proof.Machine

/-! ## Reading and writing a job map (R215 to R218, R221) -/

/-- What an entry is to the control processor (R218, R221): `bad` is malformed, or in a poisoned line. -/
inductive EntryIs where
  | empty | bad | leaf | table (base : Nat)
  deriving DecidableEq, Repr

/-- An entry of a job map: its physical address, level, first job address, bits and kind. -/
structure MapEntry where
  place : Nat
  level : Nat
  v : Nat
  raw : Nat
  kind : EntryIs
  deriving DecidableEq, Repr

/-- Kind of the entry at a physical address (R218, R221). -/
def State.entryIs (s : State) (level a : Nat) : EntryIs :=
  if s.badLine a then .bad else
  match entryKind level (leNat (s.readPhys a 8)) with
  | (none, mal) => if mal then .bad else .empty
  | (some (leaf, addr), _) => if leaf then .leaf else .table addr

/-- Entries of a table at a level that meet the job addresses lo to hi − 1, with those of the tables below them. -/
def State.entriesIn (s : State) : Nat → Nat → Nat → Nat → Nat → Nat → List MapEntry
  | 0, _, _, _, _, _ => []
  | f + 1, level, table, base, lo, hi =>
    let size := 2 ^ levelBits level
    let first := (lo - base) / size
    let count := if level = 1 then 2 ^ 18 else if level = 2 then 512 else 32
    let last := min count (ceilDiv (hi - base) size)
    (List.range (last - first)).flatMap fun k =>
      let a := table + 8 * (first + k)
      let v := base + (first + k) * size
      let x : MapEntry := ⟨a, level, v, leNat (s.readPhys a 8), s.entryIs level a⟩
      match x.kind with
      | .table t => x :: s.entriesIn f (level + 1) t v lo hi
      | _ => [x]

/-- Entries of a job's map that meet a range (R215). -/
def State.mapEntries (s : State) (j : Job) (a len : Nat) : List MapEntry := s.entriesIn 3 1 j.p.root 0 a (a + len)

/-- The entry lies wholly in a range. -/
def MapEntry.within (e : MapEntry) (a len : Nat) : Bool := a ≤ e.v && e.v + 2 ^ levelBits e.level ≤ a + len

/-- Write an entry; a poisoned line is rewritten whole (R221). -/
def State.writeEntry (s : State) (a e : Nat) : State :=
  if s.badLine a then
    s.writePhys (a / 64 * 64) (List.replicate (a % 64) 0 ++ leBytes 8 e ++ List.replicate (56 - a % 64) 0)
  else s.writePhys a (leBytes 8 e)

/-- The bits of a leaf and of a table pointer (R217). -/
def leafBits (phys : Nat) (rd wr : Bool) : Nat := phys / 256 * 2 ^ 16 + (if wr then 8 else 0) + (if rd then 4 else 0) + 3
def pointerBits (table : Nat) : Nat := table / 256 * 2 ^ 16 + 1

/-- Map one page from a table down to the level of its leaf, allocating tables where they are missing; `next` is the
pool's first free byte. None when the pool cannot supply a table (R216, R221). -/
def State.mapPage (s : State) (j : Job) (v target leaf : Nat) : Nat → Nat → Nat → Nat → Option (State × Nat)
  | 0, _, _, _ => none
  | f + 1, level, table, next =>
    let ix := if level = 1 then v / 2 ^ 30 else if level = 2 then v / 2 ^ 21 % 512 else v / 2 ^ 16 % 32
    let a := table + 8 * ix
    if level = target then some (s.writeEntry a leaf, next) else
    match s.entryIs level a with
    | .table t => s.mapPage j v target leaf f (level + 1) t next
    | _ =>
      let size := if level = 1 then 4096 else 256
      let n := ceilDiv next size * size
      if n + size > j.p.poolSize then none else
      let t := j.p.poolBase + n
      let s := (s.writePhys t (List.replicate size 0)).writeEntry a (pointerBits t)
      s.mapPage j v target leaf f (level + 1) t (n + size)

/-- The physical checks of one page (R199). -/
def State.pageCheck (s : State) (phys page : Nat) : Option Status :=
  match stackOf phys with
  | some m =>
    if phys % 0x2000000000 + page > stackSize then some .physRange
    else if s.hbm[m].offline then some .stackOffline
    else none
  | none =>
    match tileOf phys with
    | some t => if page ≠ 65536 then some .physRange else if s.tileOffline t then some .tileOffline else none
    | none => some .physRange

/-- A physical range named by another command lies wholly within one stack that is online (R199). -/
def State.rangeCheck (s : State) (base size : Nat) : Option Status :=
  match stackOf base with
  | none => some .physRange
  | some m =>
    if base % 0x2000000000 + size > stackSize then some .physRange
    else if s.hbm[m].offline then some .stackOffline
    else none

/-- Drop what the map and walk caches hold of a job in a range (R222, R223). -/
def State.shootDown (s : State) (j : BitVec 12) (a len : Nat) : State :=
  let meets (v size : Nat) : Bool := v < a + len && a < v + size
  { s with xlat := s.xlat.map fun x =>
    { cache := x.cache.filter fun e => !(e.job == j && meets (e.page * 2 ^ e.size) (2 ^ e.size))
      walks := x.walks.filter fun e =>
        let size := 2 ^ levelBits e.level
        !(e.job == j && meets (e.index * size) size) } }

/-- A poisoned line of a table is rewritten whole (R221): what the caches hold of its other entries goes too. -/
def State.shootLines (s : State) (j : BitVec 12) (es : List MapEntry) : State :=
  es.foldl (fun s e =>
    let size := 2 ^ levelBits e.level
    if e.kind == .bad then s.shootDown j (e.v - min e.v (e.place % 64 / 8 * size)) (8 * size) else s) s

/-- Count the malformed and poisoned entries that a map command met (R221). -/
def State.countBad (s : State) (es : List MapEntry) : State :=
  s.bump .xlatMalformed 0 0 (es.filter fun e => e.kind == .bad).length

/-! ## The map commands (R221 to R223) -/

/-- What a map command of a resident job shares: a length of 0 is a no-op, and the range lies in the map (R221). -/
def State.mapCmd (s : State) (job : BitVec 12) (addr len : Nat) (f : Job → Ans) : Ans :=
  match s.job job with
  | none => .err s .jobUnknown
  | some j =>
    if len = 0 then .ok s
    else if addr + len > j.p.rootLen * 2 ^ 30 || addr + len > 2 ^ 48 then .err s .lengthRange (some 2)
    else f j

/-- The pages of a mapping, one after the other, with the tables they need; none when the pool cannot supply a table
(R216, R221). -/
def State.mapPages (s : State) (j : Job) (addr len phys page : Nat) (rd wr : Bool) : Option (State × Nat) :=
  let target := if page = 2 ^ 30 then 1 else if page = 2 ^ 21 then 2 else 3
  (List.range (len / page)).foldl (fun (acc : Option (State × Nat)) k => acc.bind fun (s, next) =>
    s.mapPage j (addr + k * page) target (leafBits (phys + k * page) rd wr) 3 1 j.p.root next) (some (s, j.poolNext))

/-- The first page of a mapping that lies nowhere it may (R199). -/
def State.pagesCheck (s : State) (len phys page : Nat) : Option Status :=
  (List.range (len / page)).findSome? fun k => s.pageCheck (phys + k * page) page

/-- Every page of a job-address range is mapped (R215, R221). -/
def State.mapped (s : State) (j : Job) (a len : Nat) : Bool :=
  (pieces 65536 (len + 1) a len).all fun p => (s.mapEntries j p.1 1).any fun e => e.kind == .leaf

/-- The header of the trace area, which JOB_LOAD writes with COUNT 0 (R166): it lands as soon as the job's map has a page
for it that may be written (log 35). -/
def State.writeHeader (s : State) (job : BitVec 12) : State :=
  match s.job job with
  | none => s
  | some j =>
    if !j.header || !s.mapped j j.p.traceBase.toNat 64 then s else
    match s.writeJob 6 j j.p.traceBase.toNat (leBytes 8 0 ++ leBytes 8 ((j.p.traceLen - 64) / 32) ++ leBytes 48 0) with
    | (s, none) => s.modJob job fun b => { b with header := false }
    | (_, some _) => s

/-- A mapping takes its place: the pool, the counters, and what the caches still hold of the entries written over
(R216, R221, R222). -/
def State.mapInstall (s : State) (job : BitVec 12) (next : Nat) (es : List MapEntry) (addr len : Nat) : State :=
  ((s.modJob job fun b => { b with poolNext := next }).countBad es).shootLines job es |>.shootDown job addr len |>.writeHeader job

/-- A page size or permissions that MAP_RANGE reserves (R215, R217). -/
def mapBad (len page : Nat) (rd wr : Bool) : Bool :=
  len != 0 && ((page != 2 ^ 30 && page != 2 ^ 21 && page != 65536) || (!rd && !wr))

/-- MAP_RANGE (R199, R221, R222). -/
def execMapRange (r : ZcpReq) (job : BitVec 12) (addr : Nat) (len : Nat) (phys : Nat) (page : Nat) (rd wr : Bool) (s : State) : Out :=
  .next (s.zcpStep r { op := 0x0301, target := jobTarget job, count := some (.memMapRefused, 0)
                       bad := if mapBad len page rd wr then some .reservedValue else none }
    fun s => s.mapCmd job addr len fun j =>
      let es := s.mapEntries j addr len
      if addr % page ≠ 0 || phys % page ≠ 0 || len % page ≠ 0 then .err s .mapAlign
      else if es.any fun e => e.kind == .leaf then .err s .mapOverlap
      else
        match s.mapPages j addr len phys page rd wr with
        | none => .err s .tableFull
        | some (s', next) =>
          match s.pagesCheck len phys page with
          | some st => .err s st
          | none => .ok (s'.mapInstall job next es addr len))

/-- A change of the leaves of a range (R221, R223): `f` gives an entry's new bits, or leaves it. -/
def State.rewriteLeaves (s : State) (job : BitVec 12) (addr len : Nat) (f : MapEntry → Option Nat) : Ans :=
  s.mapCmd job addr len fun j =>
    let es := s.mapEntries j addr len
    if es.any fun e => e.kind == .leaf && !e.within addr len then .err s .mapAlign
    else
      let s := es.foldl (fun s e => match f e with | some x => s.writeEntry e.place x | none => s) s
      .ok (((((s.countBad es).shootLines job es).shootDown job addr len).bump .xlatShootdowns).writeHeader job)

/-- UNMAP_RANGE (R221, R223). -/
def execUnmapRange (r : ZcpReq) (job : BitVec 12) (addr : Nat) (len : Nat) (s : State) : Out :=
  .next (s.zcpStep r { op := 0x0302, target := jobTarget job, count := some (.memMapRefused, 0) } fun s =>
    s.rewriteLeaves job addr len fun e =>
      if e.within addr len && (e.kind == .leaf || e.kind == .bad) then some 0 else none)

/-- PROTECT_RANGE (R221, R223). -/
def execProtectRange (r : ZcpReq) (job : BitVec 12) (addr : Nat) (len : Nat) (rd wr : Bool) (s : State) : Out :=
  .next (s.zcpStep r { op := 0x0303, target := jobTarget job, count := some (.memMapRefused, 0)
                       bad := if len != 0 && !rd && !wr then some .reservedValue else none } fun s =>
    s.rewriteLeaves job addr len fun e =>
      if e.kind == .leaf then some (leafBits (e.raw / 2 ^ 16 % 2 ^ 34 * 256) rd wr) else none)

/-- MAP_READ (R217, R450): the leaf entry and its level. -/
def execMapRead (r : ZcpReq) (job : BitVec 12) (addr : BitVec 48) (s : State) : Out :=
  .next (s.zcpStep r { op := 0x0304, change := false, target := jobTarget job } fun s =>
    match s.job job with
    | none => .err s .jobUnknown
    | some j =>
      if addr.toNat ≥ j.p.rootLen * 2 ^ 30 then .err s .notMapped else
      match (s.mapEntries j addr.toNat 1).find? fun e => e.kind == .leaf with
      | some e => .ok s [leBytes 8 e.raw, leBytes 1 e.level]
      | none => .err s .notMapped)

/-! ## The stacks (R199, R206, R208, R209) -/

/-- The TARGET of a stack (R436). -/
def stackTarget (m : StackIx) : Target := ⟨3, BitVec.ofNat 24 m.val⟩

/-- MEM_FLUSH (R206): every entry of the stack, or of a range within it. -/
def execMemFlush (r : ZcpReq) (m : StackIx) (range : Option (Nat × Nat)) (s : State) : Out :=
  .next (s.zcpStep r { op := 0x0305, frozen := true, target := stackTarget m } fun s =>
    let refuse (st : Status) : Ans := .err (s.bump .memMapRefused) st
    match range with
    | none => if s.hbm[m].offline then refuse .stackOffline else .ok (s.flushWhere m (fun _ => true) .memWcbFlushFence)
    | some (base, size) =>
      if stackOf base ≠ some m then refuse .physRange else
      match s.rangeCheck base size with
      | some st => refuse st
      | none => .ok (s.flushWhere m (fun e => e.line * 64 < base + size && base < e.line * 64 + 64) .memWcbFlushFence))

/-- The failed pseudo-channels of MEM_STATUS: a byte for each, its number plus 1, or one byte 0 for none (R437, log 9). -/
def failedBytes (k : Stack) : List Byte := if k.failedPcs.isEmpty then [0] else k.failedPcs.flatMap fun p => leBytes 1 (p + 1)

/-- MEM_STATUS (R37, R208, R209). -/
def execMemStatus (r : ZcpReq) (m : StackIx) (s : State) : Out :=
  .next (s.zcpStep r { op := 0x0306, change := false, target := stackTarget m } fun s =>
    let k := s.hbm[m]
    .ok s [leBytes 1 (if k.offline then 1 else 0), failedBytes k, leBytes 1 (if k.spareUsed then 1 else 0),
      leBytes 8 (s.ctr ⟨.memRepairRows, m.val, 0, 0⟩).toNat ++ leBytes 8 (s.ctr ⟨.memRepairExhausted, m.val, 0, 0⟩).toNat])

end Sys2Proof.Machine
end

