-- ==== Sys2Proof/Machine/JobControl.lean ====
section
/-! DEFINITION. The job commands 0x0201 to 0x020A (R226, R227, R233, R240 to R248, R259, R450). -/

namespace Sys2Proof.Machine

/-! ## JOB_LOAD (R216, R235, R240 to R242) -/

/-- The first status that some check gives, in the order of the list (R548). -/
def firstBad (cs : List (Bool × Status)) : Option Status := (cs.find? fun c => c.1).map Prod.snd

/-- Save areas of one die (R199, R235): the status of a base outside its stack, of an area that runs past the end of its
stack, or of a die without a stack. -/
def State.saveAreaCheck (s : State) (p : JobParams) (d : Nat) : Option Status :=
  let on := s.onlineStacks d
  let n := p.nrows * p.ncols
  if on.isEmpty then some .stackOffline else
  on.zipIdx.findSome? fun (k, i) =>
    let blocks := (n + on.length - 1 - i) / on.length
    let base := ((p.saveBases[d]?).bind fun bs => bs[k]?).getD 0
    let low := stackBase (4 * d + k)
    if base < low || low + stackSize ≤ base then some .saveAreaRange
    else if base + 4096 + blocks * 0x147000 ≤ low + stackSize then none else some .physRange

/-- Dies of a group. -/
def groupDies (p : JobParams) : List Nat := (List.range 6).filter p.dieMask.getLsbD

/-- Reserved encodings of JOB_LOAD (R240, R241, R437): job ID 0, PRIORITY, fault policy, and four bases for each die. -/
def jobLoadBad (job : BitVec 12) (p : JobParams) : Option Status :=
  if job = 0 || p.priority > 7 || p.policy > 2 then some .reservedValue
  else if (groupDies p).any fun d => ((p.saveBases[d]?).map List.length).getD 0 ≠ 4 then some .paramMissing
  else none

/-- The table pool and the root (R199, R215, R216). -/
def State.poolCheck (s : State) (p : JobParams) : Option Status :=
  (firstBad [
    (p.rootLen < 1 || p.rootLen > 262144, .lengthRange),
    (p.poolSize % 4096 ≠ 0 || p.poolSize < 65536 || p.poolSize > 2 ^ 32, .lengthRange),
    (s.rangeCheck p.poolBase p.poolSize == some .physRange || p.root ≠ p.poolBase, .physRange),
    (s.rangeCheck p.poolBase p.poolSize == some .stackOffline, .stackOffline),
    (8 * p.rootLen > p.poolSize, .tableFull),
    (p.poolBase % 4096 ≠ 0, .alignment)])

/-- The period parameters, where PERIODIC is 1 (R241, R250). -/
def State.periodCheck (s : State) (p : JobParams) : Option Status :=
  if !p.periodic then none else
  firstBad [
    ((s.jobs.filter fun k => k.p.periodic).length ≥ 16, .periodLimit),
    (p.period < 100000 || p.period > 1000000000, .periodRange),
    (p.deadline < 10000 || p.deadline + (if p.finish then 30000 else 10000) > p.period, .periodRange),
    (p.leadUs > 1000, .periodRange),
    (p.reportCount < 16 || p.reportCount > 4096, .lengthRange),
    (p.reportBase.toNat + 128 * p.reportCount > p.rootLen * 2 ^ 30, .notMapped),
    (p.staleWords.length > 8, .lengthRange),
    (p.staleWords.any fun a => a.toNat % 8 ≠ 0, .alignment)]

/-- The conditions of JOB_LOAD in the order of R241. -/
def State.jobLoadCheck (s : State) (job : BitVec 12) (p : JobParams) : Option Status :=
  (firstBad [
    ((s.job job).isSome, .jobExists),
    (s.jobs.length ≥ 64, .jobLimit),
    (p.dieMask = 0, .groupRange),
    (p.nrows < 1 || p.row0 + p.nrows > 16, .groupRange),
    (p.ncols < 1 || p.col0 + p.ncols > 32, .groupRange),
    (p.imageMoves < 1 || p.imageMoves > 2048, .lengthRange),
    (p.image.toNat + 32 * p.imageMoves > p.rootLen * 2 ^ 30, .notMapped),
    (p.pbase % 32 ≠ 0, .alignment),
    (p.pbase + 32 * p.imageMoves > sramSize || p.entry ≥ p.imageMoves || (p.periodic && p.periodEntry ≥ p.imageMoves), .lengthRange)]).orElse fun _ =>
  (s.poolCheck p).orElse fun _ =>
  ((groupDies p).findSome? fun d => s.saveAreaCheck p d).orElse fun _ =>
  (firstBad [
    (p.policy = 1 && (p.holdMs < 1 || p.holdMs > 60000), .reservedValue),
    (p.traceLen ≠ 0 && (p.traceLen < 4096 || p.traceLen > 2 ^ 30), .lengthRange),
    (p.traceLen ≠ 0 && p.traceBase.toNat + p.traceLen > p.rootLen * 2 ^ 30, .notMapped)]).orElse fun _ =>
  (s.periodCheck p).orElse fun _ =>
  firstBad [
    ((jobTiles p).any s.tileOffline, .tileOffline),
    (p.periodic && s.time.state != .sync, .timeUnsync),
    (s.jobs.any fun k => groupsOverlap k.p p && (k.p.priority == p.priority || (k.p.periodic && p.periodic)), .groupConflict)]

/-- The lowest period slot that no resident job holds (R240). -/
def State.freeSlot (s : State) : Nat :=
  ((List.range 16).find? fun k => !(s.jobs.any fun j => (j.period.map Period.slot) == some k)).getD 0

/-- A job becomes resident: its root table is empty, and it is LOADED (R216, R240, R244). -/
def State.loadJob (s : State) (job : BitVec 12) (p : JobParams) : State :=
  let j : Job := { id := job, p := p, poolNext := 8 * p.rootLen, header := p.traceLen != 0
                   period := if p.periodic then some { slot := s.freeSlot } else none }
  let s := s.writePhys p.root (List.replicate (8 * p.rootLen) 0)
  { s with jobs := s.jobs ++ [j] }.bump .jobLoads

/-- JOB_LOAD (R240 to R242). -/
def execJobLoad (r : ZcpReq) (job : BitVec 12) (p : JobParams) (s : State) : Out :=
  .next (s.zcpStep r { op := 0x0201, target := jobTarget job, count := some (.jobLoadRefused, 0), bad := jobLoadBad job p } fun s =>
    match s.jobLoadCheck job p with
    | some st =>
      let map := st == .physRange || st == .stackOffline || st == .tileOffline
      .err (if map then s.bump .memMapRefused else s) st
    | none => .ok (s.loadJob job p))

/-! ## Start, stop, unload (R243, R244, R250) -/

/-- A command on a resident job. -/
def State.jobCmd (s : State) (job : BitVec 12) (f : Job → Ans) : Ans :=
  match s.job job with
  | none => .err s .jobUnknown
  | some j => f j

/-- A job is started: its first period is fixed, and it is runnable (R243, R247, R250). -/
def State.startJob (s : State) (j : Job) : State :=
  let n := firstPeriod j.p s.globalT
  (s.modJob j.id fun b => { b with
    startWanted := true
    period := b.period.map fun q => { q with started := true, n0 := n, n := n - 1, fallen := n - 1 } }).scheduleJobs

/-- JOB_START (R243, R247, R250). -/
def execJobStart (r : ZcpReq) (job : BitVec 12) (s : State) : Out :=
  .next (s.zcpStep r { op := 0x0202, target := jobTarget job } fun s => s.jobCmd job fun j =>
    if j.state ≠ .loaded || j.startWanted then .err s .jobBusy
    else .ok (s.startJob j))

/-- JOB_STOP (R244). -/
def execJobStop (r : ZcpReq) (job : BitVec 12) (s : State) : Out :=
  .next (s.zcpStep r { op := 0x0203, target := jobTarget job } fun s => s.jobCmd job fun _ => .ok (s.endJob job .success))

/-- Everything that goes with a job that is unloaded (R178, R244, R265, R415). -/
def State.unloadJob (s : State) (j : BitVec 12) : State :=
  let s := (s.dropRdma j).dropJobCtxs j
  let mine (x : Slot) : Bool := (x.loaded || x.loading.isSome) && x.owner == j
  let s := s.modPpe fun y => { y.forget (fun n => mine y.slots[n]) with slots := y.slots.map fun x => if mine x then {} else x }
  let s := s.dropPpe fun e => e.job == j
  let s := { s with
    fab := { s.fab with windows := s.fab.windows.filter fun w => winJob w.2 != j && winOwner w.2 != j }
    xlat := s.xlat.map fun (x : Xlat) => { cache := x.cache.filter fun e => e.job != j, walks := x.walks.filter fun e => e.job != j }
    moveFaults := s.moveFaults.filter fun f => f.job != j
    tiles := s.tiles.map fun (x : Nat × Tile) => if x.2.job = j then (x.1, { x.2 with job := 0, prepared := false }) else x
    jobs := s.jobs.filter fun b => b.id != j }
  s.scheduleJobs

/-- JOB_UNLOAD (R244). -/
def execJobUnload (r : ZcpReq) (job : BitVec 12) (s : State) : Out :=
  .next (s.zcpStep r { op := 0x0204, target := jobTarget job } fun s => s.jobCmd job fun j =>
    if j.state == .loaded || j.state == .done || j.state == .ended then .ok (s.unloadJob job)
    else .err s .jobBusy)

/-! ## Resumption (R227, R233) -/

/-- Continue a STOPPED sequencer (R233). -/
def Tile.continue_ (x : Tile) (a : ResumeAction) : Tile :=
  let y := { x with seq := .running, wait := .none, stop := none }
  match a with
  | .retry => y
  | .skip => { y with pc := x.pc + 1 }
  | .entry k => { y with pc := k, loops := [], rets := [] }

/-- JOB_RESUME (R226, R227, R233, R244, R405): suspended moves go on, and STOPPED tiles are continued. A DONE job whose
tiles another job has taken stays as it is (log 35). -/
def State.resumeJob (s : State) (j : Job) (a : ResumeAction) (tile : Option TileIx) : State × Nat × Nat :=
  let chosen (t : Nat) : Bool := (tile.map fun (u : TileIx) => u.val == t).getD true
  if j.state == .running || j.state == .done then
    let mine := (jobTiles j.p).filter fun t => (s.tile t).job == j.id && (s.tile t).prepared
    if j.state == .done && mine.length ≠ (jobTiles j.p).length then (s, 0, 0) else
    let moves := (mine.map fun t => ((s.tile t).queue.filter QMove.suspended).length).sum
    let stopped := mine.filter fun t => chosen t && (s.tile t).seq == .stopped
    let s := mine.foldl State.resumeTile s
    let s := stopped.foldl (fun s t => s.modTile t fun x => x.continue_ a) s
    let s := if stopped.isEmpty then s else s.modJob j.id fun b => { b with state := .running, endStatus := .success }
    let s := s.collResume j.id
    let s := stopped.foldl (fun s t => s.fetchCheck t) s
    (mine.foldl (fun s t => s.kickAll t) s, moves, stopped.length)
  else
    let stopped := j.saved.filter fun v => chosen v.tile && v.st.seq == .stopped
    (s.modJob j.id fun b => { b with
      saved := b.saved.map fun v => if chosen v.tile && v.st.seq = .stopped then { v with st := v.st.continue_ a } else v },
     0, stopped.length)

/-- JOB_RESUME (R233). -/
def execJobResume (r : ZcpReq) (job : BitVec 12) (a : ResumeAction) (tile : Option TileIx) (s : State) : Out :=
  .next (s.zcpStep r { op := 0x0205, target := jobTarget job } fun s => s.jobCmd job fun j =>
    let beyond := match a with | .entry k => decide (k ≥ j.p.imageMoves) | _ => false
    if beyond then .err s .lengthRange (some 3)
    else if (tile.map fun (t : TileIx) => !jobHas j.p t.val).getD false then .err s .groupRange (some 2)
    else
      let (s, moves, tiles) := s.resumeJob j a tile
      .ok s [leBytes 4 moves, leBytes 2 tiles])

/-- The parameters of a job after JOB_PREEMPT. -/
def Job.preempted (j : Job) (urgent : Bool) (prio : Option Nat) : JobParams :=
  { j.p with urgent := urgent, priority := prio.getD j.p.priority }

/-- JOB_PREEMPT (R242, R247, R248). -/
def execJobPreempt (r : ZcpReq) (job : BitVec 12) (urgent : Bool) (prio : Option Nat) (s : State) : Out :=
  .next (s.zcpStep r { op := 0x0206, target := jobTarget job, bad := if prio.getD 0 > 7 then some .reservedValue else none } fun s =>
    s.jobCmd job fun j =>
      let p := j.preempted urgent prio
      if s.jobs.any fun k => k.id != job && groupsOverlap k.p p && k.p.priority == p.priority then .err s .groupConflict (some 2)
      else .ok (s.modJob job fun b => { b with p := p }).scheduleJobs [leBytes 1 (if urgent then 1 else 0), leBytes 1 p.priority])

/-! ## Reading (R225, R226, R244, R259) -/

/-- Code of a job state (R244). -/
def JobState.code : JobState → Nat
  | .loaded => 0 | .running => 1 | .preempted => 2 | .idle => 3 | .done => 4 | .ended => 5

/-- The fields of JOB_STATUS; the period slot is given as its number plus 1, 0 for none (R437). -/
def State.jobFields (s : State) (j : Job) : List (List Byte) :=
  [leBytes 1 j.state.code, leBytes 1 j.p.priority,
   leBytes 2 (s.tilesIn j .halted) ++ leBytes 2 (s.tilesIn j .parked) ++ leBytes 2 (s.tilesIn j .stopped),
   leBytes 1 ((j.period.map fun q => q.slot + 1).getD 0), leBytes 1 (s.epoch j).toNat]

/-- JOB_STATUS (R244): of one job, or for job 0 of all, one item for each. -/
def execJobStatus (r : ZcpReq) (job : BitVec 12) (s : State) : Out :=
  .next (s.zcpStep r { op := 0x0207, change := false, target := if job = 0 then {} else jobTarget job } fun s =>
    if job = 0 then .ok s (s.jobs.map fun j => leBytes 2 j.id.toNat ++ (s.jobFields j).flatten)
    else s.jobCmd job fun j => .ok s (s.jobFields j))

/-- FAULT_READ (R226): records of the module queue leave it as they are read. -/
def execFaultRead (r : ZcpReq) (job : BitVec 12) (count : Nat) (s : State) : Out :=
  .next (s.zcpStep r { op := 0x0208, change := false, target := if job = 0 then {} else jobTarget job } fun s =>
    let range : Bool := count < 1 || count > 64
    if job = 0 then
      if range then .err s .lengthRange (some 1)
      else .ok { s with faultQ := s.faultQ.drop count } [(s.faultQ.take count).flatMap FaultRec.bytes]
    else s.jobCmd job fun _ =>
      if range then .err s .lengthRange (some 1)
      else .ok s [((s.moveFaults.filter fun f => f.job == job).take count).flatMap FaultRec.bytes])

/-- The records that the report area still holds of the periods asked for (R259). -/
def State.readReports (s : State) (j : Job) (p : Period) (first count : Nat) : State × Except Suspend (List Byte) :=
  let ns := ((List.range count).map fun (k : Nat) => (BitVec.ofNat 32 (first + k)).toInt).filter fun n =>
    p.started && decide (p.n0 ≤ n) && decide (n ≤ p.fallen) && decide (p.fallen - j.p.reportCount < n)
  ns.foldl (fun (acc : State × Except Suspend (List Byte)) (n : Int) =>
    match acc.2 with
    | .error _ => acc
    | .ok bs =>
      let (s, x) := acc.1.readJob 6 j (j.p.reportBase.toNat + 128 * (n % j.p.reportCount).toNat) 128
      (s, match x with | .ok b => .ok (bs ++ b) | .error f => .error f)) (s, .ok [])

/-- PERIOD_REPORT_READ (R224, R259). -/
def execPeriodReportRead (r : ZcpReq) (job : BitVec 12) (first : Nat) (count : Nat) (s : State) : Out :=
  .next (s.zcpStep r { op := 0x0209, change := false, target := jobTarget job } fun s => s.jobCmd job fun j =>
    match j.period with
    | none => .err s .notPeriodJob
    | some p =>
      if count < 1 || count > 64 then .err s .lengthRange (some 2) else
      match s.readReports j p first count with
      | (s, .ok b) => .ok s [b]
      | (s, .error f) => .err (s.schedFault j f) f.status)

/-- BREAK_ARM (R166). -/
def execBreakArm (r : ZcpReq) (job : BitVec 12) (armed : Bool) (s : State) : Out :=
  .next (s.zcpStep r { op := 0x020A, target := jobTarget job } fun s => s.jobCmd job fun _ =>
    .ok (s.modJob job fun b => { b with breaks := armed }))

end Sys2Proof.Machine
end

