-- ==== Sys2Proof/Machine/Thermal.lean ====
section
/-! DEFINITION. Sensors, thresholds, limits, holds, voltage and the power cap (R481 to R494). Temperatures in 1/16 °C. -/

namespace Sys2Proof.Machine

/-! ## Regions (R481) -/

/-- Index of a thermal region among the 133. -/
def regionIx : Region → Nat
  | .compute d r => 16 * d.val + r.val
  | .stack m => 96 + m.val
  | .hub k => 120 + k.val
  | .pic k => 124 + k.val
  | .eic k => 128 + k.val
  | .ppe => 132

/-- The 16-bit region code (R481). -/
def regionCode (k : Nat) : Nat :=
  if k < 96 then k else if k < 120 then 0x0100 + (k - 96) else if k < 124 then 0x0200 + (k - 120)
  else if k < 128 then 0x0300 + (k - 124) else if k < 132 then 0x0310 + (k - 128) else 0x0400

/-- Warning, throttle and shutdown thresholds (R485). -/
def thresholds (k : Nat) : Int × Int × Int :=
  if k < 96 || (120 ≤ k && k < 124) then (1520, 1680, 1840)
  else if k < 120 then (1360, 1520, 1680) else (1280, 1440, 1600)

/-- Orthogonal neighbours in a grid, with the diagonal one for a corner (R481). -/
def gridNbrs (w h x y : Nat) : List (Nat × Nat) :=
  (List.range h).flatMap fun v => (List.range w).filterMap fun u =>
    let dx := (max u x) - (min u x)
    let dy := (max v y) - (min v y)
    let corner := (x = 0 || x + 1 = w) && (y = 0 || y + 1 = h)
    if (dx + dy = 1) || (corner && dx = 1 && dy = 1) then some (u, v) else none

/-- The neighbour set of a sensor, as regions and sensors (R481). Grids are numbered by rows (log 26). -/
def sensorNbrs (k i : Nat) : List (Nat × Nat) :=
  if k < 96 then
    ((List.range 3).filter (· != i)).map (fun j => (k, j)) ++
    (if k % 16 > 0 then [(k - 1, i)] else []) ++ (if k % 16 < 15 then [(k + 1, i)] else [])
  else if k < 120 then [(k, 1 - i)] ++ Config.nearSensors k i
  else if k < 124 then
    (gridNbrs 4 4 ((k - 120) % 2 * 2 + i % 2) ((k - 120) / 2 * 2 + i / 2)).map fun p =>
      (120 + p.2 / 2 * 2 + p.1 / 2, p.2 % 2 * 2 + p.1 % 2)
  else if k < 128 then (gridNbrs 4 3 (i % 4) (i / 4)).map fun p => (k, 4 * p.2 + p.1)
  else if k < 132 then ((List.range 4).filter (· != i)).map (fun j => (k, j)) ++ Config.nearSensors k i
  else (gridNbrs 4 2 (i % 4) (i / 4)).map fun p => (k, 4 * p.2 + p.1)

/-- A thermal region by its index. -/
def State.region (s : State) (k : Nat) : ThermRegion := (s.therm[k]?).getD {}

/-- Change a thermal region. -/
def State.modRegion (s : State) (k : Nat) (f : ThermRegion → ThermRegion) : State := { s with therm := s.therm.modify k f }

/-- A sensor of a region. -/
def State.sensor (s : State) (p : Nat × Nat) : Sensor := ((s.region p.1).sensors[p.2]?).getD { state := .failed }

/-- Readings of the GOOD sensors among some. -/
def State.goodReadings (s : State) (ps : List (Nat × Nat)) : List Int :=
  (ps.filter fun p => (s.sensor p).state == .good).map fun p => (s.sensor p).reading

/-- The GOOD sensors of a region. -/
def State.goodSensors (s : State) (k : Nat) : List Int :=
  ((s.region k).sensors.filter fun x => x.state == .good).map Sensor.reading

/-- The highest of some readings. -/
def hottest (xs : List Int) : Option Int := xs.foldl (fun a x => some (match a with | none => x | some y => max x y)) none

/-- The neighbours of a region's own sensors (R483). -/
def regionNbrs (k : Nat) : List (Nat × Nat) := (List.range (sensorsOf k)).flatMap fun i => sensorNbrs k i

/-- A region's temperature (R483): none where no GOOD sensor is left to tell. -/
def State.temp (s : State) (k : Nat) : Option Int :=
  match hottest (s.goodSensors k) with
  | some t => some t
  | none => (hottest (s.goodReadings (regionNbrs k))).map (· + 160)

/-- Fewer than two GOOD sensors (R483). -/
def State.fallback (s : State) (k : Nat) : Bool := (s.goodSensors k).length < 2

/-! ## Sampling (R482 to R485) -/

/-- Twice the median of some readings. -/
def median2 (xs : List Int) : Int :=
  let ys := xs.mergeSort (· ≤ ·)
  (ys.getD (ys.length / 2) 0) + (ys.getD ((ys.length - 1) / 2) 0)

/-- A sensor takes one sample (R482): missed, out of range, or a reading kept with those of the last millisecond. -/
def Sensor.sample (x : Sensor) (clock : Nat) (v : Option Int) : Sensor :=
  match v with
  | none => { x with missed := x.missed + 1, state := if x.missed + 1 ≥ 3 then .failed else x.state }
  | some v =>
    { x with
      missed := 0, reading := v, hist := (clock, v) :: x.hist.filter fun h => clock < h.1 + 1000000
      state := if v < -640 || v > 2400 then .failed else x.state }

/-- Whether a GOOD sensor deviates from its neighbours in this sample (R482). -/
def State.deviates (s : State) (p : Nat × Nat) : Bool :=
  let ns := s.goodReadings (sensorNbrs p.1 p.2)
  ns.length ≥ 3 && (ns.all fun a => ns.all fun b => a - b ≤ 48) && (2 * (s.sensor p).reading - median2 ns).natAbs > 192

/-- Rise of a sensor within the last millisecond (R483). -/
def Sensor.rise (x : Sensor) (clock : Nat) : Int :=
  (x.hist.filter fun h => clock < h.1 + 1000000).foldl (fun a h => max a (x.reading - h.2)) 0

/-- Flag instance of a region (R485). -/
def regionTarget (k : Nat) : Target :=
  if k < 96 then ⟨1, BitVec.ofNat 24 (k / 16)⟩ else if k < 120 then ⟨3, BitVec.ofNat 24 (k - 96)⟩ else {}

/-- Post event THERMAL (R485). -/
def State.thermalEvent (s : State) (k threshold : Nat) : State :=
  s.event .thermal (regionTarget k) (leBytes 2 (regionCode k) ++ leBytes 1 threshold)

/-- Set a thermal flag for a region (R485). -/
def State.thermalFlag (s : State) (f : FlagId) (k : Nat) : State :=
  s.setFlag f (regionTarget k).kind.toNat (regionTarget k).index.toNat

/-- The thermal floor (R486): at 0.60 V a region holds from 110 °C until it falls below 105 °C; a freeze keeps the
hold (R509). -/
def State.holdCheck (s : State) (k : Nat) : State :=
  if k ≥ 96 then s else
  match s.temp k with
  | none => s
  | some t =>
    let r := s.region k
    if !r.held && (s.power.volt.toArray[k]?).getD 0 = 0 && t ≥ 1760 then s.modRegion k fun r => { r with held := true }
    else if r.held && t < 1680 && !s.dbg.frozen then s.modRegion k fun r => { r with held := false }
    else s

/-- Warning (R485): refresh of a stack doubles at 85 °C and returns below 81 °C (R210). -/
def State.judgeWarning (s : State) (k : Nat) (t : Int) : State :=
  let r := s.region k
  let w := (thresholds k).1
  let s :=
    if !r.warned && t ≥ w then ((s.modRegion k fun r => { r with warned := true }).thermalFlag .thermWarning k).thermalEvent k 0
    else if r.warned && t ≤ w - 64 then (s.modRegion k fun r => { r with warned := false }).thermalEvent k 4
    else s
  if h : 96 ≤ k ∧ k < 120 then
    let m : StackIx := ⟨k - 96, by omega⟩
    let x := s.hbm[m]
    s.setStack m { x with refreshDoubled := if t ≥ 1360 then true else if t < 1296 then false else x.refreshDoubled }
  else s

/-- Throttle (R483, R485, R211). -/
def State.judgeThrottle (s : State) (k : Nat) (t : Int) : State :=
  let r := s.region k
  let th := (thresholds k).2.1
  let nbrs := (regionNbrs k).map s.sensor
  let trip := s.fallback k && !r.ror && nbrs.any fun x => x.state == .good && x.rise s.clock ≥ 32
  let quiet := nbrs.all fun x => x.state != .good || x.rise s.clock < 8
  let since := if quiet then some (r.rorQuiet.getD s.clock) else none
  let s := s.modRegion k fun r => { r with rorQuiet := since, ror := r.ror || trip }
  let s := if trip then (s.bump .thermRorTrips k).thermalEvent k 3 else s
  let r := s.region k
  let s := if !r.throttled && (t ≥ th || r.ror) then (s.modRegion k fun r => { r with throttled := true }).bump .thermThrottles k else s
  let s := if !r.hot && t ≥ th then ((s.modRegion k fun r => { r with hot := true }).thermalFlag .thermThrottle k).thermalEvent k 1 else s
  let calm := (since.map fun c => decide (c + 10000000 ≤ s.clock)).getD false && t < th - 64
  let s := s.modRegion k fun r => { r with hot := r.hot && t > th - 64, ror := r.ror && !calm }
  let s :=
    if r.throttled && t ≤ th - 64 && !(s.region k).ror then
      (s.modRegion k fun r => { r with throttled := false, rorQuiet := none }).thermalEvent k 5
    else s
  let cool := if t ≤ th - 64 then some (r.coolSince.getD s.clock) else none
  let s := s.modRegion k fun r => { r with coolSince := cool }
  if h : 96 ≤ k ∧ k < 120 then
    let m : StackIx := ⟨k - 96, by omega⟩
    s.setStack m { s.hbm[m] with throttled := (s.region k).throttled }
  else s

/-- The sampling rate of a region (R484): 0 1 kHz, 1 10 kHz, 2 40 kHz. -/
def State.judgeRate (s : State) (k : Nat) (t : Int) : State :=
  let (_, th, sd) := thresholds k
  let want (m : Int) : Nat := if t + m ≥ sd - 48 then 2 else if t + m ≥ th - 80 || s.fallback k then 1 else 0
  let r := s.region k
  if want 0 ≥ r.rate then s.modRegion k fun r => { r with rate := want 0, outside := none }
  else if want 32 < r.rate then
    let since := r.outside.getD s.clock
    if since + 10000000 ≤ s.clock then s.modRegion k fun r => { r with rate := want 32, outside := none }
    else s.modRegion k fun r => { r with outside := some since }
  else s.modRegion k fun r => { r with outside := none }

/-- Judge every sensor of a region that sampled (R482). -/
def State.judgeSensor (s : State) (k i : Nat) (before : SensorState) (had : Bool) : State :=
  let x := s.sensor (k, i)
  let set (s : State) (f : Sensor → Sensor) : State := s.modRegion k fun r => { r with sensors := r.sensors.modify i f }
  if x.state = .failed && before != .failed then (s.bump .thermSensorFailed).setFlag .sensorSuspect 0 0
  else if x.state = .good && had then
    let dev := if s.deviates (k, i) then x.dev + 1 else 0
    if dev ≥ 8 then (set s fun x => { x with dev := dev, state := .suspect }).bump .thermSensorSuspect |>.setFlag .sensorSuspect 0 0
    else set s fun x => { x with dev := dev }
  else s

/-- The sensors of a region sample, and its thresholds are judged (R32, R482 to R486). -/
def State.sampleRegion (s : State) (r : Region) (readings : List (Option Int)) : State :=
  let k := regionIx r
  let before := (s.region k).sensors
  let s := s.modRegion k fun r => { r with
    sensors := r.sensors.zipIdx.map fun (x, i) => if x.state = .good then x.sample s.clock ((readings[i]?).getD none) else x }
  let s := (List.range (sensorsOf k)).foldl (fun s i =>
    s.judgeSensor k i ((before[i]?.map Sensor.state).getD .failed) ((readings[i]?).getD none).isSome) s
  match s.temp k with
  | none => s
  | some t =>
    if t ≥ (thresholds k).2.2 then (s.thermalEvent k 2).thermalShutdown
    else if !s.live then s
    else (((s.judgeWarning k t).judgeThrottle k t).judgeRate k t).holdCheck k

/-- SENSOR_SAMPLE (R32, R482 to R486): before firmware runs, only the shutdown of R32 is armed (R458). -/
def execSensorSample (r : Region) (readings : List (Option Int)) (s : State) : Out :=
  when_ s s.board.rails fun s => s.sampleRegion r readings

/-- A region is at or above throttle, or a rate-of-rise trip throttles it (R483, R485). -/
def State.atThrottle (s : State) (k : Nat) : Bool :=
  (s.region k).ror || ((s.temp k).map fun t => decide ((thresholds k).2.1 ≤ t)).getD false

/-- THERMAL_LIMIT_STEP (R486): every 1 ms, 10 mV down at or above throttle, 10 mV up once released; 25 is no limit. -/
def execThermalLimitStep (d : DieIx) (r : Fin 16) (s : State) : Out :=
  when_ s (s.live && (s.region (16 * d.val + r.val)).stepped + 1000000 ≤ s.clock) fun s =>
    let k := 16 * d.val + r.val
    (s.modRegion k fun r => { r with
      stepped := s.clock
      limit := if s.atThrottle k then r.limit - 1 else if r.throttled || r.held then r.limit else min 25 (r.limit + 1) }).holdCheck k

/-- HUB_THROTTLE_STEP (R485): every 1 ms, 10 mV down to 0.65 V while a hub quadrant is at or above throttle; back up once none throttles
(log 26). -/
def execHubThrottleStep (s : State) : Out :=
  when_ s (s.live && s.power.hubStepped + 1000000 ≤ s.clock) fun s =>
    let s := { s with power := { s.power with hubStepped := s.clock } }
    if (List.range 4).any fun q => s.atThrottle (120 + q) then
      { s with power := { s.power with
        hubDrop := if 650 + 10 * (s.power.hubDrop + 1) ≤ Config.hubMv then s.power.hubDrop + 1 else s.power.hubDrop } }
    else if (List.range 4).any fun q => (s.region (120 + q)).throttled then s
    else { s with power := { s.power with hubDrop := s.power.hubDrop - 1 } }

/-! ## Voltage and power (R488 to R493) -/

/-- The voltage that a region should run at (R488). -/
def State.voltTarget (s : State) (k : Nat) : Nat :=
  min (((s.power.setpoint.toArray[k / 16]?).getD 15).toNat) (min (s.region k).limit s.power.limit)

/-- VOLTAGE_STEP_DONE (R488). -/
def execVoltageStepDone (d : DieIx) (r : Fin 16) (s : State) : Out :=
  when_ s s.live fun s =>
    let k := 16 * d.val + r.val
    let v := (s.power.volt.toArray[k]?).getD 15
    let want := s.voltTarget k
    let v' := if want < v then v - 1 else if v < want then v + 1 else v
    { s with power := { s.power with volt := s.power.volt.setIfInBounds k v' } }.holdCheck k

/-- Count the energy of a sample and its time outside the operating range (R502, R534). -/
def State.countInput (s : State) (mw mv : Nat) : State :=
  let nj := s.power.energyRem + 100 * mw
  let s := { s with power := { s.power with energyRem := nj % 1000000 } }
  let s := s.bump .pwrEnergyMj 0 0 (nj / 1000000)
  let s := if 37000 ≤ mv && mv < 40000 then s.bump .pwrInputLowNs 0 0 100000 else s
  if 60000 < mv && mv ≤ 63000 then s.bump .pwrInputHighNs 0 0 100000 else s

/-- The highest voltage that the setpoints and thermal limits leave a region (R488). -/
def State.topVoltage (s : State) : Nat :=
  ((List.range 96).map fun k => min (((s.power.setpoint.toArray[k / 16]?).getD 15).toNat) (s.region k).limit).foldl max 0

/-- The input power is sampled, and the cap judged (R491, R492, R494). The power limit falls from the highest voltage in
force, as in the worked example of R494 (log 26). -/
def State.samplePower (s : State) (mw : Nat) (mv : Nat) : State :=
  let c := 1000 * s.power.cap
  let s := (s.countInput mw mv)
  let s := { s with
    board := { s.board with vin := mv }
    power := { s.power with samples := (mw :: s.power.samples).take 10000, sampled := s.clock } }
  if mw > c then
    let s := (s.bump .pwrCapActs).setFlag .powerCapped 0 0
    let above := s.power.overCount + 1
    { s with power := { s.power with
      limit := min s.power.limit s.topVoltage - min 8 (ceilDiv (mw - c) 100000), overCount := above, underCount := 0
      capHold := s.power.capHold || above ≥ 100 } }
  else
    let under := if mw + 100000 ≤ c then s.power.underCount + 1 else 0
    { s with power := { s.power with
      overCount := 0, capHold := s.power.capHold && s.dbg.frozen
      limit := if under ≥ 10 then min 25 (s.power.limit + 1) else s.power.limit
      underCount := if under ≥ 10 then 0 else under } }

/-- POWER_SAMPLE (R491, R492, R494): every 100 µs. -/
def execPowerSample (mw : Nat) (mv : Nat) (s : State) : Out :=
  when_ s (s.live && s.power.sampled + 100000 ≤ s.clock) fun s => s.samplePower mw mv

/-- OVERCURRENT (R493). -/
def execOvercurrent (s : State) : Out :=
  when_ s s.live fun s =>
    let s' := { s with power := { s.power with ocHold := true, ocSince := s.clock } }
    if s.power.ocHold then s' else s'.bump .pwrOvercurrentHolds

/-- OVERCURRENT_RELEASE (R493); a freeze keeps the hold (R509). -/
def execOvercurrentRelease (s : State) : Out :=
  when_ s (s.live && s.power.ocHold && !s.dbg.frozen && s.power.ocSince + 100000 ≤ s.clock) fun s =>
    { s with power := { s.power with ocHold := false } }

/-! ## Commands -/

/-- Regions that a THERMAL_STATUS names (R450, R481). -/
def statusRegions (t : Target) : Option (List Nat) :=
  if t.kind = 0 && t.index = 0 then some (List.range 133)
  else if t.kind = 1 && t.index < 6#24 then some ((List.range 16).map fun r => 16 * t.index.toNat + r)
  else if t.kind = 3 && t.index < 24#24 then some [96 + t.index.toNat]
  else none

/-- A sensor state by its position in R482. -/
def sensorCode : SensorState → Nat | .good => 0 | .suspect => 1 | .failed => 2

/-- What THERMAL_STATUS replies (R481 to R483): region codes with temperatures, sensor states, neighbour sets. -/
def State.thermalReply (s : State) (ks : List Nat) : List (List Byte) :=
  [ks.flatMap (fun k => leBytes 2 (regionCode k) ++ leBytes 2 (BitVec.ofInt 16 ((s.temp k).getD (-32768))).toNat),
    ks.flatMap (fun k => (s.region k).sensors.flatMap fun x => leBytes 1 (sensorCode x.state)),
    ks.flatMap (fun k => (List.range (sensorsOf k)).flatMap fun i =>
      let ns := sensorNbrs k i
      leBytes 1 ns.length ++ ns.flatMap fun p => leBytes 2 (regionCode p.1) ++ leBytes 1 p.2)]

/-- THERMAL_STATUS (R481 to R483). -/
def execThermalStatus (r : ZcpReq) (tgt : Target) (s : State) : Out :=
  .next (s.zcpStep r { op := 0x0601, change := false, target := tgt, bad := if (statusRegions tgt).isNone then some .reservedValue else none }
    fun s => .ok s (s.thermalReply ((statusRegions tgt).getD [])))

/-- Mean of some samples. -/
def mean (xs : List Nat) : Nat := if xs.isEmpty then 0 else xs.sum / xs.length

/-- What POWER_STATUS replies (R491): mW, mV, and the voltages of the regions with the limit that sets each: 0 setpoint,
1 thermal, 2 power. -/
def State.powerReply (s : State) : List (List Byte) :=
  let p := s.power
  let why (k : Nat) : Nat :=
    let t := s.voltTarget k
    if t = ((p.setpoint.toArray[k / 16]?).getD 15).toNat then 0 else if t = (s.region k).limit then 1 else 2
  [leBytes 4 (p.samples.headD 0) ++ leBytes 4 (mean (p.samples.take 10)) ++ leBytes 4 (mean p.samples), leBytes 2 s.board.vin,
    leBytes 2 p.cap, (List.range 96).flatMap fun k => leBytes 1 ((p.volt.toArray[k]?).getD 0) ++ leBytes 1 (why k),
    leBytes 2 (Config.hubMv - 10 * p.hubDrop)]

/-- POWER_STATUS (R491). -/
def execPowerStatus (r : ZcpReq) (s : State) : Out :=
  .next (s.zcpStep r { op := 0x0602, change := false } fun s => .ok s s.powerReply)

/-- POWER_CAP_SET (R488, R492). -/
def execPowerCapSet (r : ZcpReq) (cap : Nat) (setpoints : Option (Vector (BitVec 8) 6)) (s : State) : Out :=
  .next (s.zcpStep r { op := 0x0603, early := true, frozen := true
                       bad := if (setpoints.map fun v => v.toList.any fun x => x.toNat > 25).getD false then some .reservedValue else none }
    fun s =>
      if cap < 1500 || cap > 3600 then .err s .capRange (some 1)
      else .ok { s with power := { s.power with cap := cap, setpoint := setpoints.getD s.power.setpoint } } [leBytes 2 cap])

end Sys2Proof.Machine
end

