-- ==== Sys2Proof/Machine/Links.lean ====
section
/-! DEFINITION. The commands of the optical links (R327 to R357, R487). -/

namespace Sys2Proof.Machine

/-- ACK (R337). -/
def execAck (p : PortIx) (fsn : BitVec 16) (s : State) : Out := when_ s (s.live && s.ports[p].pastFec) fun s => s.ackIn p fsn

/-- RETRY (R337). -/
def execRetry (p : PortIx) (fsn : BitVec 16) (s : State) : Out := when_ s (s.live && s.ports[p].pastFec) fun s => s.retryIn p fsn

/-- SWAP (R341, R344). -/
def execSwap (p : PortIx) (m : SwapMsg) (s : State) : Out := when_ s s.live fun s => s.swapIn p m

/-- SWAP_ACK (R341). -/
def execSwapAck (p : PortIx) (m : SwapMsg) (s : State) : Out := when_ s (s.live && s.ports[p].pastFec) fun s => s.swapAckIn p m

/-- SWAP_AT (R341, R343). -/
def execSwapAt (p : PortIx) (d : Dir) (s : State) : Out := when_ s s.live fun s => (s.swapDue p d).auditTry p

/-- LANE_BLOCK (R332 to R337). -/
def execLaneBlock (p : PortIx) (lane : LaneIx) (b : LaneBlock) (s : State) : Out := when_ s s.live fun s => s.blockIn p lane b

/-- RETRY_REPEAT (R336): 2 µs since the last RETRY for the frame that has not arrived. -/
def execRetryRepeat (p : PortIx) (s : State) : Out :=
  match s.ports[p].retryOut with
  | none => .next s
  | some r => when_ s (s.live && s.ports[p].pastFec && ((r.times.head?.map fun t => decide (t + 2000 ≤ s.clock)).getD true)) fun s => s.sendRetry p

/-- ACK_TIMER (R337): ACK_FSN has advanced and 32 ns have passed since the last ACK. -/
def execAckTimer (p : PortIx) (s : State) : Out :=
  let x := s.ports[p]
  when_ s (s.live && x.pastFec && x.rxFsn != x.ackSent && x.lastAck + 32 ≤ s.clock) fun s =>
    (s.modPort p fun x => { x with ackSent := x.rxFsn, lastAck := s.clock }).sendControl p (lcFlit 4 (leBytes 2 x.rxFsn.toNat))

/-- LANE_FAILURE (R340 to R344). -/
def execLaneFailure (p : PortIx) (d : Dir) (lane : LaneIx) (cause : LaneCause) (s : State) : Out :=
  when_ s s.live fun s => s.failLane p d lane cause

/-- Count a failed tone check (R330, R357). -/
def State.countTone (s : State) (p : PortIx) (k : LaneIx) (r : RingResult) : State :=
  match r with
  | .verified => s
  | .mislock => s.bump .fabPortLaneMislock p.val k.val
  | .toneAbsent => s.bump .fabPortLaneToneAbsent p.val k.val

/-- Note since when a failed lane's ring has been verified (R345). -/
def State.setClean (s : State) (p : PortIx) (d : Dir) (k : LaneIx) (t : Option Nat) : State :=
  s.modPort p fun x => x.modDir d fun y => { y with lanes := y.lanes.set k { y.lanes[k] with clean := t } }

/-- TONE_RECHECK (R331): a wrong or absent tone fails a lane that carries data or stands by; a recovering lane starts
again. -/
def execToneRecheck (p : PortIx) (d : Dir) (lane : LaneIx) (r : RingResult) (s : State) : Out :=
  let l := (s.ports[p].dir d).lanes[lane]
  when_ s (s.live && s.ports[p].usable && (l.state == .data || l.state == .standby || l.clean.isSome)) fun s =>
    if r = .verified then s
    else if l.clean.isSome then (s.countTone p lane r).setClean p d lane none
    else (s.countTone p lane r).failLane p d lane .tone

/-- LANE_RECOVERY (R345): verified again, and 10 ms without a failure. -/
def execLaneRecovery (p : PortIx) (d : Dir) (lane : LaneIx) (s : State) : Out :=
  let l := (s.ports[p].dir d).lanes[lane]
  when_ s (s.live && s.ports[p].usable && l.state == .failed && (l.clean.map fun t => decide (t + 10000000 ≤ s.clock)).getD false) fun s =>
    s.modPort p fun x => x.modDir d fun y => y.setLane lane .standby

/-- PEER_PRESENT (R346): the wavelengths that show light; four or more let a DOWN port train. -/
def execPeerPresent (p : PortIx) (waves : BitVec 9) (s : State) : Out :=
  when_ s s.live fun s =>
    let s := s.modPort p fun x => { x with
      waves := waves
      reason := if x.state = .down && lit waves < 4 && s.bays[bayOf p].state = .active && x.reason ≠ .disabled then .noPeer else x.reason }
    s.tryTrain p

/-- A ring's outcome in step LOCK (R330): four attempts without verification fail its lane. -/
def Lane.locked (l : Lane) (r : RingResult) : Lane :=
  if r = .verified then { l with state := .trained, attempts := 0 }
  else if l.attempts + 1 ≥ 4 then { l with state := .failed, attempts := l.attempts + 1 }
  else { l with attempts := l.attempts + 1 }

/-- A ring's outcome when it re-sweeps in service (R330, R331, R345): verified, it waits for its 10 ms; the fourth attempt
without verification leaves the lane FAILED until the port trains. -/
def Lane.swept (l : Lane) (clock : Nat) (r : RingResult) : Lane :=
  if r = .verified then { l with clean := some clock, attempts := 0 }
  else { l with clean := none, attempts := l.attempts + 1, sweeps := decide (l.attempts + 1 < 4) }

/-- No ring of a direction is still locking. -/
def PortDir.lockDone (d : PortDir) : Bool := d.lanes.toList.all fun l => l.state != .locking

/-- RING_LOCK (R330, R331, R346): in step LOCK, where the last ring ends the step; on a usable port, the re-sweep of a
lane that failed in service. -/
def execRingLock (p : PortIx) (d : Dir) (lane : LaneIx) (r : RingResult) (s : State) : Out :=
  let x := s.ports[p]
  let l := (x.dir d).lanes[lane]
  when_ s s.live fun s =>
    if x.state = .training && x.step = 2 && l.state = .locking then
      let s := (s.countTone p lane r).modPort p fun x => x.modDir d fun y => { y with lanes := y.lanes.set lane (l.locked r) }
      if s.ports[p].tx.lockDone && s.ports[p].rx.lockDone then s.enterStep p 3 else s
    else if x.usable && l.state = .failed && l.sweeps then
      (s.countTone p lane r).modPort p fun x => x.modDir d fun y => { y with lanes := y.lanes.set lane (l.swept s.clock r) }
    else s

/-- The lanes that pass, and the rate of the port (R347). -/
def State.equalised (s : State) (p : PortIx) (pass200 pass100 : BitVec 9) (peerRate100 : Bool) : State :=
  let x := s.ports[p]
  let count (w : BitVec 9) : Nat := ((List.finRange 9).filter fun k => x.rx.lanes[k].state == .trained && w.getLsbD k.val).length
  let slow := chooseRate (count pass200) (count pass100) x.cfg.force.val peerRate100 x.hot
  let s := s.modPort p fun x => { x with
    rate100 := slow
    rx := { x.rx with lanes := Vector.ofFn fun k =>
      let l := { x.rx.lanes[k] with pass200 := pass200.getLsbD k.val, pass100 := pass100.getLsbD k.val }
      if l.state = .trained && !(if slow then pass100.getLsbD k.val else pass200.getLsbD k.val) then { l with state := .failed } else l } }
  if s.ports[p].rx.trained < 4 || s.ports[p].tx.trained < 4 then s.goDown p .tooFewLanes else s.enterStep p 4

/-- EQUALISE_COMPLETE (R347): the lanes that pass, and the rate of the port. -/
def execEqualiseComplete (p : PortIx) (pass200 pass100 : BitVec 9) (peerRate100 : Bool) (s : State) : Out :=
  let x := s.ports[p]
  when_ s (s.live && x.state == .training && x.step == 3) fun s => s.equalised p pass200 pass100 peerRate100

/-- TRAINING_SEQUENCE (R346, R349, R350): the peer announces its step; both ends go on together. From a peer that trains
anew, a trained port retrains. -/
def execTrainingSequence (p : PortIx) (step : Nat) (id : Identity) (idents : Vector LaneIdent 9) (roundTrip : Nat) (s : State) : Out :=
  let x := s.ports[p]
  when_ s (s.live && 1 ≤ step && step ≤ 9) fun s =>
    if x.usable || x.state == .held then (if step < 9 then s.goDown p .command else s)
    else if x.state = .training then State.trainOn p id idents roundTrip 4 (s.modPort p fun x => { x with peerStep := step })
    else s

/-- TRAIN_TIMEOUT (R346, R349): a step has exceeded its limit. -/
def execTrainTimeout (p : PortIx) (s : State) : Out :=
  let x := s.ports[p]
  when_ s (s.live && x.state == .training && x.stepT + stepLimit x.step ≤ s.clock) fun s =>
    (s.bump .fabPortTrainFail p.val x.step).goDown p .trainTimeout

/-- PEER_RETRAIN (R349). -/
def execPeerRetrain (p : PortIx) (s : State) : Out :=
  when_ s (s.live && (s.ports[p].usable || s.ports[p].state == .held)) fun s => s.goDown p .command

/-- TRAINING_RETRY (R349): the once-a-second retry. -/
def execTrainingRetry (p : PortIx) (s : State) : Out :=
  let x := s.ports[p]
  when_ s (s.live && (x.reason == .trainTimeout || x.reason == .tooFewLanes || x.reason == .revMismatch)) fun s => s.tryTrain p

/-- PORT_DOWN (R317, R349, R355). -/
def execPortDown (p : PortIx) (reason : DownReason) (s : State) : Out :=
  when_ s (s.live && s.ports[p].state != .down && reason != .none) fun s => s.goDown p reason

/-- Ports of an optical engine, highest first (R487). -/
def enginePorts (e : Fin 4) : List PortIx := [⟨4 * e.val + 3, by omega⟩, ⟨4 * e.val + 2, by omega⟩, ⟨4 * e.val + 1, by omega⟩, ⟨4 * e.val, by omega⟩]

/-- A link that is up. -/
def Port.linkUp (x : Port) : Bool := x.usable || x.state == .held

/-- One port of an engine at or above throttle goes to 100 Gb/s; once it has been cool for 1 s, one goes back (R487). -/
def State.opticalStep (s : State) (e : Fin 4) : State :=
  let s := { s with therm := s.therm.modify (124 + e.val) fun r => { r with stepped := s.clock } }
  let rs := [124 + e.val, 128 + e.val].filterMap fun k => s.therm[k]?
  let retrain (s : State) (p : PortIx) (hot : Bool) : State :=
    let s := s.modPort p fun x => { x with hot := hot }
    if s.ports[p].linkUp && s.ports[p].rate100 != hot then s.goDown p .command else s
  if s.atThrottle (124 + e.val) || s.atThrottle (128 + e.val) then
    match (enginePorts e).find? fun p => !s.ports[p].hot && !(s.ports[p].linkUp && s.ports[p].rev == 0x10) with
    | some p => retrain s p true
    | none => s
  else if rs.all fun r => (r.coolSince.map fun t => decide (t + 1000000000 ≤ s.clock)).getD false then
    match (enginePorts e).find? fun p => s.ports[p].hot with
    | some p => retrain s p false
    | none => s
  else s

/-- OPTICAL_RETRAIN_STEP (R487): every 10 ms, one port of an engine at or above throttle goes to 100 Gb/s; once the engine has been cool
for 1 s, one port goes back. -/
def execOpticalRetrainStep (e : Fin 4) (s : State) : Out :=
  when_ s (s.live && ((s.therm[124 + e.val]?).getD {}).stepped + 10000000 ≤ s.clock) fun s =>
    s.opticalStep e

end Sys2Proof.Machine
end

