-- ==== Sys2Proof/Machine/Debug.lean ====
section
/-! DEFINITION. Freeze, scan-out, thaw, triggers, counters, snapshots and AUDIT (R503 to R532). -/

namespace Sys2Proof.Machine

/-! ## Counters by their ID (R522 to R524) -/

/-- KIND of a counter ID (R522). -/
def idKind (id : Nat) : Nat :=
  match Config.counterOfId id with | some k => k.id.kind | none => ((Config.privateCounter id).headD 0).toNat

/-- The 60-byte catalogue record of an ID (R522). -/
def catalogueRecord (id : Nat) : List Byte :=
  leBytes 4 id ++
  ((match Config.counterOfId id with
    | some k => leBytes 1 k.id.kind ++ leBytes 1 k.id.unit ++ leBytes 1 k.bin ++ [0] ++ ascii (k.id.name k.i k.j)
    | none => Config.privateCounter id) ++ List.replicate 56 0).take 56

/-- Current value of a counter, by its meaning or for one of the firmware's own (R522, R523). -/
def State.ctrNow (s : State) (id : Nat) (key : Option CtrKey) : BitVec 64 :=
  match key with | some k => s.counter k | none => Config.privateValue id s.fresh

/-- Value of an ID in the snapshot in force: a gauge reads its value now; with no snapshot yet, a free value (R523, R524,
log 36). -/
def State.ctrSnap (s : State) (id : Nat) : BitVec 64 :=
  match s.dbg.snapshot with
  | none => Config.freeValue (s.fresh + 1 + id)
  | some x =>
    match Config.counterOfId id with
    | some k => if k.id.kind = 3 then s.counter k else ((x.values.find? fun v => v.1 == k).map Prod.snd).getD 0
    | none => Config.privateValue id x.number.toNat

/-- IDs from FIRST on, as many as there are (R522). -/
def idsFrom (first count : Nat) : List Nat := (List.range (min count (Config.numCounters - first))).map fun k => first + k

/-- What the three commands over counter IDs refuse (R522). -/
def idsRefuse (first count most : Nat) : Option (Status × Nat) :=
  if count < 1 || count > most then some (.lengthRange, 2) else if first ≥ Config.numCounters then some (.lengthRange, 1) else none

/-- COUNTER_CATALOGUE (R522). -/
def execCounterCatalogue (r : ZcpReq) (first count : Nat) (s : State) : Out :=
  .next (s.zcpStep r { op := 0x0710, change := false } fun s =>
    match idsRefuse first count 1024 with
    | some (st, k) => .err s st (some k)
    | none => .ok s [(idsFrom first count).flatMap catalogueRecord])

/-- COUNTER_READ (R522, R523). -/
def execCounterRead (r : ZcpReq) (first count : Nat) (s : State) : Out :=
  .next (s.zcpStep r { op := 0x0711, change := false } fun s =>
    match idsRefuse first count 4096 with
    | some (st, k) => .err s st (some k)
    | none => .ok { s with fresh := s.fresh + 1 } [(idsFrom first count).flatMap fun id => leBytes 8 (s.ctrNow id (Config.counterOfId id)).toNat])

/-- COUNTER_SNAPSHOT (R524). -/
def execCounterSnapshot (r : ZcpReq) (s : State) : Out :=
  .next (s.zcpStep r { op := 0x0712, early := true, frozen := true } fun s =>
    let t := s.takeSnapshot
    .ok t [leBytes 4 s.dbg.nextSnapshot.toNat, leBytes 8 s.now.toNat])

/-- SNAPSHOT_READ (R524): the number of the snapshot in force and its values. -/
def execSnapshotRead (r : ZcpReq) (first count : Nat) (s : State) : Out :=
  .next (s.zcpStep r { op := 0x0713, change := false } fun s =>
    match idsRefuse first count 4096 with
    | some (st, k) => .err s st (some k)
    | none =>
      let n : BitVec 32 := match s.dbg.snapshot with | some x => x.number | none => (Config.freeValue s.fresh).setWidth 32
      .ok { s with fresh := s.fresh + 1 + Config.numCounters }
        [leBytes 4 n.toNat, (idsFrom first count).flatMap fun id => leBytes 8 (s.ctrSnap id).toNat])

/-! ## Triggers (R505) -/

/-- The condition of a trigger (R505); a LEVEL is signed (R523). -/
def Trigger.met (x : Trigger) (now : BitVec 64) : Bool :=
  let level := (x.key.map fun k => k.id.kind == 2).getD false
  let v (b : BitVec 64) : Int := if level then b.toInt else b.toNat
  if x.cmp = 0 then decide (v now ≥ v x.value)
  else if x.cmp = 1 then decide (v now ≤ v x.value)
  else if level then decide (now.toInt - x.base.toInt ≥ x.value.toNat)
  else decide ((now - x.base).toNat ≥ x.value.toNat)

/-- TRIGGER_FIRE (R505): the trigger acts once and is disarmed. -/
def execTriggerFire (ix : Fin 8) (s : State) : Out :=
  match s.dbg.triggers[ix] with
  | none => .next s
  | some x =>
    when_ s (s.live && x.met (s.ctrNow x.id x.key)) fun s =>
      let s := { s with dbg := { s.dbg with triggers := s.dbg.triggers.set ix none } }.bump .dbgTriggersFired
      if x.snapshot then s.takeSnapshot else s.freeze .trigger (BitVec.ofNat 32 ix.val)

/-- What FREEZE_TRIGGER refuses as reserved, and a DISARM without INDEX (R505). -/
def triggerBad (c : TriggerCfg) : Option Status :=
  if c.cmp > 3 || c.counter ≥ Config.numCounters || idKind c.counter = 1 || idKind c.counter = 3 || (c.index.getD 0) > 7
  then some .reservedValue
  else if c.cmp = 3 && c.index.isNone then some .paramMissing
  else none

/-- FREEZE_TRIGGER (R505). -/
def execFreezeTrigger (r : ZcpReq) (c : TriggerCfg) (s : State) : Out :=
  .next (s.zcpStep r { op := 0x0703, frozen := true, bad := triggerBad c } fun s =>
    let at_ : Option Nat := match c.index with
      | some k => some k
      | none => (List.range 8).find? fun k => ((s.dbg.triggers.toArray[k]?).join).isNone
    match at_ with
    | none => .err s .lengthRange
    | some k =>
      let key := Config.counterOfId c.counter
      let x : Option Trigger := if c.cmp = 3 then none else
        some ⟨c.counter, key, c.cmp, c.value, c.snapshot, s.ctrNow c.counter key⟩
      .ok { s with fresh := s.fresh + 1, dbg := { s.dbg with triggers := s.dbg.triggers.setIfInBounds k x } })

/-! ## Starting a freeze (R503, R504, R507) -/

/-- FREEZE_START (R503, R504, R507, R508): the freeze root takes a cause. FREEZE_IN_N is ignored until READY (R33); a PEER
cause that arrives while frozen or without ACCEPT only counts. -/
def execFreezeStart (cause : FreezeCause) (tag : BitVec 32) (s : State) : Out :=
  when_ s (s.live && (cause != .pin || s.boot.ready)) fun s =>
    if cause = .peer then
      if s.dbg.frozen || !s.dbg.accept then s.bump .dbgFreezeFlitsIgnored
      else
        let t := s.freeze .peer tag
        { t with dbg := { t.dbg with originFid := BitVec.ofNat 16 (tag.toNat / 2 ^ 16) } }
    else (if cause = .pin && !s.dbg.frozen then s.bump .boardFreezeInEvents else s).freeze cause tag

/-- FREEZE (R503, R504): the time-stamp of the freeze in force. -/
def execFreeze (r : ZcpReq) (tag : BitVec 32) (s : State) : Out :=
  .next (s.zcpStep r { op := 0x0701, early := true, frozen := true } fun s =>
    let s := s.freeze .command tag
    .ok s [leBytes 8 s.dbg.freezeT.toNat])

/-! ## The dump area and scan-out (R506, R514 to R518) -/

/-- Bytes that the options require (R515). -/
def dumpNeeds (accs sram : Bool) : Nat := 2 ^ 20 * (if sram then 4797 else if accs then 1725 else 177)

/-- DUMP_CONFIG (R199, R506, R514). -/
def execDumpConfig (r : ZcpReq) (c : DumpCfg) (s : State) : Out :=
  let bad := c.propagate.getD 0 > 15 || (c.faultMask.getD 0).toNat ≥ 256
  .next (s.zcpStep r { op := 0x0704, bad := if bad then some .reservedValue else none } fun s =>
    match s.rangeCheck c.base c.size with
    | some st => .err (s.bump .memMapRefused) st
    | none =>
      if c.size % 2 ^ 20 ≠ 0 || c.size > 2 ^ 33 || c.size < dumpNeeds c.accs c.sram then .err s .lengthRange (some 2)
      else if c.base % 2 ^ 20 ≠ 0 then .err s .alignment (some 1)
      else .ok { s with dbg := { s.dbg with
        dump := some (c.base, c.size, c.accs, c.sram), propagate := c.propagate.getD s.dbg.propagate
        faultMask := c.faultMask.getD s.dbg.faultMask, accept := c.accept.getD s.dbg.accept } })

/-- The freeze record (R516). -/
def State.freezeRecord (s : State) (accs sram done : Bool) : List Byte :=
  let d := s.dbg
  ascii "XAFZ" ++ leBytes 4 1 ++ leBytes 4 d.number.toNat ++ leBytes 1 (freezeCode d.cause) ++
  leBytes 1 ((if accs then 1 else 0) + (if sram then 2 else 0) + (if done then 4 else 0)) ++ leBytes 2 d.originFid.toNat ++
  leBytes 4 d.tag.toNat ++ leBytes 4 ((d.snapshot.map fun x => x.number.toNat).getD 0) ++ leBytes 8 d.freezeT.toNat ++
  leBytes 8 (if done then s.now.toNat else 0) ++ leBytes 8 (dumpNeeds accs sram) ++ leBytes 4 Config.numCounters ++ leBytes 12 0

/-- The region table entry of a region (R511, R516). When the signal arrived, within 30 ns and measured to 2 ns, and how
many steps the region still ran are free; a held region runs none. -/
def State.regionEntry (s : State) (k : Nat) (v : BitVec 64) : List Byte :=
  let rook (t : Nat) : Bool := match (s.tile t).castle with | .rook _ => true | _ => false
  let ks := (((List.range 32).map fun c => k / 16 * 512 + k % 16 * 32 + c).filter fun t => !rook t).map s.stepCount
  let held := s.held k
  leBytes 8 (match ks with | [] => 0 | x :: xs => xs.foldl min x) ++ leBytes 8 (ks.foldl max 0) ++
  leBytes 8 (s.dbg.freezeT + BitVec.ofNat 64 (v.toNat % 513)).toNat ++ leBytes 1 (if held then 0 else v.toNat / 1024 % 7) ++
  leBytes 1 ((s.power.volt.toArray[k]?).getD 0) ++ leBytes 1 (if held then 1 else 0) ++ leBytes 5 0

/-- Write bytes at rising addresses in whole pieces. -/
def State.writeDump (s : State) (a : Nat) (bs : List Byte) : State := s.writePhys a bs

/-- Write n bytes whose layout or value the manual does not give (log 36). -/
def State.writeOpen (s : State) (a n : Nat) : State :=
  let (bs, s) := s.freeBytes n
  s.writeDump a bs

/-- Scan-out (R515 to R518): every section in its place, the freeze record with DONE last. What R515 and R517 give a place
but no layout is open (log 36). -/
def State.scanOut (s : State) (base : Nat) (accs sram : Bool) : State :=
  let tiles := (List.range 3072).filter fun t => !s.tileOffline t
  let s := s.writeDump base (s.freezeRecord accs sram false)
  let s := (List.range 96).foldl (fun s k =>
    let (v, s) := s.free
    s.writeDump (base + 0x100 + 32 * k) (s.regionEntry k v)) s
  let s := s.writeDump (base + 0x10000) ((List.range Config.numCounters).flatMap fun id => leBytes 8 (s.ctrSnap id).toNat)
  let s := s.writeOpen (base + 0x100000) 0x2000000
  let s := (List.range 16384).foldl (fun s k =>
    s.writeDump (base + 0x910000 + 32 * k) (leBytes 32 (((s.fab.windows.find? fun x => x.1 == k).map Prod.snd).getD 0).toNat)) s
  let s := s.faultQ.zipIdx.foldl (fun s f => s.writeDump (base + 0x990000 + 128 * f.2) f.1.bytes) s
  let s := s.writeOpen (base + 0x2100000) 0x1800000
  let s := tiles.foldl (fun s t =>
    let a := base + 0x3900000 + 40960 * t
    ((s.writeOpen a 0x5000).writeDump (a + 0x5000) (s.copyBytes (s.tile t).job t (s.tile t))).writeOpen (a + 0x6000) 0x4000) s
  let s := if !accs then s else tiles.foldl (fun s t =>
    let a := base + 0xB100000 + 528384 * t
    ((s.writeDump a (s.tile t).accBytes).writeOpen (a + 0x40000) 0x40000).writeDump (a + 0x80000) (s.tile t).metaBytes) s
  let s := if !sram then s else tiles.foldl (fun s t =>
    let bad := s.badWords t
    s.writeLines (base + 0x6BD00000 + sramSize * t) (s.sram t 0 sramSize) fun k => bad.any fun w => w / 8 == k) s
  let s := s.writeDump base (s.freezeRecord accs sram true)
  let s := match stackOf base with | some m => s.flushWhere m (fun _ => true) .memWcbFlushFence | none => s
  { s with dbg := { s.dbg with scanDone := true, doneT := s.now } }.bump .dbgScanoutNs 0 0 ((s.now - s.dbg.freezeT).toNat / 16)

/-- Scan-out has ended or there is none to wait for (R504, R514, R519). -/
def State.scanOver (s : State) : Bool := s.dbg.scanDone || s.dbg.preReady || s.dbg.dump.isNone

/-- What DUMP_READ answers of its bytes, read as any others (R207, R209, R518): a poisoned line answers POISON (log 9). -/
def State.dumpAnswer (s : State) (a len : Nat) : Ans :=
  match s.checkRead a len with
  | (s, some _) => .err s .poison
  | (s, none) => .ok s [s.readPhys a len]

/-- DUMP_READ (R518): the configured size bounds it; during a freeze it waits for DONE. -/
def execDumpRead (r : ZcpReq) (offset len : Nat) (s : State) : Out :=
  .next (s.zcpStep r { op := 0x0705, change := false } fun s =>
    match s.dbg.dump with
    | none => .err s .lengthRange (some 2)
    | some (base, size, _, _) =>
      if len < 1 || len > 32768 || offset + len > size then .err s .lengthRange (some 2)
      else if s.dbg.frozen && !s.scanOver then
        .later { s with dbg := { s.dbg with dumpReads := s.dbg.dumpReads ++ [(r.src, r.seq, offset, len)] } }
      else s.dumpAnswer (base + offset) len)

/-! ## Thaw (R519 to R521) -/

/-- A waiting request replies. -/
def State.answerLater (s : State) (src : ZcpSrc) (seq : BitVec 32) (change : Bool) (st : Status) (vs : List (List Byte)) : State :=
  match s.zcp.waiting.find? fun w => w.later && w.src == src && w.seq == seq with
  | some w => s.reply w change st (items vs)
  | none => s

/-- Steps 3 to 6 of THAW but for the reply (R184, R356, R430, R519, R521, R531). -/
def State.release (s : State) : State :=
  let s := (List.finRange 16).foldl (fun s p => s.auditEnd p .frozen) s
  let long := (s.now - s.dbg.freezeT).toNat > 160000000
  let s := { s with dbg := { s.dbg with frozen := false }, board := { s.board with freezeOutLow := false } }
  let s := (List.finRange 16).foldl (fun s p => s.tryTrain p) s
  let s := s.deferredActions
  let s := if long then s.modPpe fun p => { p with needDrift := true } else s
  let s := s.drainHost
  let s := inputs.foldl (fun s p => (List.range 12).foldl (fun s v => s.routeVc p v) s) s
  let s := (List.finRange 16).foldl (fun s q => s.serve q) s
  let s := (s.tiles.map Prod.fst).foldl (fun s t => s.kickAll t) s
  s.event .thaw {} []

/-- The release test of the first THAW that is due (R33, R34, R519, R520). Whether FREEZE_IN_N, once low, is low still is
its outside's (log 25). -/
def State.releaseTest (s : State) : State :=
  let due (x : ZcpSrc × BitVec 32 × Option (BitVec 64)) : Bool := (x.2.2.map fun t => decide (t.toNat ≤ s.now.toNat)).getD true
  match s.dbg.thaws.find? due with
  | none => s
  | some x =>
    if !s.dbg.frozen || !s.scanOver then s else
    let rest := s.dbg.thaws.filter fun y => !(y.1 == x.1 && y.2.1 == x.2.1)
    let (v, t) := s.free
    let low := s.board.freezeInLow && v.getLsbD 0
    let s := if s.board.freezeInLow then t else s
    let s := { s with board := { s.board with freezeInLow := low } }
    if low then ({ s with dbg := { s.dbg with thaws := rest } }.bump .dbgThawRefused).answerLater x.1 x.2.1 true .freezeHeld []
    else
      let s := { s with dbg := { s.dbg with thaws := [] } }.release.answerLater x.1 x.2.1 true .success []
      rest.foldl (fun s y => (s.bump .dbgThawNotFrozen).answerLater y.1 y.2.1 true .success []) s

/-- THAW (R519, R520): with no AT and no scan-out to wait for, the test is held at once. -/
def execThaw (r : ZcpReq) (at_ : Option (BitVec 64)) (s : State) : Out :=
  let t := s.zcpStep r { op := 0x0702, early := true, frozen := true } fun s =>
    if !s.dbg.frozen then .ok (s.bump .dbgThawNotFrozen)
    else if (at_.map fun t => decide (t.toNat < s.now.toNat) || decide (s.now.toNat + 160000000000 < t.toNat)).getD false
    then .err s .reservedValue (some 0x8001)
    else .later { s with dbg := { s.dbg with thaws := s.dbg.thaws ++ [(r.src, r.seq, at_)] } }
  .next (if t.dbg.thaws = s.dbg.thaws then t else t.releaseTest)

/-- RELEASE_TEST (R520). -/
def execReleaseTest (s : State) : Out := when_ s s.live fun s => s.releaseTest

/-- Scan-out ends (R514, R518): the DUMP_READs that waited are answered, and a THAW that waited is tested. -/
def State.scanEnds (s : State) (base : Nat) (accs sram : Bool) : State :=
  let s := s.scanOut base accs sram
  let ds := s.dbg.dumpReads
  let s := { s with dbg := { s.dbg with dumpReads := [] } }
  (ds.foldl (fun s d => match s.dumpAnswer (base + d.2.2.1) d.2.2.2 with
    | .ok s vs => s.answerLater d.1 d.2.1 false .success vs
    | .err s st _ _ => s.answerLater d.1 d.2.1 false st []
    | .later s => s) s).releaseTest

/-- SCAN_OUT_COMPLETE (R514, R518): the DUMP_READs that waited are answered, and a THAW that waited is tested. -/
def execScanOutComplete (s : State) : Out :=
  match s.dbg.dump with
  | none => .next s
  | some (base, _, accs, sram) =>
    when_ s (s.live && s.dbg.frozen && !s.scanOver) fun s => s.scanEnds base accs sram

/-! ## AUDIT (R529 to R531) -/

/-- AUDIT (R529): the VCs are quiesced and read as soon as they are quiet; audits of one port run one after another. -/
def execAudit (r : ZcpReq) (p : PortIx) (vc : Nat) (s : State) : Out :=
  let t := s.zcpStep r { op := 0x0730, target := portTarget p, bad := if vc > 11 && vc != 15 then some .reservedValue else none } fun s =>
    let x := s.ports[p]
    if !(x.usable || x.state == .held) then .err s .portState
    else
      let s := s.bump .fabPortAudits p.val
      .later (s.modPort p fun x =>
        if x.audit.isNone then { x with audit := some ⟨vc, s.clock⟩ } else { x with auditQ := x.auditQ ++ [vc] })
  .next (if t.ports[p].audit = s.ports[p].audit then t else t.auditTry p)

end Sys2Proof.Machine
end

