-- ==== Sys2Proof/Machine/HostEth.lean ====
section
/-! DEFINITION. Host Ethernet: arriving frames and RoCE messages, timers, PFC, links, and the ZCP commands of hosts, memory
regions and queue pairs (R407 to R430, R450). -/

namespace Sys2Proof.Machine

/-! ## Frames (R409, R412, R426, R428) -/

/-- A RoCE frame waits in the receive buffer while the engines are frozen (R426, R430). -/
def State.holdFrame (s : State) (h : HostIx) (f : Frame) : State :=
  let p := s.host.ports[h]
  if p.held.toList.sum + f.bytes > 4194304 then s.bump .hostRxFreezeDropped h.val else
  let k := p.held[f.prio] + f.bytes
  let s := s.modHostPort h fun p => { p with held := p.held.set f.prio k }
  if p.pfc.contains f.prio && !p.xoff[f.prio] && k > Config.pfcShare p.pfc.length - 786432 then
    let s := (s.modHostPort h fun p => { p with xoff := p.xoff.set f.prio true }).bump .hostPfcTxXoff h.val
    let mask := (s.host.ports[h].xoff.toList.zipIdx.map fun (b, i) => if b then 2 ^ i else 0).sum
    s.emit (.net ⟨4 * h.val, by omega⟩ (.pfc (BitVec.ofNat 8 mask)))
  else s

/-- What a frame is (R409, R412). -/
inductive FrameKind where
  | pause | fragment | ptp | control | roce | zcp | other
  deriving DecidableEq, Repr

/-- The class of an IP packet (R409, R412): UDP is protocol 17, and a DHCPv4 reply goes to its port 68 (log 34). -/
def ipKind (mgmt : Nat) (h : IpHdr) : FrameKind :=
  if h.fragment then .fragment else if h.options then .other
  else if h.proto == (if h.v6 then 58 else 1) then .control
  else if h.proto ≠ 17 then .other
  else if h.dstPort == 319 || h.dstPort == 320 then .ptp
  else if h.dstPort == 68 && !h.v6 then .control
  else if h.dstPort == 4791 then .roce
  else if h.dstPort.toNat == mgmt then .zcp
  else .other

/-- The class of a frame (R409, R412), by its EtherType; a frame with stacked VLAN tags is none of R412's (log 34). -/
def frameKind (mgmt : Nat) (f : Frame) : FrameKind :=
  if f.tags > 1 then .other
  else if f.etherType == 0x8808 && f.macOp == 1 then .pause
  else if f.etherType == 0x88F7 then .ptp
  else if f.etherType == 0x0806 then .control
  else match f.ip with
    | some h => if f.etherType == (if h.v6 then 0x86DD else 0x0800) then ipKind mgmt h else .other
    | none => .other

/-- A frame arrives (R409, R412, R430, R433): it is checked and classified. -/
def State.ethFrameIn (s : State) (i : IfIx) (f : Frame) : State :=
  let h := (portOfIf i).val
  let s := ((s.bump .hostRxFrames h).bump .hostRxBytes h 0 f.bytes).bump .hostFecCorrected h 0 f.fecCorrected
  let s := s.bump .hostFecUncorrectable h 0 f.fecUncorrectable
  if !f.fcsOk then s.bump .hostRxFcsErrors h
  else if f.bytes > 9216 then s.bump .hostRxOversize h
  else match frameKind s.host.mgmtPort f with
    | .fragment => s.bump .hostRxFragment h
    | .pause => s.bump .hostRxPauseDiscarded h
    | .ptp => s.bump .hostRxPtp h
    | .control => s.bump .hostRxControl h
    | .roce =>
      let s := s.bump .hostRxRoce h
      if s.dbg.frozen then s.holdFrame (portOfIf i) f else s
    | .zcp => (s.bump .hostRxZcp h).zcpPacketIn f.src f.data
    | .other => s.bump .hostRxUnclaimed h

/-- FRAME_RECEIVED (R409, R412, R430, R433): the frame is checked and classified. -/
def execFrameReceived (i : IfIx) (f : Frame) (s : State) : Out :=
  when_ s (s.live && s.ifaceExists i && s.host.ifaces[i].up) fun s => s.ethFrameIn i f

/-- PTP_MESSAGE (R428): the event message's time-stamp, within 2 ns of global time, reaches the control processor. -/
def execPtpMessage (i : IfIx) (stamp : BitVec 64) (s : State) : Out :=
  when_ s (s.live && s.ifaceExists i && s.host.ifaces[i].up && decide (((stamp.toNat : Int) - s.now.toNat).natAbs ≤ 32)) fun s =>
    s.modHostPort (portOfIf i) fun p => { p with ptpStamp := some stamp }

/-- CONTROL_FRAME (R410 to R412): a DHCPv4 lease takes index 0 where no static IPv4 address stands; another request is
answered within the rate limit. -/
def execControlFrame (i : IfIx) (dhcp : Option (BitVec 32)) (s : State) : Out :=
  when_ s (s.live && s.ifaceExists i && s.host.ifaces[i].up) fun s =>
    match dhcp with
    | some a => if s.host.ifaces[i].ipv4.isEmpty then s.setAddr i 0 (some (a.setWidth 128)) else s
    | none =>
      let h := portOfIf i
      let recent := s.host.ports[h].answered.filter fun t => s.clock < t + 1000000000
      if recent.length ≥ 10000 then s.bump .hostRxControlLimited h.val
      else (s.modHostPort h fun p => { p with answered := s.clock :: recent }).emit (.net i .controlReply)

/-- ADDRESS_CHANGE (R411). -/
def execAddressChange (i : IfIx) (ix : Fin 8) (addr : Option (BitVec 128)) (s : State) : Out :=
  when_ s (s.live && s.ifaceExists i) fun s => s.setAddr i ix addr

/-- HOST_LINK_CHANGE (R407, R427, R430): queue pairs stay in their states; a gap of up to 50 µs in a laser switchover is not
reported. -/
def execHostLinkChange (i : IfIx) (up : Bool) (s : State) : Out :=
  let h := portOfIf i
  let bay : BayIx := if h.val < 2 then 8 else 9
  let lit := s.bays[bay].state == .active
  let gap := (s.host.ports[h].dark.map fun t => decide (s.clock ≤ t + 50000)).getD false
  when_ s (s.live && s.ifaceExists i && s.host.ifaces[i].up != up && (if up then lit else !gap)) fun s =>
    let s := s.modIface i fun x => { x with up := up }
    if up then (s.host.qps.filter fun q => q.p.iface == i).foldl (fun s q => s.workQp q.qpn) s else s

/-- Named priorities of a lossless set are paused, the others run again (R426). -/
def State.pfcIn (s : State) (h : HostIx) (pause : BitVec 8) : State :=
  (s.host.ports[h].pfc.foldl (fun (s : State) (k : Fin 8) =>
    let p := s.host.ports[h]
    let calm := p.stormed[k] && p.paused[k].isNone && p.resumed[k] + 100000000 ≤ s.clock
    let s := if calm then s.modHostPort h fun p => { p with stormed := p.stormed.set k false } else s
    if pause.getLsbD k.val then
      (if p.paused[k].isSome then s
       else s.modHostPort h fun p => { p with paused := p.paused.set k (some s.clock) }).bump .hostPfcRxXoff h.val
    else if p.paused[k].isSome then
      s.modHostPort h fun p => { p with paused := p.paused.set k none, resumed := p.resumed.set k s.clock }
    else s) s).releaseTx h

/-- PFC_FRAME (R426): named priorities of a lossless set are paused, the others run again. -/
def execPfcFrame (h : HostIx) (pause : BitVec 8) (s : State) : Out :=
  when_ s (s.live && !s.host.ports[h].pfc.isEmpty) fun s => s.pfcIn h pause

/-- PFC_WATCHDOG (R426). -/
def execPfcWatchdog (h : HostIx) (prio : Fin 8) (s : State) : Out :=
  let p := s.host.ports[h]
  let due := (p.paused[prio].map fun t => decide (t + 1000000 * p.watchdogMs < s.clock)).getD false
  when_ s (s.live && due && !p.stormed[prio]) fun s =>
    (((s.modHostPort h fun p => { p with stormed := p.stormed.set prio true }).setFlag .hostPfcStorm 5 (4 * h.val)).bump
      .hostPfcWatchdog h.val).releaseTx h

/-! ## RDMA (R414 to R425) -/

/-- ROCE_REQUEST (R414, R417, R422, R424). -/
def execRoceRequest (i : IfIx) (q : RoceReq) (s : State) : Out :=
  match s.qp q.qpn with
  | none => .next s
  | some x =>
    when_ s (s.working && s.host.ifaces[i].up && x.p.iface == i && (x.state == .rtr || x.state == .rts) && q.payload.length == (if q.op = .read || q.op = .atomic then 0 else q.len)) fun s =>
      s.roceIn x q

/-- A queue pair that sends. -/
def State.onRts (s : State) (n : Nat) (c : Qp → Bool) (f : State → Qp → State) : Out :=
  match s.qp n with
  | none => .next s
  | some q => when_ s (s.working && q.state == .rts && c q) fun s => f s q

/-- ROCE_ACK (R423 to R425). -/
def execRoceAck (qpn : Nat) (a : RoceAnswer) (s : State) : Out :=
  s.onRts qpn (fun q => s.host.ifaces[q.p.iface].up) fun s _ => s.roceAnswer qpn a

/-- CNP (R425). -/
def execCnp (qpn : Nat) (s : State) : Out := s.onRts qpn (fun q => s.host.ifaces[q.p.iface].up) fun s _ => s.cnpIn qpn

/-- DOORBELL_POLL (R421): every 4 µs, or every q / 64 µs for q polled queue pairs of the port. -/
def execDoorbellPoll (qpn : Nat) (s : State) : Out :=
  s.onRts qpn (fun q =>
    let k := (s.host.qps.filter fun x => x.p.poll && portOfIf x.p.iface == portOfIf q.p.iface).length
    q.p.poll && decide (64 * q.polled + max 256000 (1000 * k) ≤ 64 * s.time.work)) fun s _ => s.doorbell qpn

/-- LOCAL_ACK_TIMEOUT (R415, R423): 4.096 µs × 2^t after the oldest was last sent. -/
def execLocalAckTimeout (qpn : Nat) (s : State) : Out :=
  s.onRts qpn (fun q => q.p.timeout ≠ 0 && !q.rnrWait &&
    ((q.sent.head?.map fun w => decide (w.last + 4096 * 2 ^ q.p.timeout.toNat ≤ s.time.work)).getD false)) fun s q =>
      s.retryQp qpn ((q.sent.head?.map SentWqe.psn).getD 0) none

/-- RNR_TIMER (R423). -/
def execRnrTimer (qpn : Nat) (s : State) : Out :=
  s.onRts qpn (fun q => q.rnrWait) fun s q =>
    ((s.modQp qpn fun q => { q with rnrWait := false }).resendFrom qpn ((q.sent.head?.map SentWqe.psn).getD 0) none).workQp qpn

/-- RATE_TIMER (R425). -/
def execRateTimer (qpn : Nat) (s : State) : Out :=
  s.onRts qpn (fun q => decide (q.lastCnpRx + 50000 ≤ s.time.work)) fun s _ => s.rateTick qpn

/-! ## ZCP commands of the host ports -/

/-- TARGET of a host interface and of a queue pair (R436). -/
def ifTarget (i : IfIx) : Target := ⟨5, BitVec.ofNat 24 i.val⟩
def qpTarget (n : Nat) : Target := ⟨9, BitVec.ofNat 24 n⟩
def jobTgt (j : BitVec 12) : Target := ⟨8, BitVec.ofNat 24 j.toNat⟩

/-- A setting out of its range (R410, R425, R426, R429). -/
def hostCfgBad (c : HostCfg) : Bool :=
  let out (o : Option Nat) (lo hi : Nat) : Bool := (o.map fun v => v < lo || v > hi).getD false
  (c.ipv4.map fun x => decide (x.length > 4)).getD false || (c.ipv6.map fun x => decide (x.length > 4)).getD false ||
  out c.mgmtPort 1024 65535 || c.mgmtPort == some 4791 || (c.pfc.map fun x => decide (x.eraseDups.length > 2)).getD false ||
  out c.watchdogMs 1 10000 || out c.gInv 16 1024 || out c.rai 1 100 || out c.tHigh 5 1000 || out c.tLow 1 500

/-- A port's mode by its position in R407. -/
def modeCode : HostMode → Nat | .m1x800 => 0 | .m2x400 => 1 | .m4x200 => 2 | .m4x100 => 3

/-- The settings in force of an interface and its port, in the order of the command's parameters. -/
def State.hostSettings (s : State) (i : IfIx) : List (List Byte) :=
  let p := s.host.ports[portOfIf i]
  let x := s.host.ifaces[i]
  [leBytes 1 (modeCode p.mode),
   leBytes 1 x.ipv4.length ++ x.ipv4.flatMap (fun a => (leBytes 4 a.toNat).reverse) ++
     leBytes 1 x.ipv6.length ++ x.ipv6.flatMap (fun a => (leBytes 16 a.toNat).reverse) ++
     leBytes 1 (if s.flash.hostSettings.any fun y => y.iface == i.val then 1 else 0),
   leBytes 2 s.host.mgmtPort,
   leBytes 1 (p.pfc.map fun k => 2 ^ k.val).sum ++ leBytes 2 p.watchdogMs,
   leBytes 2 p.gInv ++ leBytes 1 p.rai ++ leBytes 2 p.tHigh ++ leBytes 2 p.tLow,
   leBytes 1 (if p.oneStep then 1 else 0)]

/-- The port takes another mode (R407, R430): it goes down, and its queue pairs enter ERROR. -/
def State.setMode (s : State) (h : HostIx) (m : HostMode) : State :=
  if s.host.ports[h].mode = m then s else
  let s := (List.finRange 16).foldl (fun (s : State) i =>
    if portOfIf i = h then s.modIface i fun x => { x with up := false } else s) s
  (s.modHostPort h fun p => { p with mode := m }).qpErrors fun q => portOfIf q.p.iface == h

/-- Static addresses replace what the table held (R410, R411). -/
def State.setStatic (s : State) (i : IfIx) (v4 : Option (List (BitVec 32))) (v6 : Option (List (BitVec 128))) : State :=
  let x := s.host.ifaces[i]
  let a4 := v4.getD x.ipv4
  let a6 := v6.getD x.ipv6
  let new := staticAddrs a4 a6
  let s := s.modIface i fun x => { x with ipv4 := a4, ipv6 := a6 }
  (List.finRange 8).foldl (fun (s : State) (k : Fin 8) =>
    if (k.val < 4 && v4.isSome) || (k.val ≥ 4 && v6.isSome) then s.setAddr i k new[k] else s) s

/-- The settings of an interface and its port are changed, and kept over a loss of power where PERSIST says so
(R407, R410, R425, R426, R428, R429). -/
def State.hostConfigure (s : State) (i : IfIx) (c : HostCfg) : State :=
  let h := portOfIf i
  let s := match c.mode with | some m => s.setMode h m | none => s
  let s := s.setStatic i c.ipv4 c.ipv6
  let s := s.modHost fun x => { x with mgmtPort := c.mgmtPort.getD x.mgmtPort }
  let s := s.modHostPort h fun p => { p with
    pfc := (c.pfc.map List.eraseDups).getD p.pfc, watchdogMs := c.watchdogMs.getD p.watchdogMs, oneStep := c.ptpOneStep.getD p.oneStep
    gInv := c.gInv.getD p.gInv, rai := c.rai.getD p.rai, tHigh := c.tHigh.getD p.tHigh, tLow := c.tLow.getD p.tLow }
  let s := s.releaseTx h
  if !c.persist then s else
    let x := s.host.ifaces[i]
    let e : PersistHost := { iface := i.val, mgmt := some s.host.mgmtPort, ipv4 := x.ipv4, ipv6 := x.ipv6 }
    { s with flash := { s.flash with hostSettings := (s.flash.hostSettings.filter fun y => y.iface != i.val) ++ [e] } }

/-- HOST_CONFIG (R407, R410, R425, R426, R428, R429). -/
def execHostConfig (r : ZcpReq) (i : IfIx) (c : HostCfg) (s : State) : Out :=
  .next (s.zcpStep r { op := 0x0101, early := true, target := ifTarget i, bad := if hostCfgBad c then some .reservedValue else none } fun s =>
    .ok (s.hostConfigure i c) ((s.hostConfigure i c).hostSettings i))

/-- HOST_STATUS (R408, R411). -/
def execHostStatus (r : ZcpReq) (i : IfIx) (s : State) : Out :=
  .next (s.zcpStep r { op := 0x0102, change := false, target := ifTarget i } fun s =>
    let x := s.host.ifaces[i]
    .ok s [leBytes 1 (if x.up then 1 else 0), leBytes 1 (modeCode s.host.ports[portOfIf i].mode),
      x.addrs.toList.zipIdx.flatMap fun (a, k) => match a with
        | some a => leBytes 1 k ++ (leBytes 16 a.toNat).reverse
        | none => [],
      (leBytes 6 (Config.macBase.toNat + i.val)).reverse])

/-! ## ZCP commands of memory regions and queue pairs -/

/-- MR_REGISTER (R413, R416). -/
def execMrRegister (r : ZcpReq) (job : BitVec 12) (base len : Nat) (rights : BitVec 3) (s : State) : Out :=
  .next (s.zcpStep r { op := 0x0310, target := jobTgt job } fun s =>
    if (s.job job).isNone then .err s .jobUnknown
    else if s.host.mrs.length ≥ 65536 then .err (s.bump .rdmaRefused) .mrLimit
    else if len < 1 || base + len > 2 ^ 48 then .err s .lengthRange (some 2) else
    match (List.range 65536).find? fun k => !s.host.mrs.any fun m => m.index == k with
    | none => .err (s.bump .rdmaRefused) .mrLimit
    | some k =>
      let g := ((s.host.gens.find? fun p => p.1 == k).map Prod.snd).getD 0 + 1
      let s := s.modHost fun h => { h with
        mrs := h.mrs ++ [⟨k, job, base, len, rights, g⟩], gens := (k, g) :: h.gens.filter fun p => p.1 != k }
      .ok s [leBytes 4 (k * 2 ^ 16 + g.toNat)])

/-- MR_DEREGISTER (R416, R418, R450). -/
def execMrDeregister (r : ZcpReq) (job : BitVec 12) (rkey : BitVec 32) (s : State) : Out :=
  .next (s.zcpStep r { op := 0x0311, target := jobTgt job } fun s =>
    if (s.job job).isNone then .err s .jobUnknown else
    match s.memRegion job rkey with
    | none => .err s .mrUnknown
    | some m => .ok (s.modHost fun h => { h with mrs := h.mrs.filter fun x => x.index != m.index }))

/-- QP_CREATE (R413, R415). -/
def execQpCreate (r : ZcpReq) (job : BitVec 12) (p : QpParams) (s : State) : Out :=
  .next (s.zcpStep r { op := 0x0320, target := jobTgt job } fun s =>
    match s.job job with
    | none => .err s .jobUnknown
    | some j =>
      match s.qpCheck j p with
      | some e => .err (if s.qpLimit p e then s.bump .rdmaRefused else s) e
      | none =>
        if s.host.qps.length ≥ 8192 then .err (s.bump .rdmaRefused) .qpLimit else
        match ((List.range 8192).map (· + 1)).find? fun n => (s.qp n).isNone with
        | none => .err (s.bump .rdmaRefused) .qpLimit
        | some n => .ok (s.modHost fun h => { h with qps := h.qps ++ [{ qpn := n, job := job, p := p }] }) [leBytes 2 n])

/-- A queue pair takes new attributes, where given, and a state (R415). -/
def State.qpChange (s : State) (qpn : Nat) (q : Qp) (st : QpState) (attr : Option QpParams) : State :=
  let s := s.modQp qpn fun q => { q with p := attr.getD q.p }
  match st with
  | .reset => s.modQp qpn fun q => { ({ qpn := q.qpn, job := q.job, p := q.p } : Qp) with completed := q.completed }
  | .error => s.qpError qpn
  | .init => s.modQp qpn fun q => { q with state := .init }
  | .rtr => s.modQp qpn fun q => { q with state := .rtr, recvPsn := q.p.rqPsn }
  | .rts =>
    (s.modQp qpn fun x => { x with
      state := .rts, sendPsn := if q.state = .rts then x.sendPsn else x.p.sqPsn, lastCnpRx := s.time.work }).workQp qpn

/-- QP_MODIFY (R415): the attributes take the place of those in force. -/
def execQpModify (r : ZcpReq) (qpn : Nat) (st : QpState) (attr : Option QpParams) (s : State) : Out :=
  .next (s.zcpStep r { op := 0x0321, target := qpTarget qpn } fun s =>
    match s.qp qpn with
    | none => .err s .qpUnknown
    | some q =>
      match s.job q.job with
      | none => .err s .jobUnknown
      | some j =>
        if !qpMoves q.state st then .err s .qpState else
        match attr.bind (s.qpCheck j) with
        | some e => .err (if (attr.map fun p => s.qpLimit p e).getD false then s.bump .rdmaRefused else s) e
        | none => .ok (s.qpChange qpn q st attr))

/-- QP_DESTROY (R418). -/
def execQpDestroy (r : ZcpReq) (qpn : Nat) (s : State) : Out :=
  .next (s.zcpStep r { op := 0x0322, target := qpTarget qpn } fun s =>
    if (s.qp qpn).isNone then .err s .qpUnknown else .ok (s.dropQp qpn))

/-- QP_DOORBELL (R421). -/
def execQpDoorbell (r : ZcpReq) (qpn : Nat) (s : State) : Out :=
  .next (s.zcpStep r { op := 0x0323, target := qpTarget qpn } fun s =>
    if (s.qp qpn).isNone then .err s .qpUnknown else .ok (s.doorbell qpn))

/-- A queue pair's state by its position in R415. -/
def qpCode : QpState → Nat | .reset => 0 | .init => 1 | .rtr => 2 | .rts => 3 | .error => 4

/-- QP_QUERY (R425, R450): its rate in units of 2⁻³² of line rate. -/
def execQpQuery (r : ZcpReq) (qpn : Nat) (s : State) : Out :=
  .next (s.zcpStep r { op := 0x0324, change := false, target := qpTarget qpn } fun s =>
    match s.qp qpn with
    | none => .err s .qpUnknown
    | some q =>
      .ok s [leBytes 1 (qpCode q.state), leBytes 4 q.sendPsn.toNat ++ leBytes 4 q.recvPsn.toNat,
        leBytes 8 (q.rate * 2 ^ 32).floor.toNat,
        leBytes 4 q.sent.length ++ leBytes 4 q.sqNext ++ leBytes 8 q.cq ++ leBytes 8 q.completed])

end Sys2Proof.Machine
end

