-- ==== Sys2Proof/Machine/Security.lean ====
section
/-! DEFINITION. Attestation, measurements, firmware update and restart (R462, R469 to R479). The security engine serves a
request at once (log 6). -/

namespace Sys2Proof.Machine

/-- Code of a bay state (R365). -/
def bayCode : BayState → Nat
  | .empty => 0 | .authenticating => 1 | .authFailed => 2 | .ramping => 3 | .active => 4 | .draining => 5 | .drained => 6 | .fault => 7

/-- Value of the counter of an ID (R522, R523); none where there is no such ID. -/
def State.counterById (s : State) (id : Nat) : Option (BitVec 64) :=
  if id ≥ Config.numCounters then none
  else some (match Config.counterOfId id with | some k => s.counter k | none => Config.privateValue id s.fresh)

/-- The report of ATTEST before its signature (R476). -/
def State.report (s : State) (nonce : List Byte) (ids : List Nat) : List Byte :=
  let b (x : Bool) (k : Nat) : Nat := if x then 2 ^ k else 0
  let flags := b (s.time.state == .sync) 0 + b s.boot.certMismatch 1 + b s.boot.fellBack 2 + b s.dbg.frozen 3 + b s.fab.plan.isSome 4
  leBytes 4 1 ++ leBytes 4 flags ++ nonce ++ leBytes 8 s.now.toNat ++ (Config.serial ++ List.replicate 24 0).take 24 ++
  leBytes 4 (s.fwField 8 4) ++ leBytes 1 (if s.boot.running then 1 else 0) ++ leBytes 1 (s.fwField 12 1) ++ leBytes 1 s.flash.rollback ++
  [1] ++ leBytes 1 Config.siliconRev.toNat ++ leBytes 7 0 ++ leBytes 8 s.sec.configCount ++
  s.sec.rom ++ s.sec.firmware ++ s.sec.config ++ s.sec.plan ++ Config.publicKey ++
  (s.bays.toList.flatMap fun x =>
    if x.state = .empty then List.replicate 32 0
    else leBytes 1 (bayCode x.state) ++ leBytes 1 x.condition ++ leBytes 2 0 ++ ((x.ident ++ List.replicate 32 0).drop 4).take 28) ++
  leBytes 4 ids.length ++ leBytes 4 0 ++
  ids.flatMap fun k => leBytes 4 k ++ leBytes 4 0 ++ leBytes 8 ((s.counterById k).getD 0).toNat

/-- ATTEST (R476, R477). -/
def execAttest (r : ZcpReq) (nonce : List Byte) (ids : List Nat) (s : State) : Out :=
  .next (s.zcpStep r { op := 0x0801, change := false } fun s =>
    if nonce.length ≠ 32 then .err s .lengthRange (some 1)
    else if ids.length > 256 then .err s .lengthRange (some 2)
    else if ids.any fun k => (s.counterById k).isNone then .err s .reservedValue (some 2)
    else
      let rep := s.report nonce ids
      .ok (s.bump .secAttests) [rep ++ Config.sign (ascii "XA-4024 ATTEST") rep])

/-- CERT_READ (R474). -/
def execCertRead (r : ZcpReq) (s : State) : Out :=
  .next (s.zcpStep r { op := 0x0802, change := false } fun s => .ok s [Config.certificate])

/-- MEASURE_READ (R475): the four measurements and CONFIG_COUNT. -/
def execMeasureRead (r : ZcpReq) (s : State) : Out :=
  .next (s.zcpStep r { op := 0x0803, change := false } fun s =>
    .ok s [s.sec.rom ++ s.sec.firmware ++ s.sec.config ++ s.sec.plan, leBytes 8 s.sec.configCount])

/-! ## Firmware (R469 to R472) -/

/-- A bank state by its position in R471. -/
def bankCode : BankState → Nat | .empty => 0 | .written => 1 | .verified => 2 | .invalid => 3 | .rollback => 4

/-- What FW_STATUS tells of a bank: version, security version and state (R471). -/
def Flash.bankBytes (f : Flash) (b : Bool) : List Byte :=
  leBytes 4 ((f.bank b).field b 8 4) ++ leBytes 1 ((f.bank b).field b 12 1) ++ leBytes 1 (bankCode (f.bank b).state)

/-- FW_STATUS (R471). -/
def execFwStatus (r : ZcpReq) (s : State) : Out :=
  .next (s.zcpStep r { op := 0x0901, change := false } fun s =>
    .ok s [s.flash.bankBytes false ++ s.flash.bankBytes true, leBytes 1 (if s.flash.sel then 1 else 0),
      leBytes 1 (if s.boot.running then 1 else 0), leBytes 1 s.flash.rollback])

/-- FW_WRITE (R469, R472). -/
def execFwWrite (r : ZcpReq) (offset : Nat) (data : List Byte) (s : State) : Out :=
  .next (s.zcpStep r { op := 0x0902, early := true } fun s =>
    let other := !s.boot.running
    let b := s.flash.bank other
    if offset ≠ 0 && (offset ≠ b.ptr || b.manufactured) then .err s .lengthRange (some 1)
    else if data.isEmpty || data.length > 32768 || offset + data.length > 117440512 then .err s .lengthRange (some 2)
    else
      let old := if offset = 0 then [] else b.cells
      let cells := old ++ (data.zipIdx.filterMap fun (x, i) => if x = 0xFF then none else some (offset + i, x))
      let nb : Bank := { manufactured := false, cells := cells, ptr := offset + data.length, state := .written }
      let s := { s with flash := s.flash.setBank other nb }
      .ok ((s.bump .fwWrites).bump .fwBytes 0 0 data.length))

/-- The other bank takes a state (R471). -/
def State.markBank (s : State) (x : BankState) : State :=
  { s with flash := s.flash.setBank (!s.boot.running) { s.flash.bank (!s.boot.running) with state := x } }

/-- FW_VERIFY (R466, R471). -/
def execFwVerify (r : ZcpReq) (s : State) : Out :=
  .next (s.zcpStep r { op := 0x0903, early := true } fun s =>
    match s.flash.verify (!s.boot.running) with
    | none => .ok (s.markBank .verified)
    | some .fwRollback => .err ((s.markBank .rollback).bump .fwVerifyFailed) .fwRollback
    | some e => .err ((s.markBank .invalid).bump .fwVerifyFailed) e)

/-- FW_ACTIVATE (R471, R472). -/
def execFwActivate (r : ZcpReq) (s : State) : Out :=
  .next (s.zcpStep r { op := 0x0904, early := true } fun s =>
    let other := !s.boot.running
    if (s.flash.bank other).state ≠ .verified then .err s .fwNotVerified
    else if s.flash.sel = other then .ok s
    else .ok { s with flash := ({ s.flash with sel := other } : Flash).setAttempts other 0 })

/-- What the self-tests of a restart find: what stands now, with a failed pseudo-channel taken over by a free spare, or
its stack OFFLINE (R209; log 24). -/
def State.retest (s : State) : BootResult :=
  let pick (p : Stack → Bool) : List StackIx := (List.finRange 24).filter fun m => p s.hbm[m]
  { failedTiles := s.boot.failedTiles
    offlineStacks := pick fun k => k.offline || k.failedPcs.length > (if k.spareUsed then 0 else 1)
    sparedStacks := pick fun k => k.spareUsed || !k.failedPcs.isEmpty
    hbmNs := s.boot.hbmNs, selftestNs := s.boot.selftestNs, cartridgeNs := s.boot.cartridgeNs }

/-- MODULE_RESTART (R462): the reply is sent, then the module restarts as at RESET_N. -/
def execModuleRestart (r : ZcpReq) (s : State) : Out :=
  let t := s.zcpStep r { op := 0x0905, early := true, frozen := true } fun s => .ok { s with boot := { s.boot with restart := true } }
  .next (if t.boot.restart = s.boot.restart then t else t.resetLogic.bootUp t.retest)

end Sys2Proof.Machine
end

