-- ==== Sys2Proof/Machine/LaserOps.lean ====
section
/-! DEFINITION. What the commands of the laser cartridges share: bays, CTRL, ledgers, fade, spare-in and condition
(R358 to R378, R540, R541). -/

namespace Sys2Proof.Machine

/-! ## Bays (R358, R540) -/

/-- KIND, number of lasers, and spare laser of a bay (R358). -/
def bayKind (b : BayIx) : Nat := if b.val < 8 then 0 else if b.val < 10 then 1 else 2
def bayLasers (b : BayIx) : Nat := match bayKind b with | 0 => 9 | 1 => 3 | _ => 2
def baySpare (b : BayIx) : Nat := bayLasers b - 1

/-- Operating minimum and maximum, and absolute maximum of delivered power in 0.01 dBm (R540). -/
def bayPower (b : BayIx) : Int × Int × Int :=
  match bayKind b with | 0 => (800, 1300, 1500) | 1 => (1200, 1700, 2000) | _ => (1300, 1800, 2000)

/-- Lasers of a bay. -/
def lasersOf (b : BayIx) : List (Fin 9) := (List.finRange 9).filter fun j => j.val < bayLasers b

/-- Change a bay, and one laser of it. -/
def State.modBay (s : State) (b : BayIx) (f : Bay → Bay) : State := { s with bays := s.bays.set b (f s.bays[b]) }
def State.modLaser (s : State) (b : BayIx) (j : Fin 9) (f : Laser → Laser) : State :=
  s.modBay b fun x => { x with lasers := x.lasers.set j (f x.lasers[j]) }

/-- Write registers of a cartridge; under EXTEST the buses are not the module's (R29). -/
def State.i3cWrite (s : State) (b : BayIx) (offset : Nat) (bs : List Byte) : State :=
  if s.board.tap = .extest then s else s.emit (.i3c b offset bs)

/-- Write CTRL (R362). -/
def State.writeCtrl (s : State) (b : BayIx) (f : BitVec 32 → BitVec 32) : State :=
  let c := f s.bays[b].ctrl
  (s.modBay b fun x => { x with ctrl := c }).i3cWrite b 0x100 (leBytes 4 c.toNat)

/-- EN bits of a CTRL word, and the word with other EN bits or another LED (R362). -/
def ctrlEn (c : BitVec 32) : BitVec 32 := c &&& 0xFF80#32
def setEn (en : Nat) (c : BitVec 32) : BitVec 32 := (c &&& ~~~0xFF80#32) ||| BitVec.ofNat 32 (en % 512 * 128)
def setLed (led : Nat) (c : BitVec 32) : BitVec 32 := (c &&& ~~~0x18#32) ||| BitVec.ofNat 32 (led % 4 * 8)

/-- Post the event CARTRIDGE (R457). -/
def State.cartEvent (s : State) (b : BayIx) : State :=
  let x := s.bays[b]
  s.event .cartridge ⟨6, BitVec.ofNat 24 b.val⟩ (leBytes 1 (bayCode x.state) ++ leBytes 1 x.condition ++ leBytes 1 x.reason)

/-! ## The life ledger (R368, R369) -/

/-- A ledger is valid (R368). -/
def ledgerValid (l : List Byte) : Bool :=
  l.length == 352 && bfld l 0 1 == 1 && (crc32 (l.take 60 ++ l.drop 64)).toNat == bfld l 60 4

/-- A signed 16-bit field. -/
def sfld (l : List Byte) (a : Nat) : Int := (BitVec.ofNat 16 (bfld l a 2)).toInt

/-- The record of a laser (R368). -/
def Laser.record (x : Laser) : List Byte :=
  x.hours.flatMap (leBytes 4) ++ leBytes 2 (match x.c with | some c => (BitVec.ofInt 16 c).toNat | none => 0x8000) ++
  leBytes 2 (BitVec.ofInt 16 x.d).toNat ++ leBytes 2 x.peakBias ++ leBytes 10 0

/-- The ledger image of a bay (R368). -/
def ledgerBytes (b : BayIx) (x : Bay) : List Byte :=
  let faded := ((lasersOf b).map fun j => if x.lasers[j].faded then 2 ^ j.val else 0).sum
  let head := [1] ++ leBytes 1 x.condition ++ leBytes 2 faded ++ leBytes 4 x.commits ++ leBytes 4 x.powerCycles ++
    leBytes 2 (BitVec.ofInt 16 x.peakTemp).toNat ++ leBytes 2 0 ++ (x.firstModule ++ List.replicate 24 0).take 24 ++
    leBytes 8 x.commissionT.toNat ++ leBytes 12 0
  let recs := (List.finRange 9).flatMap fun j => if j.val < bayLasers b then (x.lasers[j]).record else leBytes 32 0
  head ++ leBytes 4 (crc32 (head ++ recs)).toNat ++ recs

/-- Commit the ledger (R369): LEDGER_STAGE is written, then LEDGER_COMMIT. -/
def State.commitLedger (s : State) (b : BayIx) : State :=
  let s := s.modBay b fun x => { x with commits := x.commits + 1 }
  let img := ledgerBytes b s.bays[b]
  let s := s.modBay b fun x => { x with stage := img, ledger := img, lastCommit := s.clock, retry := false }
  ((s.i3cWrite b 0x1100 img).i3cWrite b 0x100 (leBytes 4 (s.bays[b].ctrl ||| 0x40#32).toNat)).bump .cartLedgerCommits b.val

/-- Take a ledger's values into the bay (R368, R371). -/
def Bay.load (x : Bay) (l : List Byte) : Bay :=
  { x with
    ledger := l, condition := bfld l 1 1, commits := bfld l 4 4, powerCycles := bfld l 8 4 + 1, peakTemp := sfld l 12
    firstModule := (l.drop 16).take 24, commissionT := BitVec.ofNat 64 (bfld l 40 8)
    lasers := Vector.ofFn fun j =>
      let a := 64 + 32 * j.val
      { hours := (List.range 4).map fun k => bfld l (a + 4 * k) 4
        c := if bfld l (a + 16) 2 = 0x8000 then none else some (sfld l (a + 16))
        d := sfld l (a + 18), peakBias := bfld l (a + 20) 2
        faded := (bfld l 2 2).testBit j.val } }

/-! ## Light lost (R376, R377) -/

/-- Host ports of a bay (R358). -/
def bayHosts (b : BayIx) : List HostIx := if b.val = 8 then [0, 1] else if b.val = 9 then [2, 3] else []

/-- The interfaces of a host port have no link. -/
def State.hostDown (s : State) (h : HostIx) : State :=
  { s with host := { s.host with ifaces := Vector.ofFn fun i : Fin 16 =>
    if i.val / 4 = h.val then { s.host.ifaces[i] with up := false } else s.host.ifaces[i] } }

/-- Fabric ports of a bay (R327). -/
def bayPorts (b : BayIx) : List PortIx := (List.finRange 16).filter fun p => bayOf p == b

/-- What a bay feeds loses its light (R365, R376). -/
def State.feedsDown (s : State) (b : BayIx) : State :=
  let s := (bayPorts b).foldl (fun s p => s.goDown p .noLaser) s
  let s := (bayHosts b).foldl (fun s h => s.hostDown h) s
  if bayKind b = 2 then (if s.ppe.state ≠ .offline then s.ppeOffline else s).modPpe fun p => { p with onSpare := false } else s

/-- The lasers of a bay are dark (R27, R365): a FAILED one stays FAILED. -/
def Bay.dark (x : Bay) : Bay := { x with lasers := x.lasers.map fun l => { l with state := if l.state = 3 then 3 else 0, samples := [] } }

/-- A bay goes to FAULT (R365): lasers off, what it feeds down, ledger committed at the ramp-down. A cartridge that is still
AUTHENTICATING has lit nothing, and its ledger stands. -/
def State.bayFault (s : State) (b : BayIx) (reason : Nat) : State :=
  let unlit := s.bays[b].state == .authenticating
  let s := s.modBay b fun x => { x.dark with state := .fault, reason := reason }
  let s := if unlit then s else s.commitLedger b
  ((s.writeCtrl b (setEn 0)).feedsDown b).cartEvent b

/-- A cartridge is absent (R374, R376). -/
def State.bayGone (s : State) (b : BayIx) : State :=
  let old := s.bays[b].state
  let s := s.modBay b fun _ => {}
  let s := if old = .drained then s else s.bump .cartRemovalsUndrained b.val
  (s.feedsDown b).finishZcp 0x0505 (fun w => w.target.index.toNat == b.val) true .bayEmpty []

/-! ## Condition, spare-in and failure (R371 to R374) -/

/-- Raise the condition (R373): written to the ledger, LED, flag and event. It never improves. -/
def State.setCondition (s : State) (b : BayIx) (c : Nat) : State :=
  if c ≤ s.bays[b].condition then s else
  let s := ((s.modBay b fun x => { x with condition := c }).writeCtrl b (setLed 2)).commitLedger b
  (s.setFlag .cartFadeWarn 6 b.val).cartEvent b

/-- Hours lit of a laser reach 60,000 (R373). -/
def Laser.old (x : Laser) : Bool := decide (x.hours.sum ≥ 60 * 60000)

/-- The spare laser of a fabric bay carries traffic for a port that it feeds (R341, R373). -/
def State.spareCarries (s : State) (b : BayIx) : Bool :=
  bayKind b == 0 && (bayPorts b).any fun p => s.ports[p].usable && s.ports[p].tx.lanes[(8 : LaneIx)].state == .data

/-- No spare remains for a port (R373): its direction has no STANDBY lane, or a swap takes it; a port that is not in use has
none once a laser has faded. -/
def State.noSpare (s : State) (p : PortIx) : Bool :=
  !s.ports[p].usable || s.ports[p].tx.standby.isNone || s.ports[p].tx.swap.isSome

/-- The condition that the lasers show (R373): `last` says that a second laser reached spare-in with no spare left. -/
def State.judge (s : State) (b : BayIx) (last : Bool) : State :=
  let x := s.bays[b]
  let worn := s.spareCarries b ||
    (lasersOf b).any fun j => x.lasers[j].faded || x.lasers[j].failed || (j.val != baySpare b && x.lasers[j].old)
  s.setCondition b (if last then 2 else if worn then 1 else 0)

/-- Spare-in by bay kind (R24, R372 to R374); `failure` is a failure rather than a fade. -/
def State.bringSpare (s : State) (b : BayIx) (j : Fin 9) (failure : Bool) : State :=
  let x := s.bays[b]
  if bayKind b = 0 then
    (bayPorts b).foldl (fun s p => s.failLane p .tx j (if failure then .lossOfSignal else .laser)) s
  else if bayKind b = 1 then
    let sp := x.lasers[2]
    let h (k : Nat) : HostIx := ⟨(2 * (b.val - 8) + k) % 4, Nat.mod_lt _ (by decide)⟩
    if j.val = 2 then
      match x.spareFor with
      | some k => if failure then s.hostDown (h k) else s
      | none => s
    else if x.spareFor = none && !sp.faded && !sp.failed then
      let s := s.modBay b fun x => { x with spareFor := some j.val }
      { s with host := { s.host with ports := s.host.ports.set (h j.val) { s.host.ports[h j.val] with dark := some s.clock } } }
    else if failure && x.spareFor ≠ some j.val then s.hostDown (h j.val) else s
  else if j.val = 0 then
    let sp := x.lasers[1]
    if s.ppe.onSpare then s
    else if failure || !(sp.faded || sp.failed) then s.ppeSwitchover else s
  else if failure && s.ppe.onSpare then s.ppeOffline else s

/-- The spare laser of a bay is in use (R24, R194, R341, R372). -/
def State.spareInUse (s : State) (b : BayIx) : Bool :=
  match bayKind b with | 0 => s.spareCarries b | 1 => s.bays[b].spareFor.isSome | _ => s.ppe.onSpare

/-- A spare-in of a bay is under way (R374): a swap of a fed port, the gap of a host port, or the switchover of the PPE. -/
def State.spareInRuns (s : State) (b : BayIx) : Bool :=
  ((bayPorts b).any fun p => s.ports[p].usable && s.ports[p].tx.swap.isSome) ||
  ((bayHosts b).any fun h => (s.host.ports[h].dark.map fun t => decide (s.clock < t + 20000)).getD false) || (bayKind b == 2 && s.ppe.state == .switching)

/-- A drain begins (R377), once no spare-in of the bay is under way (R374). -/
def State.drainBegins (s : State) (b : BayIx) : State :=
  if s.spareInRuns b then s.modBay b fun x => { x with drainWanted := true } else
  let s := (s.modBay b fun x => { x with state := .draining, drainT := s.clock, drainWanted := false }).cartEvent b
  if bayKind b = 2 && s.ppe.state ≠ .offline then s.ppeOffline else s

/-- The drains that waited (R374). -/
def State.tickDrains (s : State) : State :=
  (List.finRange 11).foldl (fun s b =>
    if !s.bays[b].drainWanted then s
    else if s.bays[b].state = .active then s.drainBegins b
    else s.modBay b fun x => { x with drainWanted := false }) s

/-- Every in-use laser of a bay is FAILED (R365); a spare is one while it serves. -/
def State.allFailed (s : State) (b : BayIx) : Bool :=
  (lasersOf b).all fun k => (k.val == baySpare b && !s.spareInUse b) || (s.bays[b].lasers[k]).failed

/-- A laser reaches spare-in, or fails (R371, R372): FADED, ledger, condition; a failed laser is disabled. With every
in-use laser FAILED the bay goes to FAULT (R365). -/
def State.spareIn (s : State) (b : BayIx) (j : Fin 9) (failure : Bool) : State :=
  let x := s.bays[b]
  let l := x.lasers[j]
  if l.failed || (l.faded && !failure) then s else
  let second := ((lasersOf b).any fun k => k != j && (x.lasers[k].faded || x.lasers[k].failed)) &&
    (bayKind b != 0 || (bayPorts b).any s.noSpare)
  let s := s.modLaser b j fun l => { l with faded := true, failed := failure, state := if failure then 3 else l.state }
  let s := if failure then s.writeCtrl b fun c => c &&& ~~~(BitVec.ofNat 32 (2 ^ (7 + j.val))) else s
  let s := s.bringSpare b j failure
  let s := if l.faded then s else s.bump .cartSpareIns b.val
  let s := (s.commitLedger b).judge b (!l.faded && second)
  if s.allFailed b then s.bayFault b 8 else s

/-- Sum of D and of BIAS over the samples held. -/
def Laser.sums (x : Laser) : Int × Nat := ((x.samples.map Prod.fst).sum, (x.samples.map Prod.snd).sum)

/-- The averages are at or beyond a limit: power below C in 0.01 dB, or bias in % of BIAS_MAX (R371). -/
def Laser.beyond (x : Laser) (c : Int) (drop : Int) (pct : Nat) : Bool :=
  let (d, b) := x.sums
  let n := x.samples.length
  decide (d ≤ (c - drop) * n) || decide (b * 100 ≥ pct * x.biasMax * n)

/-- Judge the averages of one lit laser (R371, R541): the tests need the whole second of samples. -/
def State.judgeLaser (s : State) (b : BayIx) (j : Fin 9) : State :=
  let l := s.bays[b].lasers[j]
  if l.state ≠ 2 || l.failed || l.samples.length < 100 then s else
  let hi := (bayPower b).2.1
  let excess := l.sums.1 - hi * 100
  if excess > 0 then
    let t := l.target - (excess + 99) / 100
    ((s.modLaser b j fun l => { l with target := t, samples := [] }).i3cWrite b (0x200 + 32 * j.val) (leBytes 2 (BitVec.ofInt 16 t).toNat)).bump
      .cartInputHigh b.val
  else match l.c with
  | none => s
  | some c =>
    let s := if l.beyond c 100 80 then
        if l.warned then s else ((s.modLaser b j fun l => { l with warned := true }).setFlag .cartFadeWarn 6 b.val).bump .cartFadeWarnings b.val
      else if l.beyond c 50 75 then s else s.modLaser b j fun l => { l with warned := false }
    if l.beyond c 150 90 then s.spareIn b j false else s

/-- The bias band of R368: below 50 %, 50–70 %, 70–90 %, 90 % and above. -/
def biasBand (bias biasMax : Nat) : Nat :=
  if bias * 100 < 50 * biasMax then 0 else if bias * 100 < 70 * biasMax then 1 else if bias * 100 < 90 * biasMax then 2 else 3

/-- Add to a list at a place. -/
def addAt (k n : Nat) (xs : List Nat) : List Nat := xs.modify k (· + n)

/-- Ten milliseconds lit at a bias, counted in minutes (R368). -/
def Laser.tick10 (x : Laser) (bias : Nat) : Laser :=
  let k := biasBand bias x.biasMax
  let ms := addAt k 10 x.litMs
  if ms.getD k 0 ≥ 60000 then { x with litMs := ms.set k 0, hours := addAt k 1 x.hours } else { x with litMs := ms }

/-- Take one reading of a laser (R370). -/
def Laser.read (x : Laser) (r : LaserReading) : Laser :=
  let x := { x with d := r.d, mon := r.d, bias := r.bias, biasMax := r.biasMax, peakBias := max x.peakBias r.bias
                    samples := ((r.d, r.bias) :: x.samples).take 100 }
  if x.state = 2 then x.tick10 r.bias else x

end Sys2Proof.Machine
end

