-- ==== Sys2Proof/Machine/Lasers.lean ====
section
/-! DEFINITION. The commands of the laser cartridges (R358 to R378). Cartridge management goes on in a freeze (R374). -/

namespace Sys2Proof.Machine

/-- A cartridge has its dynamic address (R360, R366): authentication begins, and the laser block warms. -/
def State.join (s : State) (b : BayIx) : State :=
  (s.modBay b fun _ => { state := .authenticating, present := true, authT := s.clock }).writeCtrl b fun c => c ||| 4

/-- HOT_JOIN (R360). -/
def execHotJoin (b : BayIx) (s : State) : Out :=
  when_ s (s.live && s.board.tap != .extest && !s.bays[b].present) fun s => s.join b

/-- Answer the CART_REAUTH of a bay with the authentication result (R366). -/
def State.reauthed (s : State) (b : BayIx) (reason : Nat) : State :=
  s.finishZcp 0x0505 (fun w => w.target.index.toNat == b.val) true .success [leBytes 1 reason]

/-- A poll of a bay (R360, R364, R365, R376): none is a failed transaction. -/
def State.polled (s : State) (b : BayIx) (status : Option (BitVec 32)) : State :=
  match status with
  | none =>
    if !s.bays[b].present || s.board.tap = .extest then s else
    let s := s.modBay b fun x => { x with fails := x.fails + 1 }
    if s.bays[b].fails < 3 then s else (s.bump .cartI3cErrors b.val 0 3).bayGone b
  | some st =>
    if s.board.tap = .extest then s
    else if !s.bays[b].present then s.join b
    else
      let s := s.modBay b fun x => { x with fails := 0, status := st &&& ~~~8 }
      let s := if st.getLsbD 3 then (s.bump .cartWdogTrips b.val).i3cWrite b 0x104 (leBytes 4 8) else s
      let x := s.bays[b].state
      if !st.getLsbD 4 then s
      else if x = .ramping || x = .active || x = .draining then s.bayFault b 7
      else if x = .authenticating then (s.bayFault b 7).reauthed b 7 else s

/-- I3C_POLL (R360, R364, R365, R376): ENTDAA on an empty bay, STATUS of a cartridge; none is a failed transaction. -/
def execI3cPoll (b : BayIx) (status : Option (BitVec 32)) (s : State) : Out :=
  when_ s s.live fun s => s.polled b status

/-- WDOG is written every 20 ms to every bay with a laser enabled (R364). -/
def State.strokeDogs (s : State) : State :=
  (List.finRange 11).foldl (fun s b =>
    if s.bays[b].present && ctrlEn s.bays[b].ctrl != 0 && s.bays[b].lastWdog + 20000000 ≤ s.clock then
      (s.writeCtrl b fun c => c + 0x1000000).modBay b fun x => { x with lastWdog := s.clock }
    else s) s

/-- WDOG_WRITE (R364): every 20 ms to every bay with a laser enabled. -/
def execWdogWrite (s : State) : Out :=
  when_ s (s.live && s.board.tap != .extest) fun s => s.strokeDogs

/-- An authentication fails with a reason (R366). -/
def State.authFail (s : State) (b : BayIx) (reason : Nat) : State :=
  let s := (s.modBay b fun x => { x with state := .authFailed, reason := reason }).writeCtrl b (setEn 0)
  (((s.bump .cartAuthFailures b.val).setFlag .cartAuthFailed 6 b.val).cartEvent b).reauthed b reason

/-- The checks of R366 in order: 0 passed, else the reason. -/
def authResult (b : BayIx) (c : CartId) (nonce : List Byte) : Nat :=
  if c.kind.toNat ≠ bayKind b || c.lasers.toNat ≠ bayLasers b then 1 else
  let key := (c.cert.drop 64).take 32
  match Config.trustVendors.find? fun v => v.1.toNat == bfld c.cert 96 4 with
  | none => 2
  | some v =>
    if c.cert.length ≠ 100 + 29792 || !Config.verify v.2 [] (c.cert.take 100) (c.cert.drop 100) || c.cert.take 64 ≠ c.ident then 3
    else if !Config.verify key [] (shake256 64 (ascii "XA-CART" ++ nonce ++ c.ident ++ leBytes 1 b.val ++ c.ledger)) c.sig then 4
    else if !ledgerValid c.ledger then 5 else 0

/-- What the module writes in the course of R366 up to a result: the certificate is selected, then the nonce and SIGN, then
the signature. -/
def State.authWrites (s : State) (b : BayIx) (nonce : List Byte) (result : Nat) : State :=
  if result = 1 then s else
  let s := s.i3cWrite b 0x7FF0 [0]
  if result = 2 || result = 3 then s else
  ((s.i3cWrite b 0x1000 nonce).i3cWrite b 0x100 (leBytes 4 (s.bays[b].ctrl ||| 0x20#32).toNat)).i3cWrite b 0x7FF0 [1]

/-- The checks of a cartridge (R359, R366 to R368): passed, the lasers are enabled and rise to TARGET; the spare of B10 is
lit at monitor bias (R194, R362). -/
def State.authenticate (s : State) (b : BayIx) (c : CartId) : State :=
  let nonce := ((Config.freeBytes s.fresh 32) ++ List.replicate 32 0).take 32
  let result := authResult b c nonce
  let s := ({ s with fresh := s.fresh + 1 }.modBay b fun x => { x with nonce := nonce, ident := c.ident }).authWrites b nonce result
  if result ≠ 0 then s.authFail b result else
  let s := s.modBay b fun x =>
    let y := x.load c.ledger
    { y with
      state := .ramping, reason := 0, spareFor := none
      lasers := Vector.ofFn fun j => if j.val < bayLasers b then { y.lasers[j] with state := 1 } else y.lasers[j] }
  ((s.writeCtrl b fun c => setEn (2 ^ bayLasers b - 1) c ||| (if bayKind b = 2 then 2 else 0)).cartEvent b).reauthed b 0

/-- AUTHENTICATION (R359, R366 to R368): passed, the lasers are enabled and rise to TARGET. -/
def execAuthentication (b : BayIx) (c : CartId) (s : State) : Out :=
  let x := s.bays[b]
  when_ s (s.live && s.board.tap != .extest && x.state == .authenticating && s.clock < x.authT + 5000000000) fun s => s.authenticate b c

/-- AUTH_TIMEOUT (R366). -/
def execAuthTimeout (b : BayIx) (s : State) : Out :=
  let x := s.bays[b]
  when_ s (s.live && x.state == .authenticating && x.authT + 5000000000 ≤ s.clock) fun s => s.authFail b 6

/-- Every laser is lit or FAILED (R365, R370, R371, R541): those that faded before, or deliver too little, have reached
spare-in. -/
def State.rampEnds (s : State) (b : BayIx) (lasers : List LaserReading) : State :=
  let low := (bayPower b).1
  let rd (j : Fin 9) : LaserReading := (lasers[j.val]?).getD { d := 0, bias := 0, biasMax := 0, failed := true }
  let old := s.bays[b]
  let s := s.modBay b fun x => { x with
    state := .active, rampEnd := s.clock, lastCommit := s.clock
    commissioned := (lasersOf b).all fun j => x.lasers[j].c.isSome
    lasers := Vector.ofFn fun j =>
      if j.val < bayLasers b then
        { (x.lasers[j].read (rd j)) with samples := [], target := (rd j).d, state := if (rd j).failed then 3 else 2, faded := false, failed := false }
      else x.lasers[j] }
  let s := (s.bump .cartInsertions b.val).writeCtrl b (setLed (if old.condition = 0 then 1 else 2))
  let s := if bayKind b = 2 then s.calibrate else s
  let s := (lasersOf b).foldl (fun s j =>
    if (rd j).failed then s.spareIn b j true
    else if (rd j).d < low then (s.bump .cartLowInput b.val).spareIn b j false
    else if old.lasers[j].faded then s.spareIn b j false else s) s
  if s.bays[b].state ≠ .active then s else
  let s := (bayPorts b).foldl (fun s p => s.tryTrain p) s
  s.cartEvent b

/-- RAMPING_END (R365, R370, R371, R541): every laser is lit or FAILED; lasers that faded before, or deliver too little,
have reached spare-in. -/
def execRampingEnd (b : BayIx) (lasers : List LaserReading) (s : State) : Out :=
  let low := (bayPower b).1
  when_ s (s.live && s.bays[b].state == .ramping) fun s => s.rampEnds b lasers

/-- C is D, 1 s after the first ramp (R370). -/
def State.commission (s : State) (b : BayIx) : State :=
  let x := s.bays[b]
  let first := (lasersOf b).all fun j => x.lasers[j].c.isNone
  (s.modBay b fun x => { x with
    commissioned := true
    firstModule := if first then (Config.serial ++ List.replicate 24 0).take 24 else x.firstModule
    commissionT := if first then s.now else x.commissionT
    lasers := Vector.ofFn fun j =>
      if j.val < bayLasers b && x.lasers[j].c.isNone then { x.lasers[j] with c := some x.lasers[j].d } else x.lasers[j] }).commitLedger b

/-- COMMISSIONING (R370): C is D, 1 s after the first ramp. -/
def execCommissioning (b : BayIx) (s : State) : Out :=
  let x := s.bays[b]
  when_ s (s.live && x.state == .active && !x.commissioned && x.rampEnd + 1000000000 ≤ s.clock) fun s => s.commission b

/-- Readings every 10 ms, and the averages of the last second judged (R370, R371, R541). -/
def State.fadeSample (s : State) (b : BayIx) (lasers : List LaserReading) (temp : Int) : State :=
  let s := s.modBay b fun x => { x with
    temp := temp, peakTemp := max x.peakTemp temp
    lasers := Vector.ofFn fun j => match lasers[j.val]? with
      | some r => if j.val < bayLasers b && !x.lasers[j].failed then x.lasers[j].read r else x.lasers[j]
      | none => x.lasers[j] }
  let s := (lasersOf b).foldl (fun s j =>
    if s.bays[b].state ≠ .active then s
    else if (lasers[j.val]?.map LaserReading.failed).getD false then s.spareIn b j true else s.judgeLaser b j) s
  if s.bays[b].state = .active then s.judge b false else s

/-- FADE_SAMPLE (R370, R371, R541): readings every 10 ms, and the averages of the last second judged; not while DRAINING,
and before commissioning only the operating maximum. -/
def execFadeSample (b : BayIx) (lasers : List LaserReading) (temp : Int) (s : State) : Out :=
  when_ s (s.live && s.bays[b].state == .active) fun s => s.fadeSample b lasers temp

/-- FAILURE_SAMPLE (R371, R541): one 1 µs sample of D. -/
def execFailureSample (b : BayIx) (j : Fin 9) (d : Int) (s : State) : Out :=
  let l := s.bays[b].lasers[j]
  when_ s (s.live && s.bays[b].state == .active && j.val < bayLasers b && l.state == 2 && !l.failed) fun s =>
    if d > (bayPower b).2.2 then (s.bump .cartInputHigh b.val).spareIn b j true
    else if (l.c.map fun c => decide (d ≤ c - 600)).getD false then s.spareIn b j true else s

/-- LEDGER_COMMIT (R369): every 15 minutes while a laser is lit; `busy` is LEDGER_BUSY still set after 1 s. -/
def execLedgerCommit (b : BayIx) (busy : Bool) (s : State) : Out :=
  let x := s.bays[b]
  when_ s (s.live && s.board.tap != .extest && (x.state == .active || x.state == .draining) && x.lastCommit + 900000000000 ≤ s.clock &&
      (lasersOf b).any fun j => x.lasers[j].state == 2) fun s =>
    if busy then (s.modBay b fun x => { x with retry := true, lastCommit := s.clock }).bump .cartLedgerErrors b.val else s.commitLedger b

/-- A fed port has nothing left to send, and every flit is acknowledged (R377). -/
def State.portEmpty (s : State) (p : PortIx) : Bool :=
  !s.ports[p].usable || (s.ports[p].unacked.isEmpty && (List.range 12).all fun v => s.vcIdle p v)

/-- A drain ends (R377): the fed ports go DOWN, the ledger is committed, EN is 0. -/
def State.drained (s : State) (b : BayIx) : State :=
  let s := (s.modBay b fun x => { x with state := .drained }).feedsDown b
  let s := (s.commitLedger b).writeCtrl b fun c => setLed 3 (setEn 0 c)
  (s.modBay b Bay.dark).cartEvent b

/-- DRAIN_COMPLETE (R377): the fed ports are empty, or 1 ms has passed: they go DOWN, the ledger is committed, EN is 0. -/
def execDrainComplete (b : BayIx) (s : State) : Out :=
  when_ s (s.live && s.bays[b].state == .draining && ((bayPorts b).all s.portEmpty || s.bays[b].drainT + 1000000 ≤ s.clock)) fun s => s.drained b

/-! ## ZCP commands (R365, R377) -/

/-- TARGET of a bay (R436). -/
def bayTarget (b : BayIx) : Target := ⟨6, BitVec.ofNat 24 b.val⟩

/-- A LASER block (R363). -/
def laserBlock (b : BayIx) (j : Fin 9) (l : Laser) : List Byte :=
  leBytes 2 (BitVec.ofInt 16 l.target).toNat ++ leBytes 2 l.bias ++ leBytes 2 l.biasMax ++ leBytes 2 (BitVec.ofInt 16 l.mon).toNat ++
  leBytes 4 (if bayKind b = 0 then 200000 + 20000 * j.val else 0) ++ leBytes 1 l.state ++ leBytes 19 0

/-- CART_STATUS (R365). -/
def execCartStatus (r : ZcpReq) (b : BayIx) (s : State) : Out :=
  .next (s.zcpStep r { op := 0x0501, change := false, target := bayTarget b } fun s =>
    let x := s.bays[b]
    .ok s [leBytes 1 (bayCode x.state), leBytes 1 x.reason, leBytes 1 x.condition, (x.ident ++ List.replicate 64 0).take 64,
      if x.present then (lasersOf b).flatMap fun j => laserBlock b j x.lasers[j] else []])

/-- CART_LEDGER_READ (R368). -/
def execCartLedgerRead (r : ZcpReq) (b : BayIx) (s : State) : Out :=
  .next (s.zcpStep r { op := 0x0502, change := false, target := bayTarget b } fun s =>
    if !s.bays[b].present then .err s .bayEmpty else .ok s [(s.bays[b].ledger ++ List.replicate 352 0).take 352])

/-- CART_DRAIN (R374, R377). -/
def execCartDrain (r : ZcpReq) (b : BayIx) (s : State) : Out :=
  .next (s.zcpStep r { op := 0x0503, early := true, target := bayTarget b } fun s =>
    if !s.bays[b].present then .err s .bayEmpty
    else if s.bays[b].state ≠ .active then .err s .bayState
    else .ok (s.drainBegins b))

/-- Authenticate a cartridge anew (R366, R377). -/
def State.again (s : State) (b : BayIx) : State :=
  (s.modBay b fun x => { x with state := .authenticating, authT := s.clock }).writeCtrl b fun c => setEn 0 c ||| 4

/-- CART_RESUME (R377). -/
def execCartResume (r : ZcpReq) (b : BayIx) (s : State) : Out :=
  .next (s.zcpStep r { op := 0x0504, early := true, target := bayTarget b } fun s =>
    if !s.bays[b].present then .err s .bayEmpty
    else if s.bays[b].state ≠ .drained then .err s .bayState
    else .ok (s.again b))

/-- CART_REAUTH (R365, R366): from AUTH_FAILED, DRAINED or FAULT; the reply carries the authentication result. -/
def execCartReauth (r : ZcpReq) (b : BayIx) (s : State) : Out :=
  .next (s.zcpStep r { op := 0x0505, early := true, target := bayTarget b } fun s =>
    let st := s.bays[b].state
    if !s.bays[b].present then .err s .bayEmpty
    else if !(st == .authFailed || st == .drained || st == .fault) then .err s .bayState
    else .later (s.again b))

end Sys2Proof.Machine
end

