-- ==== Sys2Proof/Machine/MemEvents.lean ====
section
/-! DEFINITION. Events of the HBM stacks: ageing, refresh, write-back and repair (R206 to R210). -/

namespace Sys2Proof.Machine

/-- A stack is in service: rails on and not OFFLINE (R37, R212). -/
def State.stackOn (s : State) (m : StackIx) : Bool := s.board.rails && !s.hbm[m].offline

/-- WCB_AGE_FLUSH (R206): entries written first 2 µs ago or earlier are flushed. -/
def execWcbAgeFlush (m : StackIx) (s : State) : Out :=
  when_ s (s.stackOn m) fun s => s.flushWhere m (fun e => e.first + 2000 ≤ s.clock) .memWcbFlushAge

/-- Refresh interval of a stack in ns (R210). -/
def State.refreshNs (s : State) (m : StackIx) : Nat := if s.hbm[m].refreshDoubled then 1950 else 3900

/-- BANK_REFRESH (R210): a bank is refreshed when its interval has passed. RFM follows activations, at the access. -/
def execBankRefresh (m : StackIx) (bank : Nat) (s : State) : Out :=
  let k := s.hbm[m]
  let last := ((k.lastRefresh.find? fun x => x.1 == bank).map Prod.snd)
  when_ s (s.stackOn m && last.all fun c => c + s.refreshNs m ≤ s.clock) fun s =>
    s.setStack m { k with lastRefresh := (bank, s.clock) :: k.lastRefresh.filter fun x => x.1 != bank }

/-- ECC_CORRECTED_WRITEBACK (R207): a corrected line is written back. -/
def execEccCorrectedWriteback (m : StackIx) (line : Nat) (s : State) : Out :=
  let k := s.hbm[m]
  when_ s (s.stackOn m && k.writeback.contains line) fun s =>
    ((s.setStack m { k with writeback := k.writeback.filter fun l => l != line }).clearErrs m line).activate m line

/-- Spare rows of a bank in use: those on the repair list (R208). -/
def State.sparesUsed (s : State) (m bank : Nat) : Nat := (s.flash.repair.filter fun r => r.1 == m && r.2.1 == bank).length

/-- ROW_REPAIR (R208): a row with an uncorrectable line, or 8 corrected lines within 24 h, is replaced by a spare and
enters the repair list; a bank with no spare left reports it in the error log. -/
def execRowRepair (m : StackIx) (bank row : Nat) (s : State) : Out :=
  let k := s.hbm[m]
  let hits := k.corrected.filter fun x => x.1 == (bank, row) && s.clock < x.2 + 86400000000000
  when_ s (s.stackOn m && (k.badRows.contains (bank, row) || hits.length ≥ 8)) fun s =>
    let k := { k with
      badRows := k.badRows.filter fun x => x != (bank, row)
      corrected := k.corrected.filter fun x => x.1 != (bank, row) }
    if s.sparesUsed m.val bank < 4 then
      (({ s with flash := { s.flash with repair := s.flash.repair ++ [(m.val, bank, row)] } }).setStack m k).bump .memRepairRows m.val
    else (s.setStack m { k with failedRows := (bank, row) :: k.failedRows }).bump .memRepairExhausted m.val

end Sys2Proof.Machine
end

