-- ==== Sys2Proof/Machine/Ppe.lean ====
section
/-! DEFINITION. PROJECT, the events of the projection engine, and its commands (R163, R174 to R196). -/

namespace Sys2Proof.Machine

/-- The checks of PROJECT at decode (R99, R139, R163, R181, R548). -/
def State.projectChecks (s : State) (w : MoveWord) (c : ProjectSpec) (j : Job) : Option Status :=
  let f := Fmt.ofCode c.ifmt
  let e := if f == some .e4m3 then 1 else 2
  firstOf [
    when? (!clear w [(255, 202), (95, 75), (63, 60)] || c.sk > 1 || c.dk > 1 || f.isNone || (c.sk = 0 && fld w 148 121 != 0) ||
      (c.dk = 0 && fld w 201 174 != 0)) .reservedValue,
    when? (f != some .fp16 && f != some .bf16 && f != some .e4m3) .formatUnsupported,
    when? (c.src % e != 0 || c.dst % 128 != 0) .alignment,
    when? (!(s.slotMask j.id).testBit c.slot) .ppeSlotDenied,
    when? (c.nvec > 1048576 || (c.sk = 0 && c.src + c.bytes * c.nvec > sramSize) || (c.dk = 0 && c.dst + 128 * c.nvec > sramSize) ||
      (c.sk = 1 && c.src ≥ 2 ^ 48) || (c.dk = 1 && c.dst ≥ 2 ^ 48)) .lengthRange]

/-- PROJECT (R163, R181, R182). -/
def execProject (t : TileIx) (w : MoveWord) (s : State) : Out :=
  .next (s.decode t w 0x50 fun s j x =>
    let c := projectSpec w x.regs
    match s.projectChecks w c j with
    | some e => .refuse e
    | none => if c.nvec = 0 then .noop s else .queued ((s.enqueue t w j x).kickPpe t))

/-- The next batch enters the mesh, or the mesh is reprogrammed for its slot (R180, R182). -/
def State.startBatch (s : State) : State :=
  let es := s.ppeFront
  let keep := (s.ppe.active.map fun a => es.any fun e => e.slot == a.val).getD false
  let slot := s.turnTo.or (if keep then s.ppe.active.map Fin.val else nextSlot es ((s.ppe.active.map Fin.val).getD 7))
  match slot with
  | none => s
  | some n =>
    if s.ppe.active.map Fin.val ≠ some n then s.reprogram n else
    match es.find? fun e => e.slot == n with
    | some e => s.enterMesh e
    | none => s

/-- BATCH_START (R180, R182): the next batch enters the mesh, or the mesh is reprogrammed for its slot. -/
def execBatchStart (s : State) : Out :=
  when_ s (s.working && s.ppe.reprog.isNone) fun s => s.startBatch

/-- BATCH_COMPLETE (R183, R190, R193): the oldest batch's records; `dark` names its vectors in dark slots. -/
def execBatchComplete (dark : List Nat) (s : State) : Out := when_ s (s.working && !s.ppe.mesh.isEmpty) fun s => s.leaveMesh dark

/-- SLOT_TURN (R182): another slot of the same priority has waited 32 µs. -/
def execSlotTurn (s : State) : Out :=
  match s.turnTo with
  | none => .next s
  | some n => when_ s (s.working && s.ppe.reprog.isNone) fun s => s.reprogram n

/-- REPROGRAM_DONE (R180). -/
def execReprogramDone (s : State) : Out :=
  match s.ppe.reprog with
  | some (n, since) =>
    when_ s (s.live && since + 2000 ≤ s.time.work) fun s =>
      s.modPpe fun p => { p with reprog := none, active := n, activeSince := s.time.work }
  | none => .next s

/-- SLOT_LOAD_DONE (R177): during CALIBRATING a load completes after it. -/
def execSlotLoadDone (slot : SlotIx) (s : State) : Out :=
  when_ s (s.live && s.ppe.slots[slot].loading.isSome && s.ppe.state != .calibrating) fun s =>
    s.modPpe fun p => { p with slots := p.slots.set slot { p.slots[slot] with loaded := true, loading := none } }

/-- The drift estimate is renewed (R184, R189); beyond 3 % the PPE calibrates. -/
def State.driftUpdate (s : State) (est : Nat) : State :=
  let s := ((s.modPpe fun p => { p with err := est, needDrift := false }).bump .ppeDriftUpdates).setCtr ⟨.ppeErrEstimate, 0, 0, 0⟩
    (BitVec.ofNat 64 est)
  if est > 300 then (s.bump .ppeDriftExceeded).calibrate else s

/-- DRIFT_UPDATE (R184, R189): estimates in 0.01 % of full scale. -/
def execDriftUpdate (est : Nat) (s : State) : Out :=
  when_ s (s.working && s.ppe.state == .ready) fun s => s.driftUpdate est

/-- A calibration ends (R188): a failure repeats once; more than 4 dead outputs are OFFLINE. -/
def State.calibrated (s : State) (pass : Bool) (dead : List (Fin 128)) : State :=
  let s := s.bump .ppeCalibrations
  let s := s.modPpe fun p => { p with dead := dead }
  if pass && dead.length ≤ 4 then
    (s.modPpe fun p => { p with state := .ready, calFails := 0, needDrift := false }).finishZcp 0x0513 (fun _ => true) true .success
      [leBytes 1 0]
  else
    let s := if pass then s else s.bump .ppeCalibrationFailures
    if pass || s.ppe.calFails ≥ 1 then s.ppeOffline else s.modPpe fun p => { p with calFails := p.calFails + 1 }

/-- CALIBRATION_DONE (R188): a failure repeats once; more than 4 dead outputs are OFFLINE. -/
def execCalibrationDone (pass : Bool) (dead : List (Fin 128)) (s : State) : Out :=
  when_ s (s.live && s.ppe.state == .calibrating) fun s => s.calibrated pass dead

/-- SWITCHOVER (R194): light is lost, or laser 0 of B10 reached spare-in. -/
def execSwitchover (s : State) : Out := when_ s (s.live && s.ppe.state == .ready) fun s => s.ppeSwitchover

/-- SWITCHOVER_LIGHT (R194). -/
def execSwitchoverLight (s : State) : Out :=
  when_ s (s.live && s.ppe.state == .switching) fun s => s.modPpe fun p => { p with state := .ready }

/-! ## Commands (R177 to R179) -/

/-- The target of a slot command. -/
def slotTarget (n : Nat) : Target := ⟨7, BitVec.ofNat 24 n⟩

/-- The refusals of R177 and R176, with what the load holds. -/
def State.slotCheck (s : State) (slot : Nat) (p : SlotParams) : Except (Status × Nat) (Transform × List (BitVec 16)) :=
  let gainOk (g : Nat) : Bool := match ratOf (Fmt.fp16.decode g) with | some r => 0 ≤ r && r ≤ 1 | none => false
  let scaleOk : Bool := match ratOf (Fmt.fp16.decode p.fscale.toNat) with | some r => 0 < r | none => false
  match s.job p.owner with
  | none => .error (.ppeSlotDenied, 2)
  | some j =>
    let q : Except (Status × Nat) Transform :=
      if p.kind = 1 then .ok (.seeded p.seed)
      else if p.matrix.toNat % 64 ≠ 0 then .error (.ppeParamRange, 4)
      else match (s.readJob 6 j p.matrix.toNat 65536).2 with
        | .ok bs => .ok (.matrix bs)
        | .error _ => .error (.ppeParamRange, 4)
    match q, (s.readJob 6 j p.gains.toNat 256).2 with
    | .error e, _ => .error e
    | .ok _, .error _ => .error (.ppeParamRange, 6)
    | .ok q, .ok gs =>
      let gains := wordsOf 2 gs
      if gains.any fun g => !gainOk g then .error (.ppeParamRange, 6)
      else if !scaleOk then .error (.ppeParamRange, 8)
      else if s.slotPending slot then .error (.ppeSlotBusy, 0)
      else if s.ppe.state = .offline then .error (.ppeOffline, 0)
      else match q with
        | .matrix bs => if orthogonal bs then .ok (q, gains.map (BitVec.ofNat 16)) else .error (.notOrthogonal, 4)
        | .seeded _ => .ok (q, gains.map (BitVec.ofNat 16))

/-- PPE_SLOT_LOAD (R176 to R178). -/
def execPpeSlotLoad (r : ZcpReq) (slot : Nat) (p : SlotParams) (s : State) : Out :=
  .next (s.zcpStep r { op := 0x0510, target := slotTarget slot, count := some (.ppeSlotRefused, 0)
                       bad := if slot ≥ 8 || p.kind > 1 || p.smode > 1 then some .reservedValue else none } fun s =>
    match s.slotCheck slot p with
    | .error (e, k) => .err s e (if k = 0 then none else some k)
    | .ok (q, gains) =>
      let x : Slot := { loading := some s.clock, owner := p.owner, shared := p.shared, fixed := p.smode == 1, fscale := p.fscale
                        transform := q, gains := gains }
      .ok (s.modPpe fun y => { y.forget (fun n => n.val == slot) with slots := y.slots.setIfInBounds slot x }))

/-- PPE_SLOT_CLEAR (R178). -/
def execPpeSlotClear (r : ZcpReq) (slot : SlotIx) (s : State) : Out :=
  .next (s.zcpStep r { op := 0x0511, target := slotTarget slot.val, count := some (.ppeSlotRefused, 0) } fun s =>
    if s.slotPending slot.val then .err s .ppeSlotBusy
    else .ok (s.modPpe fun y => { y.forget (fun n => n == slot) with slots := y.slots.set slot {} }))

/-- The status word of a slot (R179). -/
def State.slotWord (s : State) (n : SlotIx) : Nat :=
  let x := s.ppe.slots[n]
  let b (c : Bool) (k : Nat) : Nat := if c then 2 ^ k else 0
  let pend := ((s.ppe.queue.filter fun e => e.slot == n.val).map fun e => e.total - e.next).sum
  x.owner.toNat * 2 ^ 52 + b x.shared 51 + b x.loaded 50 + b (s.ppe.active == some n) 49 + b x.fixed 48 + x.fscale.toNat * 2 ^ 32 +
    b (match x.transform with | .seeded _ => x.loaded || x.loading.isSome | .matrix _ => false) 31 + min pend 0xFFFFFF

/-- PPE_STATUS (R179). -/
def execPpeStatus (r : ZcpReq) (slot : Option SlotIx) (s : State) : Out :=
  .next (s.zcpStep r { op := 0x0512, change := false, target := (slot.map fun n => slotTarget n.val).getD {} } fun s =>
    let ns := match slot with | some n => [n] | none => List.finRange 8
    .ok s [ns.flatMap fun n => leBytes 8 (s.slotWord n), leBytes 1 (ppeCode s.ppe.state), leBytes 2 s.ppe.err,
      s.ppe.dead.flatMap fun d => leBytes 1 d.val])

/-- PPE_CALIBRATE (R188): the reply tells pass or fail when calibration ends; with no light the PPE is OFFLINE (log 29). -/
def execPpeCalibrate (r : ZcpReq) (s : State) : Out :=
  .next (s.zcpStep r { op := 0x0513, early := true } fun s =>
    if !s.ppeLit then .err s .ppeOffline
    else if s.ppe.state = .calibrating then .later s
    else .later s.calibrate)

end Sys2Proof.Machine
end

