-- ==== Sys2Proof/Machine/Time.lean ====
section
/-! DEFINITION. Global time and its synchronisation (R495 to R499). Offsets in 1/16 ns. -/

namespace Sys2Proof.Machine

/-- Change the time base. -/
def State.modTime (s : State) (f : TimeBase → TimeBase) : State := { s with time := f s.time }

/-- A period job is resident (R495). -/
def State.periodJobs (s : State) : Bool := s.jobs.any fun j => j.p.periodic

/-- The state leaves SYNC (R495): flag TIME_UNSYNC. -/
def State.leaveSync (s : State) : State :=
  let was := s.time.state == .sync
  let s := s.modTime fun t => { t with
    state := if t.everSync then .holdover else .free, stratum := 15, good := 0, miss := 0, pending := none }
  if was then s.setFlag .timeUnsync 0 0 else s

/-- Candidate upstream ports (R497): in the source's mask, ACTIVE or DEGRADED. -/
def State.upstreams (s : State) : List PortIx :=
  match s.time.source with
  | .mfp mask => (List.finRange 16).filter fun p => mask.getLsbD p.val && s.ports[p].usable
  | _ => []

/-- The best upstream among what peers reported last: SYNC, lowest stratum below 15, lowest port (R497, R498). -/
def State.bestUpstream (s : State) (except_ : Option PortIx) : Option PortIx :=
  let ok := (s.upstreams.filter fun p => some p != except_).filterMap fun p =>
    (s.time.known.find? fun k => k.1 == p && k.2.1 == 1 && k.2.2.toNat < 15).map fun k => (p, k.2.2.toNat)
  (ok.foldl (fun (a : Option (PortIx × Nat)) x => match a with | none => some x | some y => if x.2 < y.2 then some x else some y) none).map
    Prod.fst

/-- Choose another upstream; with none left, SYNC is lost (R497). -/
def State.newUpstream (s : State) : State :=
  match s.bestUpstream s.time.upstream with
  | some p => s.modTime fun t => { t with upstream := some p, good := 0, miss := 0, pending := none }
  | none => (s.modTime fun t => { t with upstream := none, pending := none, miss := 0 }).leaveSync

/-- Correct an offset θ (R495, R497): a step in FREE with no period job resident, else a slew. -/
def State.correct (s : State) (theta : Int) : State :=
  let s := (s.modTime fun t => { t with theta := theta }).setCtr ⟨.timeOffset, 0, 0, 0⟩ (BitVec.ofInt 64 theta)
  if s.time.state == .free && !s.periodJobs then
    if theta = 0 then s else
    (s.modTime fun t => { t with global := t.global - BitVec.ofInt 64 theta, slew := 0 }).bump .timeSteps
  else s.modTime fun t => { t with slew := theta }

/-- Judge SYNC (R497, R499): n consecutive offsets within a bound. -/
def State.judgeSync (s : State) (theta : Int) (bound n : Nat) (stratum : Nat) : State :=
  let good := if theta.natAbs ≤ bound then s.time.good + 1 else 0
  s.modTime fun t =>
    let sync := t.state == .sync || good ≥ n
    { t with good := good, state := if sync then .sync else t.state, everSync := t.everSync || sync
             stratum := if sync then BitVec.ofNat 8 (min 15 stratum) else t.stratum }

/-- The port that the next exchange asks: the upstream, or with none the next candidate in turn (log 27). -/
def State.askPort (s : State) : Option PortIx :=
  match s.time.upstream with
  | some p => if s.ports[p].usable then some p else none
  | none => (s.upstreams.find? fun p => p.val > s.time.probe).orElse fun _ => s.upstreams.head?

/-- TIME_EXCHANGE (R497): every 1 ms, a link-local PING leaves the upstream port. -/
def execTimeExchange (s : State) : Out :=
  when_ s (s.live && s.time.asked + 1000000 ≤ s.clock) fun s =>
    match s.time.source with
    | .mfp _ =>
      let s := if s.time.upstream.isSome && s.askPort.isNone then s.newUpstream else s
      match s.askPort with
      | none => s
      | some p =>
        let seq := (s.ctr ⟨.timeExchanges, 0, 0, 0⟩).setWidth 32
        let s := s.message 0xFFFF 8 0 0 (zcpPacket 2 0 seq 0x0003 0 0 0 0 1 []) 0 false none (some p)
        (s.modTime fun t => { t with pending := some (p, s.clock, t.global), asked := s.clock, probe := p.val }).bump .timeExchanges
    | _ => s

/-- PING_REPLY (R497, R498): θ = t1 + d − t2. -/
def execPingReply (t1 t2 : BitVec 64) (state : BitVec 8) (stratum : BitVec 8) (s : State) : Out :=
  match s.time.pending with
  | none => .next s
  | some (p, sent, t) =>
    when_ s (s.live && t == t1 && s.clock ≤ sent + 100000) fun s =>
      let s := s.modTime fun x => { x with
        pending := none, lastExchange := s.clock, miss := 0
        known := (p, state, stratum) :: x.known.filter fun k => k.1 != p }
      let s := if s.time.upstream.isNone then s.modTime fun x => { x with upstream := s.bestUpstream none } else s
      if s.time.upstream ≠ some p then s
      else if state ≠ 1 then s.newUpstream
      else
        let theta : Int := (t1.toNat : Int) + (s.ports[p].roundTrip / 2 : Nat) - t2.toNat
        if theta.natAbs > 1600 && s.time.state == .sync then
          ((s.modTime fun x => { x with theta := theta }).setCtr ⟨.timeOffset, 0, 0, 0⟩ (BitVec.ofInt 64 theta)).newUpstream
        else (s.correct theta).judgeSync theta 32 8 (stratum.toNat + 1)

/-- MISSED_EXCHANGE (R497, R499): ten in a row change the upstream, or lose SYNC. -/
def execMissedExchange (s : State) : Out :=
  match s.time.source, s.time.pending with
  | .mfp _, some (_, sent, _) =>
    when_ s (s.live && sent + 100000 ≤ s.clock) fun s =>
      let s := (s.modTime fun t => { t with pending := none, miss := t.miss + 1 }).bump .timeMissed
      if s.time.miss ≥ 10 then s.newUpstream else s
  | .ptp _, _ =>
    when_ s s.live fun s =>
      let s := (s.modTime fun t => { t with miss := t.miss + 1 }).bump .timeMissed
      if s.time.miss ≥ 10 then s.leaveSync else s
  | _, _ => .next s

/-- PTP_SYNC (R499): 16 consecutive offsets within 20 ns give SYNC, at stratum 0 for followers. -/
def execPtpSync (offset : Int) (s : State) : Out :=
  match s.time.source with
  | .ptp _ =>
    when_ s s.live fun s =>
      let s := (s.modTime fun t => { t with miss := 0, lastExchange := s.clock }).bump .timeExchanges
      if offset.natAbs > 1600 && s.time.state == .sync then
        ((s.modTime fun t => { t with theta := offset }).setCtr ⟨.timeOffset, 0, 0, 0⟩ (BitVec.ofInt 64 offset)).leaveSync
      else (s.correct offset).judgeSync offset 320 16 0
  | _ => .next s

/-! ## Commands -/

/-- The source parameter (R496). -/
def timeSourceBytes : TimeSource → List Byte
  | .mfp mask => [0, 0] ++ leBytes 2 mask.toNat
  | .ptp i => [1, BitVec.ofNat 8 i.val, 0, 0]
  | .freeRunning => [2, 0, 0, 0]

/-- A time state by its position in R498. -/
def timeStateCode : TimeState → Nat | .free => 0 | .sync => 1 | .holdover => 2

/-- TIME_READ (R495). -/
def execTimeRead (r : ZcpReq) (s : State) : Out :=
  .next (s.zcpStep r { op := 0x0604, change := false } fun s =>
    .ok s [leBytes 8 s.time.global.toNat, timeSourceBytes s.time.source, leBytes 1 (timeStateCode s.time.state),
      leBytes 1 s.time.stratum.toNat, leBytes 8 (BitVec.ofInt 64 s.time.theta).toNat, leBytes 8 (s.clock - s.time.lastExchange)])

/-- A PTP source names an interface that its port's mode does not have (R407, R436). -/
def State.badSource (s : State) (src : TimeSource) : Option Status :=
  match src with
  | .ptp i => if i.val % 4 < hostIfaces (s.host.ports.toArray[i.val / 4]?.map HostPort.mode |>.getD .m1x800) then none else some .reservedValue
  | _ => none

/-- TIME_CONFIG (R495, R496). -/
def execTimeConfig (r : ZcpReq) (src : TimeSource) (initial : Option (BitVec 64)) (s : State) : Out :=
  .next (s.zcpStep r { op := 0x0605, early := true, bad := s.badSource src } fun s =>
    match src with
    | .freeRunning =>
      if initial.isSome && s.periodJobs then .err s .jobBusy (some 0x8001) else
      let s := s.modTime fun t => { t with
        source := .freeRunning, state := .sync, stratum := 0, everSync := true, upstream := none, pending := none
        good := 0, miss := 0, slew := 0 }
      let s := match initial with
        | some v => (s.modTime fun t => { t with global := v }).bump .timeSteps
        | none => s
      .ok s [timeSourceBytes .freeRunning]
    | src =>
      let s := if src = s.time.source then s else
        (s.modTime fun t => { t with source := src, upstream := none, pending := none, slew := 0 }).leaveSync
      .ok s [timeSourceBytes src])

end Sys2Proof.Machine
end

