-- ==== Sys2Proof/Machine/Dispatch.lean ====
section
/-! DEFINITION. One arm for each command. -/

namespace Sys2Proof.Machine

/-- The effect of a command on everything but the queue. -/
def exec (i : Instr) (s : State) : Host.Outcome State Fault Refusal :=
  match i with
  | .powerUp mv b => Sys2Proof.Machine.execPowerUp mv b s
  | .inputUndervoltage mv => Sys2Proof.Machine.execInputUndervoltage mv s
  | .inputOvervoltage mv => Sys2Proof.Machine.execInputOvervoltage mv s
  | .railFault => Sys2Proof.Machine.execRailFault s
  | .resetNAssert => Sys2Proof.Machine.execResetNAssert s
  | .resetNRelease b => Sys2Proof.Machine.execResetNRelease b s
  | .bootWatchdog b => Sys2Proof.Machine.execBootWatchdog b s
  | .ready => Sys2Proof.Machine.execReady s
  | .freezeInNFall => Sys2Proof.Machine.execFreezeInNFall s
  | .jtagBypass => Sys2Proof.Machine.execJtagBypass s
  | .jtagIdcode => Sys2Proof.Machine.execJtagIdcode s
  | .jtagSamplePreload preload => Sys2Proof.Machine.execJtagSamplePreload preload s
  | .jtagExtest => Sys2Proof.Machine.execJtagExtest s
  | .jump t w => Sys2Proof.Machine.execJump t w s
  | .branch t w => Sys2Proof.Machine.execBranch t w s
  | .loop t w => Sys2Proof.Machine.execLoop t w s
  | .call t w => Sys2Proof.Machine.execCall t w s
  | .return_ t w => Sys2Proof.Machine.execReturn t w s
  | .halt t w => Sys2Proof.Machine.execHalt t w s
  | .parkWake t => Sys2Proof.Machine.execParkWake t s
  | .waitTally t w => Sys2Proof.Machine.execWaitTally t w s
  | .waitSatisfied t => Sys2Proof.Machine.execWaitSatisfied t s
  | .waitTimeout t => Sys2Proof.Machine.execWaitTimeout t s
  | .waitEpoch t w => Sys2Proof.Machine.execWaitEpoch t w s
  | .yield_ t w => Sys2Proof.Machine.execYield t w s
  | .salu t w => Sys2Proof.Machine.execSalu t w s
  | .tset t w => Sys2Proof.Machine.execTset t w s
  | .tadd t w => Sys2Proof.Machine.execTadd t w s
  | .scmp t w => Sys2Proof.Machine.execScmp t w s
  | .sldi t w => Sys2Proof.Machine.execSldi t w s
  | .sld t w => Sys2Proof.Machine.execSld t w s
  | .sst t w => Sys2Proof.Machine.execSst t w s
  | .sread t w => Sys2Proof.Machine.execSread t w s
  | .moveReservedOpcode t w => Sys2Proof.Machine.execMoveReservedOpcode t w s
  | .loadStationary t w => Sys2Proof.Machine.execLoadStationary t w s
  | .loadStallEnd t => Sys2Proof.Machine.execLoadStallEnd t s
  | .pass t w => Sys2Proof.Machine.execPass t w s
  | .passSplit t w => Sys2Proof.Machine.execPassSplit t w s
  | .passStart t => Sys2Proof.Machine.execPassStart t s
  | .attemptOverflow t q => Sys2Proof.Machine.execAttemptOverflow t q s
  | .arrayFault t cause q rook => Sys2Proof.Machine.execArrayFault t cause q rook s
  | .handshakeTimeout t q rook => Sys2Proof.Machine.execHandshakeTimeout t q rook s
  | .passCommit t => Sys2Proof.Machine.execPassCommit t s
  | .quadrantCommit t q => Sys2Proof.Machine.execQuadrantCommit t q s
  | .drain t w => Sys2Proof.Machine.execDrain t w s
  | .clear t w => Sys2Proof.Machine.execClear t w s
  | .castle t w => Sys2Proof.Machine.execCastle t w s
  | .uncastle t w => Sys2Proof.Machine.execUncastle t w s
  | .mvPass t w => Sys2Proof.Machine.execMvPass t w s
  | .vop t w => Sys2Proof.Machine.execVop t w s
  | .reduce t w => Sys2Proof.Machine.execReduce t w s
  | .copy t w => Sys2Proof.Machine.execCopy t w s
  | .put t w => Sys2Proof.Machine.execPut t w s
  | .get t w => Sys2Proof.Machine.execGet t w s
  | .atomic t w => Sys2Proof.Machine.execAtomic t w s
  | .signal t w => Sys2Proof.Machine.execSignal t w s
  | .fence t w => Sys2Proof.Machine.execFence t w s
  | .project t w => Sys2Proof.Machine.execProject t w s
  | .collIssue t w => Sys2Proof.Machine.execCollIssue t w s
  | .periodMark t w => Sys2Proof.Machine.execPeriodMark t w s
  | .trace t w => Sys2Proof.Machine.execTrace t w s
  | .break_ t w => Sys2Proof.Machine.execBreak t w s
  | .moveCompletion t id => Sys2Proof.Machine.execMoveCompletion t id s
  | .granuleWritten t id errs => Sys2Proof.Machine.execGranuleWritten t id errs s
  | .walkComplete u job addr write mv => Sys2Proof.Machine.execWalkComplete u job addr write mv s
  | .holdTimeout t id => Sys2Proof.Machine.execHoldTimeout t id s
  | .wcbAgeFlush m => Sys2Proof.Machine.execWcbAgeFlush m s
  | .bankRefresh m bank => Sys2Proof.Machine.execBankRefresh m bank s
  | .eccCorrectedWriteback m line => Sys2Proof.Machine.execEccCorrectedWriteback m line s
  | .rowRepair m bank row => Sys2Proof.Machine.execRowRepair m bank row s
  | .tilePrepared t => Sys2Proof.Machine.execTilePrepared t s
  | .saveComplete job => Sys2Proof.Machine.execSaveComplete job s
  | .restoreComplete job => Sys2Proof.Machine.execRestoreComplete job s
  | .periodStart job => Sys2Proof.Machine.execPeriodStart job s
  | .check job => Sys2Proof.Machine.execCheck job s
  | .flagFall job => Sys2Proof.Machine.execFlagFall job s
  | .lend job => Sys2Proof.Machine.execLend job s
  | .reclaim job => Sys2Proof.Machine.execReclaim job s
  | .requestPut p q => Sys2Proof.Machine.execRequestPut p q s
  | .requestGet p q => Sys2Proof.Machine.execRequestGet p q s
  | .requestAtomic p q => Sys2Proof.Machine.execRequestAtomic p q s
  | .requestSignal p q => Sys2Proof.Machine.execRequestSignal p q s
  | .getData seq ce payload => Sys2Proof.Machine.execGetData seq ce payload s
  | .atomicReply seq ce old => Sys2Proof.Machine.execAtomicReply seq ce old s
  | .receipt entries => Sys2Proof.Machine.execReceipt entries s
  | .nak src entries => Sys2Proof.Machine.execNak src entries s
  | .lost reporter rport seqs => Sys2Proof.Machine.execLost reporter rport seqs s
  | .lowMark src low => Sys2Proof.Machine.execLowMark src low s
  | .control p src dst pkt => Sys2Proof.Machine.execControl p src dst pkt s
  | .congMap src record => Sys2Proof.Machine.execCongMap src record s
  | .grant p key slots ordered => Sys2Proof.Machine.execGrant p key slots ordered s
  | .refuse p key reason => Sys2Proof.Machine.execRefuse p key reason s
  | .result p key round offset payload => Sys2Proof.Machine.execResult p key round offset payload s
  | .released p key => Sys2Proof.Machine.execReleased p key s
  | .headFlit p vc head payload => Sys2Proof.Machine.execHeadFlit p vc head payload s
  | .vcAllocation p vc => Sys2Proof.Machine.execVcAllocation p vc s
  | .credit p freed => Sys2Proof.Machine.execCredit p freed s
  | .creditInit p sizes => Sys2Proof.Machine.execCreditInit p sizes s
  | .freezeFlit p f => Sys2Proof.Machine.execFreezeFlit p f s
  | .reservedLinkControl p kind => Sys2Proof.Machine.execReservedLinkControl p kind s
  | .ack p fsn => Sys2Proof.Machine.execAck p fsn s
  | .retry p fsn => Sys2Proof.Machine.execRetry p fsn s
  | .swap p m => Sys2Proof.Machine.execSwap p m s
  | .swapAck p m => Sys2Proof.Machine.execSwapAck p m s
  | .swapAt p d => Sys2Proof.Machine.execSwapAt p d s
  | .laneBlock p lane b => Sys2Proof.Machine.execLaneBlock p lane b s
  | .retryRepeat p => Sys2Proof.Machine.execRetryRepeat p s
  | .ackTimer p => Sys2Proof.Machine.execAckTimer p s
  | .creditTimer p => Sys2Proof.Machine.execCreditTimer p s
  | .laneFailure p d lane cause => Sys2Proof.Machine.execLaneFailure p d lane cause s
  | .toneRecheck p d lane r => Sys2Proof.Machine.execToneRecheck p d lane r s
  | .laneRecovery p d lane => Sys2Proof.Machine.execLaneRecovery p d lane s
  | .peerPresent p waves => Sys2Proof.Machine.execPeerPresent p waves s
  | .ringLock p d lane r => Sys2Proof.Machine.execRingLock p d lane r s
  | .trainTimeout p => Sys2Proof.Machine.execTrainTimeout p s
  | .peerRetrain p => Sys2Proof.Machine.execPeerRetrain p s
  | .portDown p reason => Sys2Proof.Machine.execPortDown p reason s
  | .stalemate p vc => Sys2Proof.Machine.execStalemate p vc s
  | .ceWait p vc => Sys2Proof.Machine.execCeWait p vc s
  | .occupancyUpdate => Sys2Proof.Machine.execOccupancyUpdate s
  | .histogramSample => Sys2Proof.Machine.execHistogramSample s
  | .congMapSend => Sys2Proof.Machine.execCongMapSend s
  | .receiptFlush src => Sys2Proof.Machine.execReceiptFlush src s
  | .retransmitTimeout seq => Sys2Proof.Machine.execRetransmitTimeout seq s
  | .backoffExpiry seq => Sys2Proof.Machine.execBackoffExpiry seq s
  | .abandon seq => Sys2Proof.Machine.execAbandon seq s
  | .lowMarkTimer dst => Sys2Proof.Machine.execLowMarkTimer dst s
  | .rateRaise dst => Sys2Proof.Machine.execRateRaise dst s
  | .hotJoin b => Sys2Proof.Machine.execHotJoin b s
  | .i3cPoll b status => Sys2Proof.Machine.execI3cPoll b status s
  | .wdogWrite => Sys2Proof.Machine.execWdogWrite s
  | .authentication b c => Sys2Proof.Machine.execAuthentication b c s
  | .authTimeout b => Sys2Proof.Machine.execAuthTimeout b s
  | .rampingEnd b lasers => Sys2Proof.Machine.execRampingEnd b lasers s
  | .commissioning b => Sys2Proof.Machine.execCommissioning b s
  | .fadeSample b lasers temp => Sys2Proof.Machine.execFadeSample b lasers temp s
  | .failureSample b j d => Sys2Proof.Machine.execFailureSample b j d s
  | .ledgerCommit b busy => Sys2Proof.Machine.execLedgerCommit b busy s
  | .drainComplete b => Sys2Proof.Machine.execDrainComplete b s
  | .batchStart => Sys2Proof.Machine.execBatchStart s
  | .batchComplete dark => Sys2Proof.Machine.execBatchComplete dark s
  | .slotTurn => Sys2Proof.Machine.execSlotTurn s
  | .reprogramDone => Sys2Proof.Machine.execReprogramDone s
  | .slotLoadDone slot => Sys2Proof.Machine.execSlotLoadDone slot s
  | .driftUpdate est => Sys2Proof.Machine.execDriftUpdate est s
  | .calibrationDone pass dead => Sys2Proof.Machine.execCalibrationDone pass dead s
  | .switchover => Sys2Proof.Machine.execSwitchover s
  | .switchoverLight => Sys2Proof.Machine.execSwitchoverLight s
  | .collComplete group seq => Sys2Proof.Machine.execCollComplete group seq s
  | .collTimeout group seq => Sys2Proof.Machine.execCollTimeout group seq s
  | .escWaitExpiry p key => Sys2Proof.Machine.execEscWaitExpiry p key s
  | .escrowBackoff p key => Sys2Proof.Machine.execEscrowBackoff p key s
  | .escTimeout p key => Sys2Proof.Machine.execEscTimeout p key s
  | .frameReceived ifc f => Sys2Proof.Machine.execFrameReceived ifc f s
  | .ptpMessage f stamp => Sys2Proof.Machine.execPtpMessage f stamp s
  | .controlFrame f dhcp => Sys2Proof.Machine.execControlFrame f dhcp s
  | .roceRequest f q => Sys2Proof.Machine.execRoceRequest f q s
  | .roceAck qpn a => Sys2Proof.Machine.execRoceAck qpn a s
  | .cnp qpn => Sys2Proof.Machine.execCnp qpn s
  | .pfcFrame h pause => Sys2Proof.Machine.execPfcFrame h pause s
  | .pfcWatchdog h prio => Sys2Proof.Machine.execPfcWatchdog h prio s
  | .doorbellPoll qpn => Sys2Proof.Machine.execDoorbellPoll qpn s
  | .localAckTimeout qpn => Sys2Proof.Machine.execLocalAckTimeout qpn s
  | .rnrTimer qpn => Sys2Proof.Machine.execRnrTimer qpn s
  | .rateTimer qpn => Sys2Proof.Machine.execRateTimer qpn s
  | .addressChange f ix addr => Sys2Proof.Machine.execAddressChange f ix addr s
  | .sensorSample r readings => Sys2Proof.Machine.execSensorSample r readings s
  | .thermalLimitStep d r => Sys2Proof.Machine.execThermalLimitStep d r s
  | .hubThrottleStep => Sys2Proof.Machine.execHubThrottleStep s
  | .opticalRetrainStep e => Sys2Proof.Machine.execOpticalRetrainStep e s
  | .powerSample mw mv => Sys2Proof.Machine.execPowerSample mw mv s
  | .overcurrent => Sys2Proof.Machine.execOvercurrent s
  | .overcurrentRelease => Sys2Proof.Machine.execOvercurrentRelease s
  | .voltageStepDone d r => Sys2Proof.Machine.execVoltageStepDone d r s
  | .timeExchange => Sys2Proof.Machine.execTimeExchange s
  | .pingReply t1 t2 state stratum => Sys2Proof.Machine.execPingReply t1 t2 state stratum s
  | .missedExchange => Sys2Proof.Machine.execMissedExchange s
  | .ptpSync offset => Sys2Proof.Machine.execPtpSync offset s
  | .triggerFire ix => Sys2Proof.Machine.execTriggerFire ix s
  | .freezeStart cause tag => Sys2Proof.Machine.execFreezeStart cause tag s
  | .scanOutComplete => Sys2Proof.Machine.execScanOutComplete s
  | .releaseTest => Sys2Proof.Machine.execReleaseTest s
  | .zcpFragment src pkt => Sys2Proof.Machine.execZcpFragment src pkt s
  | .reassemblyTimeout src seq => Sys2Proof.Machine.execReassemblyTimeout src seq s
  | .interimReply src seq => Sys2Proof.Machine.execInterimReply src seq s
  | .lockExpiry => Sys2Proof.Machine.execLockExpiry s
  | .deviceInfo r => Sys2Proof.Machine.execDeviceInfo r s
  | .capRead r offset len => Sys2Proof.Machine.execCapRead r offset len s
  | .ping r data stamp => Sys2Proof.Machine.execPing r data stamp s
  | .eventRegister r l mask => Sys2Proof.Machine.execEventRegister r l mask s
  | .eventDeregister r ix => Sys2Proof.Machine.execEventDeregister r ix s
  | .eventRead r first count => Sys2Proof.Machine.execEventRead r first count s
  | .hostConfig r f c => Sys2Proof.Machine.execHostConfig r f c s
  | .hostStatus r f => Sys2Proof.Machine.execHostStatus r f s
  | .mgmtLock r lease => Sys2Proof.Machine.execMgmtLock r lease s
  | .mgmtUnlock r force => Sys2Proof.Machine.execMgmtUnlock r force s
  | .sourceFilter r es => Sys2Proof.Machine.execSourceFilter r es s
  | .sourceFilterRead r => Sys2Proof.Machine.execSourceFilterRead r s
  | .jobLoad r job p => Sys2Proof.Machine.execJobLoad r job p s
  | .jobStart r job => Sys2Proof.Machine.execJobStart r job s
  | .jobStop r job => Sys2Proof.Machine.execJobStop r job s
  | .jobUnload r job => Sys2Proof.Machine.execJobUnload r job s
  | .jobResume r job a tile => Sys2Proof.Machine.execJobResume r job a tile s
  | .jobPreempt r job urgent prio => Sys2Proof.Machine.execJobPreempt r job urgent prio s
  | .jobStatus r job => Sys2Proof.Machine.execJobStatus r job s
  | .faultRead r job count => Sys2Proof.Machine.execFaultRead r job count s
  | .periodReportRead r job first count => Sys2Proof.Machine.execPeriodReportRead r job first count s
  | .breakArm r job armed => Sys2Proof.Machine.execBreakArm r job armed s
  | .mapRange r job addr len phys page rd wr => Sys2Proof.Machine.execMapRange r job addr len phys page rd wr s
  | .unmapRange r job addr len => Sys2Proof.Machine.execUnmapRange r job addr len s
  | .protectRange r job addr len rd wr => Sys2Proof.Machine.execProtectRange r job addr len rd wr s
  | .mapRead r job addr => Sys2Proof.Machine.execMapRead r job addr s
  | .memFlush r m range => Sys2Proof.Machine.execMemFlush r m range s
  | .memStatus r m => Sys2Proof.Machine.execMemStatus r m s
  | .mrRegister r job base len rights => Sys2Proof.Machine.execMrRegister r job base len rights s
  | .mrDeregister r job rkey => Sys2Proof.Machine.execMrDeregister r job rkey s
  | .qpCreate r job p => Sys2Proof.Machine.execQpCreate r job p s
  | .qpModify r qpn st attr => Sys2Proof.Machine.execQpModify r qpn st attr s
  | .qpDestroy r qpn => Sys2Proof.Machine.execQpDestroy r qpn s
  | .qpDoorbell r qpn => Sys2Proof.Machine.execQpDoorbell r qpn s
  | .qpQuery r qpn => Sys2Proof.Machine.execQpQuery r qpn s
  | .planLoad r plan => Sys2Proof.Machine.execPlanLoad r plan s
  | .planRead r => Sys2Proof.Machine.execPlanRead r s
  | .planAccept r p => Sys2Proof.Machine.execPlanAccept r p s
  | .fabricConfig r p c => Sys2Proof.Machine.execFabricConfig r p c s
  | .portStatus r p => Sys2Proof.Machine.execPortStatus r p s
  | .portRetrain r p => Sys2Proof.Machine.execPortRetrain r p s
  | .routeWrite r first es => Sys2Proof.Machine.execRouteWrite r first es s
  | .routeRead r first count => Sys2Proof.Machine.execRouteRead r first count s
  | .windowOpen r ix e => Sys2Proof.Machine.execWindowOpen r ix e s
  | .windowClose r ix => Sys2Proof.Machine.execWindowClose r ix s
  | .windowRead r ix => Sys2Proof.Machine.execWindowRead r ix s
  | .fabricCongRead r => Sys2Proof.Machine.execFabricCongRead r s
  | .topoLoad r job naxes sizes first fids => Sys2Proof.Machine.execTopoLoad r job naxes sizes first fids s
  | .groupDefine r g => Sys2Proof.Machine.execGroupDefine r g s
  | .groupDelete r g => Sys2Proof.Machine.execGroupDelete r g s
  | .groupRead r g => Sys2Proof.Machine.execGroupRead r g s
  | .collStatus r g count => Sys2Proof.Machine.execCollStatus r g count s
  | .cartStatus r b => Sys2Proof.Machine.execCartStatus r b s
  | .cartLedgerRead r b => Sys2Proof.Machine.execCartLedgerRead r b s
  | .cartDrain r b => Sys2Proof.Machine.execCartDrain r b s
  | .cartResume r b => Sys2Proof.Machine.execCartResume r b s
  | .cartReauth r b => Sys2Proof.Machine.execCartReauth r b s
  | .ppeSlotLoad r slot p => Sys2Proof.Machine.execPpeSlotLoad r slot p s
  | .ppeSlotClear r slot => Sys2Proof.Machine.execPpeSlotClear r slot s
  | .ppeStatus r slot => Sys2Proof.Machine.execPpeStatus r slot s
  | .ppeCalibrate r => Sys2Proof.Machine.execPpeCalibrate r s
  | .thermalStatus r tgt => Sys2Proof.Machine.execThermalStatus r tgt s
  | .powerStatus r => Sys2Proof.Machine.execPowerStatus r s
  | .powerCapSet r cap setpoints => Sys2Proof.Machine.execPowerCapSet r cap setpoints s
  | .timeRead r => Sys2Proof.Machine.execTimeRead r s
  | .timeConfig r src initial => Sys2Proof.Machine.execTimeConfig r src initial s
  | .freeze r tag => Sys2Proof.Machine.execFreeze r tag s
  | .thaw r at_ => Sys2Proof.Machine.execThaw r at_ s
  | .freezeTrigger r c => Sys2Proof.Machine.execFreezeTrigger r c s
  | .dumpConfig r c => Sys2Proof.Machine.execDumpConfig r c s
  | .dumpRead r offset len => Sys2Proof.Machine.execDumpRead r offset len s
  | .counterCatalogue r first count => Sys2Proof.Machine.execCounterCatalogue r first count s
  | .counterRead r first count => Sys2Proof.Machine.execCounterRead r first count s
  | .counterSnapshot r => Sys2Proof.Machine.execCounterSnapshot r s
  | .snapshotRead r first count => Sys2Proof.Machine.execSnapshotRead r first count s
  | .flagRead r => Sys2Proof.Machine.execFlagRead r s
  | .flagClear r tgt flag => Sys2Proof.Machine.execFlagClear r tgt flag s
  | .audit r p vc => Sys2Proof.Machine.execAudit r p vc s
  | .attest r nonce ids => Sys2Proof.Machine.execAttest r nonce ids s
  | .certRead r => Sys2Proof.Machine.execCertRead r s
  | .measureRead r => Sys2Proof.Machine.execMeasureRead r s
  | .fwStatus r => Sys2Proof.Machine.execFwStatus r s
  | .fwWrite r offset data => Sys2Proof.Machine.execFwWrite r offset data s
  | .fwVerify r => Sys2Proof.Machine.execFwVerify r s
  | .fwActivate r => Sys2Proof.Machine.execFwActivate r s
  | .moduleRestart r => Sys2Proof.Machine.execModuleRestart r s
  | .zcpUnknownOpcode r op => Sys2Proof.Machine.execZcpUnknownOpcode r op s
  | .inputBackInRange mv b => Sys2Proof.Machine.execInputBackInRange mv b s
  | .slotIdChange pins => Sys2Proof.Machine.execSlotIdChange pins s
  | .trainingSequence p step id idents roundTrip => Sys2Proof.Machine.execTrainingSequence p step id idents roundTrip s
  | .equaliseComplete p pass200 pass100 peerRate100 => Sys2Proof.Machine.execEqualiseComplete p pass200 pass100 peerRate100 s
  | .trainingRetry p => Sys2Proof.Machine.execTrainingRetry p s
  | .hostLinkChange f up => Sys2Proof.Machine.execHostLinkChange f up s

end Sys2Proof.Machine
end

