-- ==== Sys2Proof/Machine/Tick.lean ====
section
/-! DEFINITION. What one nanosecond does when no command waits (log 1): the clocks, the control rings of the voltage
regions, and the counters of time spent in a state. -/

namespace Sys2Proof.Machine

/-! ## Clocks (R7, R8, R40, R489, R495, R510) -/

/-- Guaranteed step rate at a voltage, in tenths of a step for each nanosecond (R489). -/
def guaranteed (volt : Nat) : Nat :=
  if volt < 5 then 16 else if volt < 10 then 20 else if volt < 15 then 23 else if volt < 20 then 26 else if volt < 25 then 28 else 30

/-- Steps of a region in nanosecond n of the work clock: the implementation's, and not less than guaranteed up to 105 °C
(R489, R490). -/
def State.regionSteps (s : State) (k : Nat) : Nat :=
  if s.dbg.frozen || s.held k then 0 else
  let v := (s.power.volt.toArray[k]?).getD 0
  let n := s.time.work
  let own := Config.stepsPerNs k v n
  let floor := guaranteed v * (n + 1) / 10 - guaranteed v * n / 10
  if ((s.temp k).map fun t => decide (t ≤ 1680)).getD false then max own floor else own

/-- Global time advances by 1 ns, and an offset is slewed away by at most 1/16 ns in 64 ns, within ±1,000 ppm (R495, R497). -/
def State.tickTime (s : State) : State :=
  let d : Int := if s.clock % 64 = 0 && s.live then (if s.time.slew > 0 then 1 else if s.time.slew < 0 then -1 else 0) else 0
  { s with time := { s.time with
    global := s.time.global + BitVec.ofInt 64 (16 - d), slew := s.time.slew - d
    work := if s.dbg.frozen then s.time.work else s.time.work + 1 } }

/-- Steps that a tile's units run in this nanosecond: those of its region, or of the slower of a vertical pair's two
(R68). -/
def State.tileSteps (s : State) (t : Nat) : Nat :=
  match (s.regionsOf t).map s.regionSteps with
  | [] => 0
  | n :: ns => ns.foldl min n

/-- The control rings run, and the kings of vertical pairs count their pairs' steps (R40, R41, R65, R68). -/
def State.tickSteps (s : State) : State :=
  let tiles := s.tiles.map fun p =>
    match p.2.castle with
    | .king true _ => (p.1, { p.2 with heldSteps := p.2.heldSteps + s.tileSteps p.1 })
    | _ => p
  { s with steps := Vector.ofFn fun k => s.steps[k] + s.regionSteps k.val, tiles := tiles }

/-! ## Time spent in a state -/

/-- Count one nanosecond where a condition holds. -/
def State.countNs (s : State) (c : Bool) (id : CtrId) (i : Nat := 0) : State := s.bump id i 0 (if c then 1 else 0)

/-- A ring pass holds its array: its next granule has not arrived (R47, R156). -/
def Tile.starves (x : Tile) (t : Nat) : Bool :=
  x.runs.any fun r => match runSpec t x r with
    | some (m, p) => p.ring.isSome && r.taken < p.granules.length && ((x.tallies.toArray[fld m.w 61 56]?).getD 0) == 0
    | none => false

/-- Sequencers that wait, those that hold for a full queue, and arrays that hold for a row (R47, R134, R135). -/
def State.tickTiles (s : State) : State :=
  s.tiles.foldl (fun s (p : Nat × Tile) =>
    let n := s.tileSteps p.1
    let d := p.1 / 512
    let s := s.bump .tileSeqWaitSteps d 0 (if p.2.seq == .waiting then n else 0)
    let s := s.bump .tileSeqQueueFullSteps d 0 (if p.2.full && (s.decodes p.1).isSome then n else 0)
    s.bump .tileArrayStarveSteps d 0 (if p.2.starves p.1 then n else 0)) s

/-- Counts whose moments the spec leaves to the units of an implementation: steps and nanoseconds waited inside them, and
words that ECC corrects (R43, R70, R220, R550; log 17). -/
def State.tickWaited (s : State) : State :=
  let n := s.clock
  let add (s : State) (id : CtrId) (i v : Nat) : State := s.setCtr ⟨id, i, 0, 0⟩ (s.ctr ⟨id, i, 0, 0⟩ + BitVec.ofNat 64 v)
  let s := (List.range 6).foldl (fun s d =>
    add (add (add s .tileMvStarveSteps d (Config.waited 0 d n)) .tileSramWaitSteps d (Config.waited 1 d n)) .tileSramCorrected d
      (Config.waited 2 d n)) s
  let s := (List.range 7).foldl (fun s u => add s .xlatWalkWaitNs u (Config.waited 3 u n % 2)) s
  let s := (List.range 24).foldl (fun s m => add s .memThrottleNs m (Config.waited 4 m n % 2)) s
  add s .secAttestWaitNs 0 (Config.waited 5 0 n % 2)

/-- A started fabric move of a tile waits to send its next packet (R229, R276). -/
def fabWaits (t : Nat) (x : Tile) : Option OrtOwner :=
  (x.queue.find? fun m =>
    0x41 ≤ Hdr.op m.w && Hdr.op m.w ≤ 0x44 && m.state == .started && m.failing.isNone &&
    m.next < (fabSpec m.w m.regs).packets && m.next < m.done + 256).map fun m => .move x.job t m.id m.next

/-- Issue held for the outstanding request table, or for the window of SEQs (R276). -/
def State.tickOrt (s : State) : State :=
  let os := s.tiles.filterMap fun p => (fabWaits p.1 p.2).filter fun o => !s.canAlloc o
  if os.isEmpty then s else
  let window := (s.fab.nextSeq - s.low).toNat ≥ 2 ^ 22
  (s.countNs (!window) .fabOrtFullNs).countNs window .fabTxSeqWindowNs

/-- Atomics that wait count the time, and are accepted as updates land (R287, R289). -/
def State.tickAtomics (s : State) : State :=
  if s.dbg.frozen || s.fab.atomWait.isEmpty then s else
  (s.bump .fabAtomicBackpressureNs).drainAtomics s.fab.atomWait.length

/-- A PROJECT is held for a full submission queue (R182). -/
def State.projectHeld (s : State) : Bool :=
  s.ppe.queue.length ≥ 256 && s.tiles.any fun p => p.2.queue.any fun m => Hdr.op m.w == 0x50 && m.state == .queued && p.2.copyRuns m

/-- Ports: time DEGRADED, for a full retry buffer, and for a credit (R338, R343, R357, R326). -/
def State.tickPort (s : State) (q : PortIx) : State :=
  let x := s.ports[q]
  let s := s.countNs (x.state == .degraded) .fabPortDegradedNs q.val
  let s := s.countNs (x.pastFec && x.tx.slots > 0 && !x.room) .fabPortRetryFullNs q.val
  s.countNs (!s.dbg.frozen && (x.usable || x.state == .held) && inputs.any fun p => (s.inputOf p).any fun y =>
    match y.out with | some (o, v) => o == q && y.left > 0 && x.credits v == 0 | none => false) .fabPortCreditStallNs q.val

/-- Thermal regions, power and time (R485, R486, R492, R495, R210). -/
def State.tickHolds (s : State) : State :=
  let s := s.therm.zipIdx.foldl (fun s (r : ThermRegion × Nat) =>
    (s.countNs r.1.throttled .thermThrottleNs r.2).countNs r.1.held .thermHoldNs r.2) s
  let s := (List.finRange 24).foldl (fun s m => s.countNs s.hbm[m].refreshDoubled .memRefreshDoubledNs m.val) s
  let s := s.countNs (s.power.setpoint.toList.any fun v => s.power.limit < v.toNat) .pwrCappedNs
  let s := s.countNs s.power.capHold .pwrHoldNs
  s.countNs (s.time.everSync && s.time.state != .sync) .timeHoldoverNs

/-- Pilots of the photonic engine: one slot in 1,000 of its 16 for each nanosecond, half as many under the throttle
(R185, R485). -/
def State.tickPilots (s : State) : State :=
  if s.dbg.frozen || s.ppe.state != .ready || s.ppe.reprog.isSome then s else
  let n := s.ppe.pilotRem + (if ((s.therm[132]?).map ThermRegion.throttled).getD false then 8 else 16)
  ({ s with ppe := { s.ppe with pilotRem := n % 1000 } }).bump .ppePilots 0 0 (n / 1000)

/-- A pre-emption has lasted more than 65,696 steps: some array or MV unit still runs (R248). -/
def State.tickPreempt (s : State) : State :=
  s.jobs.foldl (fun s j =>
    let late (t : Nat) : Bool :=
      (!(s.tile t).runs.isEmpty || decide (s.ring (t / 32) < (s.tile t).mvUntil)) && decide (((s.steps.toArray[t / 32]?).getD 0) > (j.preemptSteps.getD (t / 32) 0) + 65696)
    if j.preempt.isSome && !j.preemptLate && (jobTiles j.p).any late
    then (s.modJob j.id fun b => { b with preemptLate := true }).bump .jobPreemptLate else s) s

/-! ## Steps 9 and 10 of power-up (R458 to R460) -/

/-- Every host interface has an address, or 5 s have passed (R459). -/
def State.ethernetUp (s : State) : Bool :=
  decide (s.boot.linksT + 5000000000 ≤ s.clock) ||
  (List.finRange 16).all fun i => !s.ifaceExists i || s.host.ifaces[i].addrs.toList.any Option.isSome

/-- Every enabled port has left training, or 1 s has passed (R459). -/
def State.fabricTrained (s : State) : Bool :=
  decide (s.boot.linksT + 1000000000 ≤ s.clock) || s.ports.toList.all fun x => !x.cfg.enabled || x.state != .training

/-- The ends of steps 9 and 10, which begin when step 8 has ended (R458, R459, R480). -/
def State.tickBoot (s : State) : State :=
  if s.boot.ready || s.clock < s.boot.linksT then s else
  let ends (old : Option Nat) (now : Bool) : Option Nat :=
    old.orElse fun _ => if now then some (s.clock - s.boot.linksT) else none
  { s with boot := { s.boot with
    ethernetNs := ends s.boot.ethernetNs s.ethernetUp, fabricNs := ends s.boot.fabricNs s.fabricTrained } }

/-! ## The tick -/

/-- One nanosecond with no command (log 1). -/
def State.tick (s : State) : State :=
  let s := { s with clock := s.clock + 1 }
  if !s.board.rails then s else
  let s := s.tickTime
  let s := match Config.upset s.clock with | some e => s.upset [e] | none => s
  if !s.live then s else
  let s := (((if s.dbg.frozen then s else s.tickTiles.tickWaited).tickOrt).tickAtomics).countNs (!s.dbg.frozen && s.projectHeld) .ppeQueueFullNs
  let s := (List.finRange 16).foldl (fun s q => ((s.tickPort q).tickFrame q).auditTry q) s
  (((((s.tickHolds).tickPilots).tickSteps).tickPreempt).tickBoot).tickDrains

end Sys2Proof.Machine
end

