-- ==== Sys2Proof/Safety.lean ====
section
/-! DEFINITION. What claims about runs say in common: the invariant of every step, a move that executes, and a ZCP command
that is heard. -/

namespace Sys2Proof.Machine

/-! ## The invariant -/

/-- What holds of the block whatever commands come: memory keeps its one canonical form, every waiting command is well
formed, and no more fuses are blown than there are (R470). -/
structure State.Inv (s : State) : Prop where
  memory : Memory.wf s.mem = true
  queue : s.pending.all Instr.wellFormed = true
  fuses : s.flash.rollback ≤ 64

/-! ## Moves -/

/-- The tile's sequencer fetches the move w of job j: it decodes, w stands unpoisoned where the program counter names, and
the queue has room (R135, R149). -/
structure Fetches (s : State) (t : TileIx) (w : MoveWord) (j : Job) : Prop where
  decodes : s.decodes t = some j
  word : s.moveAt t = w
  clean : s.sramPoison t (s.tile t).fetchAddr 32 = none
  room : (s.tile t).full = false

/-- The sequencer fetches the move w and executes it: its predicate lets it, nothing holds it or keeps it
waiting at decode, and the reserved bits of its header are 0 (R136, R140, R142, R170, R235). -/
structure Executes (s : State) (t : TileIx) (w : MoveWord) (j : Job) : Prop extends Fetches s t w j where
  predicate : ((s.tile t).pred (Hdr.psel w) == Hdr.pneg w) = false
  ready : (s.tile t).mustHold w = false
  stays : (s.tile t).mustStay w = false
  reserved : clear w Hdr.resv = true

/-- The sequencer of a tile that decodes: RUNNING. -/
def Tile.decoding (x : Tile) : Tile := { x with seq := .running, wait := .none }

/-- The state in which a decoded move takes its effect: the tile decodes, and the move is counted (R134, R135). -/
def State.decoded (s : State) (t : Nat) : State :=
  (s.setTile t (s.tile t).decoding).bump .tileSeqMoves (t / 512)

/-- The move after the one at the program counter, or the one that a loop goes back to, lies in the program (R143, R168). -/
def Tile.goesOn (x : Tile) : Prop := (x.advance none).pc < x.len

/-- A move that the sequencer completes leaves the tile x, and its DTEN tally counts (R137). -/
def State.completes (s : State) (t : Nat) (w : MoveWord) (j : BitVec 12) (x : Tile) : State :=
  if Hdr.dten w then (s.setTile t x).arrive j t (Hdr.dtal w) 1 else s.setTile t x

/-- The program counter goes on past the move (R167, R168). -/
def State.passOver (s : State) (t : Nat) : State := s.modTile t fun x => x.advance none

/-- What follows at once on the decode of a move of an array, MV, vector or fabric unit, of HALT, WAIT_EPOCH, PROJECT or
COLL_ISSUE: the units of the tile go on, or the period's and the job's end are noted. -/
def afterDecode (c : Instr) (t : TileIx) (s : State) : State :=
  match c with
  | .loadStationary _ _ | .drain _ _ | .clear _ _ | .castle _ _ | .uncastle _ _ => s.kickArray t
  | .mvPass _ _ | .vop _ _ | .reduce _ _ => s.kick t
  | .put _ _ | .get _ _ | .atomic _ _ | .signal _ _ => s.kickFab t
  | .collIssue _ _ => s.kickColl t
  | .halt _ _ => (s.noteWork t).checkDone (s.tile t).job
  | .waitEpoch _ _ => s.noteWork t
  | _ => s

/-- The tile of a command that decodes a move. -/
def moveTile : Instr → Option TileIx
  | .jump t _ => some t
  | .branch t _ => some t
  | .loop t _ => some t
  | .call t _ => some t
  | .return_ t _ => some t
  | .halt t _ => some t
  | .waitTally t _ => some t
  | .waitEpoch t _ => some t
  | .yield_ t _ => some t
  | .salu t _ => some t
  | .tset t _ => some t
  | .tadd t _ => some t
  | .scmp t _ => some t
  | .sldi t _ => some t
  | .sld t _ => some t
  | .sst t _ => some t
  | .sread t _ => some t
  | .loadStationary t _ => some t
  | .pass t _ => some t
  | .passSplit t _ => some t
  | .drain t _ => some t
  | .clear t _ => some t
  | .castle t _ => some t
  | .uncastle t _ => some t
  | .mvPass t _ => some t
  | .vop t _ => some t
  | .reduce t _ => some t
  | .copy t _ => some t
  | .put t _ => some t
  | .get t _ => some t
  | .atomic t _ => some t
  | .signal t _ => some t
  | .fence t _ => some t
  | .project t _ => some t
  | .collIssue t _ => some t
  | .periodMark t _ => some t
  | .trace t _ => some t
  | .break_ t _ => some t
  | _ => none

/-! ## Completion -/

/-- Command c completes on s: exec answers a next state, of which P holds. -/
def Gives (c : Instr) (s : State) (P : State → Prop) : Prop := ∃ t, exec c s = .next t ∧ P t

/-- The endpoint admits the request q (R267 steps 1 to 11, R280, R289): it is legal and of the period in force, its SEQ is
new, window entry e of job o lets it in, what it must follow has been applied, the de-dup table has room, and the atomic unit
accepts an ATOMIC. -/
structure State.Admits (s : State) (q : Request) (e : BitVec 256) (o : Job) : Prop where
  legal : reqLegal q = true
  epoch : q.cls.toNat = 3 → ∃ j, s.job q.job = some j ∧ j.p.periodic = true ∧ s.epoch j = q.epoch
  fresh : ∀ d ∈ s.fab.dedup, ¬(d.src = q.src ∧ d.seq = q.seq)
  window : s.winCheck q = .ok e o
  order : q.ord = true → q.opv = true → (∃ d ∈ s.fab.dedup, d.src = q.src ∧ d.seq = q.oprev) ∨ s.beforeLow q.src q.oprev = true
  room : s.fab.dedup.length < 65536
  accepted : q.op = 2 → s.atomicsHeld = false

/-- The packet of place k at an input of the router is looked up and gets the output VC v of port q by the entry e (R302,
R309, R312): it is whole, it is not marked, and no head of another input competes for that VC (R316). -/
structure State.Leaves (s : State) (p : Option PortIx) (k : Nat) (x : InPkt) (e : BitVec 64) (q : PortIx) (v : Nat) : Prop where
  here : (s.inputOf p)[k]? = some x
  waits : x.out = none
  whole : headFault x.pkt = none
  unmarked : s.marks p x = false
  looked : x.route = some e ∨ x.route = none ∧ s.lookup p x = .entry e
  chosen : s.chooseOut p x e = some (q, v)
  alone : s.rivals p (q, v) = []

/-- What routing does to a packet that gets an output VC (R309, R312, R316, R318): it holds it, and the output serves. -/
def State.routed (s : State) (p : Option PortIx) (k : Nat) (x : InPkt) (e : BitVec 64) (q : PortIx) (v : Nat) : State :=
  let h := headOf x.pkt.head
  let u := (s.modAt p k fun x => { x with route := some e, out := some (q, v) }).takeTurn q v p
  let u := if p.isNone && h.ty == 1 then u.modOrt (BitVec.ofNat 24 h.seq) fun e => { e with port := some q } else u
  ((u.modFab fun f => { f with rr := q.val }).bump (if v % 3 != 0 then .fabPortEscape else .fabPortAdaptive) q.val).serve q

/-! ## ZCP commands -/

/-- What R450 lists of a ZCP command: opcode, target, whether it changes the module, and whether it may run before READY
and in a freeze; `free` is MGMT_UNLOCK with FORCE, which no lock refuses (R448). -/
structure ZcpRow where
  req : ZcpReq
  op : Nat
  target : Target := {}
  change : Bool := true
  early : Bool := false
  frozen : Bool := false
  free : Bool := false

/-- The row of R450 of a ZCP command. -/
def zcpRow : Instr → Option ZcpRow
  | .deviceInfo r => some { req := r, op := 0x0001, change := false }
  | .capRead r _ _ => some { req := r, op := 0x0002, change := false }
  | .ping r _ _ => some { req := r, op := 0x0003, change := false }
  | .eventRegister r _ _ => some { req := r, op := 0x0010, early := true, frozen := true }
  | .eventDeregister r _ => some { req := r, op := 0x0011, early := true, frozen := true }
  | .eventRead r _ _ => some { req := r, op := 0x0012, change := false }
  | .hostConfig r i _ => some { req := r, op := 0x0101, early := true, target := ifTarget i }
  | .hostStatus r i => some { req := r, op := 0x0102, change := false, target := ifTarget i }
  | .mgmtLock r _ => some { req := r, op := 0x0110, early := true, frozen := true }
  | .mgmtUnlock r force => some { req := r, op := 0x0111, early := true, frozen := true, free := force }
  | .sourceFilter r _ => some { req := r, op := 0x0112, early := true, frozen := true }
  | .sourceFilterRead r => some { req := r, op := 0x0113, change := false }
  | .jobLoad r job _ => some { req := r, op := 0x0201, target := jobTarget job }
  | .jobStart r job => some { req := r, op := 0x0202, target := jobTarget job }
  | .jobStop r job => some { req := r, op := 0x0203, target := jobTarget job }
  | .jobUnload r job => some { req := r, op := 0x0204, target := jobTarget job }
  | .jobResume r job _ _ => some { req := r, op := 0x0205, target := jobTarget job }
  | .jobPreempt r job _ _ => some { req := r, op := 0x0206, target := jobTarget job }
  | .jobStatus r job => some { req := r, op := 0x0207, change := false, target := if job = 0 then {} else jobTarget job }
  | .faultRead r job _ => some { req := r, op := 0x0208, change := false, target := if job = 0 then {} else jobTarget job }
  | .periodReportRead r job _ _ => some { req := r, op := 0x0209, change := false, target := jobTarget job }
  | .breakArm r job _ => some { req := r, op := 0x020A, target := jobTarget job }
  | .mapRange r job _ _ _ _ _ _ => some { req := r, op := 0x0301, target := jobTarget job }
  | .unmapRange r job _ _ => some { req := r, op := 0x0302, target := jobTarget job }
  | .protectRange r job _ _ _ _ => some { req := r, op := 0x0303, target := jobTarget job }
  | .mapRead r job _ => some { req := r, op := 0x0304, change := false, target := jobTarget job }
  | .memFlush r m _ => some { req := r, op := 0x0305, frozen := true, target := stackTarget m }
  | .memStatus r m => some { req := r, op := 0x0306, change := false, target := stackTarget m }
  | .mrRegister r job _ _ _ => some { req := r, op := 0x0310, target := jobTgt job }
  | .mrDeregister r job _ => some { req := r, op := 0x0311, target := jobTgt job }
  | .qpCreate r job _ => some { req := r, op := 0x0320, target := jobTgt job }
  | .qpModify r qpn _ _ => some { req := r, op := 0x0321, target := qpTarget qpn }
  | .qpDestroy r qpn => some { req := r, op := 0x0322, target := qpTarget qpn }
  | .qpDoorbell r qpn => some { req := r, op := 0x0323, target := qpTarget qpn }
  | .qpQuery r qpn => some { req := r, op := 0x0324, change := false, target := qpTarget qpn }
  | .planLoad r _ => some { req := r, op := 0x0401, early := true }
  | .planRead r => some { req := r, op := 0x0402, change := false }
  | .planAccept r p => some { req := r, op := 0x0403, early := true, target := portTarget p }
  | .fabricConfig r p _ => some { req := r, op := 0x0404, early := true, target := (p.map portTarget).getD {} }
  | .portStatus r p => some { req := r, op := 0x0405, change := false, target := portTarget p }
  | .portRetrain r p => some { req := r, op := 0x0406, early := true, target := portTarget p }
  | .routeWrite r _ _ => some { req := r, op := 0x0410, early := true }
  | .routeRead r _ _ => some { req := r, op := 0x0411, change := false }
  | .windowOpen r _ _ => some { req := r, op := 0x0420 }
  | .windowClose r _ => some { req := r, op := 0x0421 }
  | .windowRead r _ => some { req := r, op := 0x0422, change := false }
  | .fabricCongRead r => some { req := r, op := 0x0430, change := false }
  | .topoLoad r job _ _ _ _ => some { req := r, op := 0x0440, target := jobTarget job }
  | .groupDefine r g => some { req := r, op := 0x0441, target := groupTarget (BitVec.ofNat 16 (recField g 0 2)) }
  | .groupDelete r g => some { req := r, op := 0x0442, target := groupTarget g }
  | .groupRead r g => some { req := r, op := 0x0443, change := false, target := groupTarget g }
  | .collStatus r g _ => some { req := r, op := 0x0444, change := false, target := (g.map groupTarget).getD {} }
  | .cartStatus r b => some { req := r, op := 0x0501, change := false, target := bayTarget b }
  | .cartLedgerRead r b => some { req := r, op := 0x0502, change := false, target := bayTarget b }
  | .cartDrain r b => some { req := r, op := 0x0503, early := true, target := bayTarget b }
  | .cartResume r b => some { req := r, op := 0x0504, early := true, target := bayTarget b }
  | .cartReauth r b => some { req := r, op := 0x0505, early := true, target := bayTarget b }
  | .ppeSlotLoad r slot _ => some { req := r, op := 0x0510, target := slotTarget slot }
  | .ppeSlotClear r slot => some { req := r, op := 0x0511, target := slotTarget slot.val }
  | .ppeStatus r slot => some { req := r, op := 0x0512, change := false, target := (slot.map fun n => slotTarget n.val).getD {} }
  | .ppeCalibrate r => some { req := r, op := 0x0513, early := true }
  | .thermalStatus r tgt => some { req := r, op := 0x0601, change := false, target := tgt }
  | .powerStatus r => some { req := r, op := 0x0602, change := false }
  | .powerCapSet r _ _ => some { req := r, op := 0x0603, early := true, frozen := true }
  | .timeRead r => some { req := r, op := 0x0604, change := false }
  | .timeConfig r _ _ => some { req := r, op := 0x0605, early := true }
  | .freeze r _ => some { req := r, op := 0x0701, early := true, frozen := true }
  | .thaw r _ => some { req := r, op := 0x0702, early := true, frozen := true }
  | .freezeTrigger r _ => some { req := r, op := 0x0703, frozen := true }
  | .dumpConfig r _ => some { req := r, op := 0x0704 }
  | .dumpRead r _ _ => some { req := r, op := 0x0705, change := false }
  | .counterCatalogue r _ _ => some { req := r, op := 0x0710, change := false }
  | .counterRead r _ _ => some { req := r, op := 0x0711, change := false }
  | .counterSnapshot r => some { req := r, op := 0x0712, early := true, frozen := true }
  | .snapshotRead r _ _ => some { req := r, op := 0x0713, change := false }
  | .flagRead r => some { req := r, op := 0x0720, change := false }
  | .flagClear r tgt _ => some { req := r, op := 0x0721, target := tgt, early := true, frozen := true }
  | .audit r p _ => some { req := r, op := 0x0730, target := portTarget p }
  | .attest r _ _ => some { req := r, op := 0x0801, change := false }
  | .certRead r => some { req := r, op := 0x0802, change := false }
  | .measureRead r => some { req := r, op := 0x0803, change := false }
  | .fwStatus r => some { req := r, op := 0x0901, change := false }
  | .fwWrite r _ _ => some { req := r, op := 0x0902, early := true }
  | .fwVerify r => some { req := r, op := 0x0903, early := true }
  | .fwActivate r => some { req := r, op := 0x0904, early := true }
  | .moduleRestart r => some { req := r, op := 0x0905, early := true, frozen := true }
  | .zcpUnknownOpcode r op => some { req := r, op := op.toNat, change := false }
  | _ => none

/-- The lock is another source's and its lease runs, the module is not READY, or it is frozen, and the command may not run so (R448, R450). -/
def ZcpRow.barred (u : ZcpRow) (s : State) : Bool :=
  u.change && (((s.zcp.lock.map fun l => l.1 != u.req.src && decide (s.clock < l.2)).getD false && !u.free) || (!s.boot.ready && !u.early) ||
    (s.dbg.frozen && !u.frozen))

/-- The request as the control processor holds it when it executes as it arrives. -/
def ZcpRow.inHand (u : ZcpRow) (s : State) : Waiting :=
  { src := u.req.src, seq := u.req.seq, op := BitVec.ofNat 16 u.op, target := u.target, ver2 := u.req.ver2, tag := u.req.tag
    maxReply := u.req.maxReply, bytes := u.req.bytes, started := some s.clock }

/-- The request reaches a control processor that runs, from a source that the filter lets pass (R433, R449), and executes
now: it is new and executes as it arrives, or it waits in hand and has started (R441, R444). It is held as w, and `s₀` is
the state once its source has been marked active and a lock whose lease is over has ended (R448). -/
structure ZcpRow.Heard (u : ZcpRow) (s s₀ : State) (w : Waiting) : Prop where
  live : s.live = true
  reaches : s.accepts u.req.src = true
  passes : filterAllows s.zcp.filter u.req.src = true
  taken : (s.zcp.inHand u.req.src u.req.seq = none ∧ s.zcp.cached u.req.src u.req.seq = none ∧
      s.zcp.takes (u.inHand s) = true ∧ w = u.inHand s ∧ s₀ = (s.touchSource u.req.src).dropLock) ∨
    (s.zcp.inHand u.req.src u.req.seq = some w ∧ w.started.isSome = true ∧ w.op.toNat = u.op ∧ w.later = false ∧ s₀ = s.dropLock)

/-- A request that executes, with a reply size that R439 allows, and that neither the lock nor the module's state bars. -/
structure ZcpRow.Runs (u : ZcpRow) (s s₀ : State) (w : Waiting) : Prop where
  heard : u.Heard s s₀ w
  allowed : u.barred s = false
  size : (u.req.ver2 && u.req.maxReply != 0 && (u.req.maxReply < 512 || u.req.maxReply > 9000)) = false

/-- A ZCP command that runs, where its own conditions `ok` hold of the state it executes on, has the effect f and replies
SUCCESS with the items vs (R437, R439, R441, R475). -/
def Answers (c : Instr) (s : State) (ok : State → Prop) (f : State → State) (vs : State → List (List Byte)) : Prop :=
  ∀ u s₀ w, zcpRow c = some u → u.Runs s s₀ w → ok s₀ →
    exec c s = .next ((f s₀).reply w u.change .success (items (vs s₀)))

/-- A request goes on executing, to be answered when its command completes (R445). -/
def State.leaveLater (s : State) (w : Waiting) : State :=
  { s with zcp := { s.zcp with
    waiting := s.zcp.waiting.filter (fun x => !(x.src == w.src && x.seq == w.seq)) ++ [{ w with later := true }] } }

/-- A ZCP command that runs, where its own conditions hold, has the effect f and completes later; `after` is what follows
at once (R445). -/
def AnswersLater (c : Instr) (s : State) (ok : State → Prop) (f : State → State) (after : State → State := id) : Prop :=
  ∀ u s₀ w, zcpRow c = some u → u.Runs s s₀ w → ok s₀ → exec c s = .next (after ((f s₀).leaveLater w))

/-- The ZCP commands that only read: none of them changes anything but the control processor's replies. -/
def readsOnly : Instr → Bool
  | .deviceInfo _ => true
  | .capRead _ _ _ => true
  | .ping _ _ _ => true
  | .eventRead _ _ _ => true
  | .hostStatus _ _ => true
  | .sourceFilterRead _ => true
  | .jobStatus _ _ => true
  | .mapRead _ _ _ => true
  | .memStatus _ _ => true
  | .qpQuery _ _ => true
  | .planRead _ => true
  | .portStatus _ _ => true
  | .routeRead _ _ _ => true
  | .windowRead _ _ => true
  | .fabricCongRead _ => true
  | .groupRead _ _ => true
  | .collStatus _ _ _ => true
  | .cartStatus _ _ => true
  | .cartLedgerRead _ _ => true
  | .ppeStatus _ _ => true
  | .thermalStatus _ _ => true
  | .powerStatus _ => true
  | .timeRead _ => true
  | .counterCatalogue _ _ _ => true
  | .flagRead _ => true
  | .certRead _ => true
  | .measureRead _ => true
  | .fwStatus _ => true
  | _ => false

/-- Everything but the control processor, what it sends and its counters is as before: the queue of commands, memory, tiles,
jobs, ports, bays and every other unit. -/
def SameBut (s t : State) : Prop :=
  { t with zcp := s.zcp, outbox := s.outbox, counters := s.counters, fab := { t.fab with inject := s.fab.inject } } = s

end Sys2Proof.Machine
end

