-- ==== Sys2Proof/Certificates/Slice0/Obligations.lean ====
section
/-! DEFINITION. What is claimed of the machine, for the provers: what each command does, what it leaves unchanged, and the
rules of the whole block. -/

open Sys2Proof Sys2Proof.Machine

/-- A step takes the command at the front of the queue and runs it with the queue's rest. -/
def Obligations.StepRunsFrontCommand : Prop :=
  ∀ (c : Instr) (s : State) (rest : List Instr), step { s with pending := c :: rest } = exec c { s with pending := rest }

/-- On an empty queue one nanosecond passes (the model's choice, log 1): a tick. With the rails off nothing but the model's
own clock moves; while the firmware does not run yet, the clocks of R7, R8 and R510 move besides: global time by 16 sixteenths
of a nanosecond, less what is slewed away in one tick of 64, and a line of memory may go wrong (log 9). -/
def Obligations.EmptyQueueTicks : Prop :=
  ∀ (s : State), s.pending = [] →
    step s = .next s.tick ∧
    (s.board.rails = false → s.tick = { s with clock := s.clock + 1 }) ∧
    (s.board.rails = true → s.live = false →
      s.tick = (({ s with clock := s.clock + 1 } : State).tickTime).upset (Config.upset (s.clock + 1)).toList) ∧
    ((s.live = false ∨ s.clock % 64 ≠ 0 ∨ s.time.slew = 0) → s.tickTime.time =
      { s.time with global := s.time.global + 16, work := if s.dbg.frozen then s.time.work else s.time.work + 1 })

/-- What holds right after reset, with 48 V absent (R22, R32, R463, R523): the rails are off, nothing is held or counted, and
memory lists nothing. The values of registers that the spec gives no reset value are the model's choice (log 3). -/
def Obligations.ResetValues : Prop :=
  let s := State.reset
  s.board.rails = false ∧ s.board.pgood = false ∧ s.board.thermtrip = false ∧ s.boot.ready = false ∧ s.dbg.frozen = false ∧
  s.pending = [] ∧ s.mem = [] ∧ s.poison = [] ∧ s.poisonWords = [] ∧ s.tiles = [] ∧ s.jobs = [] ∧ s.faultQ = [] ∧
  s.outbox = [] ∧ (∀ k, s.ctr k = 0) ∧ (∀ f i n, s.flagCount f i n = 0) ∧ s.zcp.lock = none ∧ s.zcp.filter = [] ∧
  (∀ a, Memory.read s.mem a = 0) ∧ s.flash.rollback = 0 ∧ s.power.cap = 3600 ∧ s.therm.length = 133 ∧
  (∀ t r, ((s.tile t).reg r = 0 ∧ (s.tile t).pred 0 = true)) ∧ (∀ p : PortIx, s.ports[p].state = .down)

/-- The invariant holds right after reset. -/
def Obligations.InvariantAtReset : Prop := State.reset.Inv

/-- Every step keeps the invariant: memory's canonical form, the well-formed queue, and no more fuses blown than there
are (R470). -/
def Obligations.StepKeepsInvariant : Prop := ∀ (s t : State), s.Inv → step s = .next t → t.Inv

/-- s0 and p0 (R132): they read 0 and 1 whatever is written, a write to either changes nothing, a reference whose base is s0
is its offset, and a move predicated on p0 is never skipped. -/
def Obligations.ConstantRegisters : Prop :=
  ∀ (x : Tile),
    x.reg 0 = 0 ∧ x.pred 0 = true ∧ (∀ v, x.setReg 0 v = x) ∧ (∀ b, x.setPred 0 b = x) ∧
    (∀ r v, (x.setReg r v).reg 0 = 0) ∧ (∀ r b, (x.setPred r b).pred 0 = true) ∧
    (∀ off, (⟨0, off⟩ : Ref).addr x.regs = off) ∧
    (∀ w : MoveWord, Hdr.psel w = 0 → Hdr.pneg w = false → (x.pred (Hdr.psel w) == Hdr.pneg w) = false)

/-- Every command answers a next state, in every state: no command faults and none is refused. -/
def Obligations.EveryCommandAnswers : Prop := ∀ (c : Instr) (s : State), ∃ t, exec c s = .next t

/-- No command blows a fuse but READY, and no step unblows one (R470): the counter never falls. -/
def Obligations.FusesNeverUnblown : Prop :=
  ∀ (s t : State), s.flash.rollback ≤ 64 → step s = .next t →
    s.flash.rollback ≤ t.flash.rollback ∧ (∀ c cs, s.pending = c :: cs → c ≠ .ready → t.flash.rollback = s.flash.rollback)

/-- A REQUEST that is packed into flits and read back is itself, with every field of its header and transport block at every
value that the field holds (R297, R298, R300), and its header CRC is right (R302). -/
def Obligations.RequestPacketsRoundTrip : Prop :=
  ∀ (q : Request), q.payload.length = (if q.op = 1 then 0 else q.len.toNat) →
    let p := reqPkt q
    requestOf (headOf p.head) (payloadOf (headOf p.head) p.payload) = q ∧ headCrcOk p.head = true ∧
      (headOf p.head).flit = p.head ∧ p.flits = (headOf p.head).flits

/-- The 48 V input (R22): below 37.0 V or above 63.0 V every rail goes off and the module's state is lost; the rails start
above 39.0 V, and after they went off for the input only within 39.0 V to 60.0 V. -/
def Obligations.InputRange : Prop :=
  ∀ (s : State) (mv : Nat) (b : BootResult),
    (mv < 37000 → exec (.inputUndervoltage mv) s = .next (s.railsOff mv)) ∧
    (63000 < mv → exec (.inputOvervoltage mv) s = .next (s.railsOff mv)) ∧
    (s.board.mayStart mv = true → exec (.powerUp mv b) s = .next (s.railsOn mv b)) ∧
    (s.board.mayStart mv = false → exec (.powerUp mv b) s = .next { s with board := { s.board with vin := mv } }) ∧
    (s.board.mayStart mv = true → s.board.inputOff = true → exec (.inputBackInRange mv b) s = .next (s.railsOn mv b)) ∧
    (s.board.rails = false → s.board.thermtrip = false → s.board.railFault = false →
      (s.board.mayStart mv = true ↔ 39000 < mv ∧ mv ≤ (if s.board.inputOff then 60000 else 63000))) ∧
    ((s.railsOff mv).board.rails = false ∧ (s.railsOff mv).board.pgood = false ∧ (s.railsOff mv).tiles = [] ∧
      (s.railsOff mv).jobs = [] ∧ (s.railsOff mv).mem = [] ∧ (s.railsOff mv).zcp = {} ∧ (s.railsOff mv).counters = [] ∧
      (s.railsOff mv).flash = s.flash ∧ (s.railsOff mv).board.inputOff = true ∧ (s.railsOff mv).board.vin = mv)

/-- The connector without 48 V, and what a loss of the input leaves (R22, R25, R26, R32): PRESENT_N reads low always, every
other pin is high-impedance without 48 V, only the removal of 48 V releases THERMTRIP_N and lets a module that a rail fault
stopped start again, and an input outside its range but present keeps both. What counts as removal, 0 mV, is the model's
choice (log 39). -/
def Obligations.LossOfInput : Prop :=
  ∀ (s : State) (mv k : Nat) (b : BootResult),
    s.drives 26 = some false ∧
    (s.board.vin = 0 → k ≠ 26 → s.drives k = none) ∧
    Gives (.inputUndervoltage 0) s (fun t => t.board.thermtrip = false ∧ t.board.railFault = false ∧ ∀ k, k ≠ 26 → t.drives k = none) ∧
    (0 < mv → mv < 37000 → Gives (.inputUndervoltage mv) s fun t =>
      t.board.thermtrip = s.board.thermtrip ∧ t.board.railFault = s.board.railFault ∧ t.drives 27 = some false ∧
      t.drives 28 = (if s.board.thermtrip then some false else none)) ∧
    (63000 < mv → Gives (.inputOvervoltage mv) s fun t =>
      t.board.thermtrip = s.board.thermtrip ∧ t.board.railFault = s.board.railFault ∧ t.drives 27 = some false) ∧
    (s.board.thermtrip = true → exec (.powerUp mv b) s = .next { s with board := { s.board with vin := mv } })

/-- Reset, READY, the watchdog of boot and the pins (R30, R31, R33, R35, R459, R460, R462). -/
def Obligations.ResetAndPins : Prop :=
  ∀ (s : State) (b : BootResult) (pins : BitVec 4),
    (s.board.rails = true → exec .railFault s = .next { s with board := { s.board with pgood := false } }) ∧
    (s.board.rails = true → s.board.thermtrip = false → s.board.resetLow = false →
      exec .resetNAssert s = .next { s.resetLogic with board := { s.resetLogic.board with resetLow := true } }) ∧
    (s.board.thermtrip = true → exec .resetNAssert s = .next { s with board := { s.board with resetLow := true } }) ∧
    (s.board.resetLow = true → s.board.rails = true → s.board.thermtrip = false →
      exec (.resetNRelease b) s = .next (({ s with board := { s.board with resetLow := false } } : State).bootUp b)) ∧
    (s.live = true → s.boot.ready = false → s.boot.fwStartT + 40000000000 ≤ s.clock →
      exec (.bootWatchdog b) s = .next (s.resetLogic.bootUp b)) ∧
    (s.live = true → s.boot.ready = false → s.dbg.frozen = false → s.boot.ethernetNs.isSome = true →
      s.boot.fabricNs.isSome = true → exec .ready s = .next s.becomeReady) ∧
    (s.live = true → s.boot.ready = true → s.dbg.frozen = false → exec .freezeInNFall s =
      .next ((({ s with board := { s.board with freezeInLow := true } } : State).bump .boardFreezeInEvents).freeze .pin 0)) ∧
    (s.boot.ready = false → exec .freezeInNFall s = .next { s with board := { s.board with freezeInLow := true } }) ∧
    (s.board.rails = true → pins ≠ s.board.slotPins → exec (.slotIdChange pins) s =
      .next (({ s with board := { s.board with slotPins := pins } } : State).bump .boardSlotIdChanged)) ∧
    (s.board.rails = false → exec (.slotIdChange pins) s = .next { s with board := { s.board with slotPins := pins } })

/-- The four instructions of the test port (R28, R29): what each puts on TDO, and that EXTEST drives every output pin from
the boundary-scan register but never releases THERMTRIP_N, pin 28, which stands at place 24. An open-drain pin (27, 28, 30)
is driven low or released. -/
def Obligations.TestPort : Prop :=
  ∀ (s : State) (preload : BitVec 37), s.board.pgood = true →
    exec .jtagBypass s = .next { s with board := { s.board with tap := .bypass } } ∧
    exec .jtagIdcode s = .next { s with board := { s.board with
      tap := .idcode
      tdo := BitVec.ofNat 37 (Config.siliconRev.toNat * 2 ^ 28 + 0x4024 * 2 ^ 12 + Config.jep106.toNat * 2 + 1) } } ∧
    (∃ t, exec (.jtagSamplePreload preload) s = .next t ∧ t.board.tap = .samplePreload ∧ t.board.bsr = preload ∧
      (∀ k : Fin 37, t.board.tdo.getLsbD k.val = s.pinLevel (Config.freeValue s.fresh) (scanPins.getD k.val 0)) ∧
      { t with board := s.board, fresh := s.fresh } = s) ∧
    exec .jtagExtest s = .next { s with board := { s.board with tap := .extest } } ∧
    (s.board.tap = .extest → s.board.vin ≠ 0 →
      (∀ k, k < 22 → s.drives (k + 2) = some (s.board.bsr.getLsbD k)) ∧
      s.drives 27 = (if s.board.bsr.getLsbD 23 then none else some false) ∧
      s.drives 28 = (if s.board.thermtrip then some false else if s.board.bsr.getLsbD 24 then none else some false) ∧
      s.drives 30 = (if s.board.bsr.getLsbD 26 then none else some false))

/-- Freezes, triggers, scan-out and the release test as events (R503 to R505, R508, R514, R518, R520). -/
def Obligations.FreezeEvents : Prop :=
  ∀ (s : State), s.live = true →
    (∀ (ix : Fin 8) x, s.dbg.triggers[ix] = some x → x.met (s.ctrNow x.id x.key) = true →
      exec (.triggerFire ix) s = .next
        (let t := ({ s with dbg := { s.dbg with triggers := s.dbg.triggers.set ix none } } : State).bump .dbgTriggersFired
         if x.snapshot then t.takeSnapshot else t.freeze .trigger (BitVec.ofNat 32 ix.val))) ∧
    (∀ cause tag, cause ≠ .pin → cause ≠ .peer → exec (.freezeStart cause tag) s = .next (s.freeze cause tag)) ∧
    (∀ tag, s.boot.ready = true → s.dbg.frozen = false → exec (.freezeStart .pin tag) s = .next ((s.bump .boardFreezeInEvents).freeze .pin tag)) ∧
    (∀ tag, s.dbg.frozen = true ∨ s.dbg.accept = false →
      exec (.freezeStart .peer tag) s = .next (s.bump .dbgFreezeFlitsIgnored)) ∧
    (∀ tag, s.dbg.frozen = false → s.dbg.accept = true → exec (.freezeStart .peer tag) s = .next
      (let t := s.freeze .peer tag
       { t with dbg := { t.dbg with originFid := BitVec.ofNat 16 (tag.toNat / 2 ^ 16) } })) ∧
    (∀ base size accs sram, s.dbg.dump = some (base, size, accs, sram) → s.dbg.frozen = true → s.scanOver = false →
      exec .scanOutComplete s = .next (s.scanEnds base accs sram)) ∧
    (∀ base size accs sram, s.dbg.dump = some (base, size, accs, sram) → s.dbg.frozen = true → s.scanOver = false →
      s.dbg.dumpReads = [] → s.dbg.thaws = [] →
      let u := s.scanOut base accs sram
      exec .scanOutComplete s = .next { u with dbg := { u.dbg with dumpReads := [] } } ∧ u.dbg.scanDone = true) ∧
    exec .releaseTest s = .next s.releaseTest ∧
    (∀ src seq at_, s.dbg.thaws = [(src, seq, at_)] → (∀ t, at_ = some t → t.toNat ≤ s.now.toNat) → s.dbg.frozen = true →
      s.scanOver = true → s.board.freezeInLow = false →
      exec .releaseTest s = .next (({ s with dbg := { s.dbg with thaws := [] } } : State).release.answerLater src seq true .success [])) ∧
    (∀ cause tag, s.dbg.frozen = false → cause ≠ .peer → (cause = .pin → s.boot.ready = true) →
      Gives (.freezeStart cause tag) s fun t => t.dbg.frozen = true ∧ t.dbg.cause = cause ∧ t.dbg.tag = tag ∧
        t.board.freezeOutLow = true ∧ t.dbg.number = s.dbg.freezeNo ∧ t.dbg.freezeNo = s.dbg.freezeNo + 1 ∧ t.dbg.freezeT = s.now) ∧
    (s.dbg.frozen = true → ∀ cause tag, (cause = .pin → s.boot.ready = true) → cause ≠ .peer →
      exec (.freezeStart cause tag) s = .next (s.bump .dbgFreezeIgnored))

/-- The commands of the control processor itself (R448, R449, R452 to R456, R498): what each replies and changes. -/
def Obligations.ControlProcessorCommands : Prop :=
  ∀ (s : State) (r : ZcpReq),
    Answers (.deviceInfo r) s (fun _ => True) id (fun s => [(capList 0 s.capBodies).take 64]) ∧
    (∀ offset len, Answers (.capRead r offset len) s
      (fun s => offset % 8 = 0 ∧ 8 ≤ len ∧ len ≤ 1024 ∧ offset + len ≤ (capList 0 s.capBodies).length)
      id (fun s => [((capList 0 s.capBodies).drop offset).take len])) ∧
    (∀ data stamp, Answers (.ping r data stamp) s (fun _ => data.length ≤ 1024) id (fun s =>
      [data, leBytes 8 stamp.toNat,
       leBytes 1 (devCode s.devState) ++ leBytes 1 (timeStateCode s.time.state) ++ leBytes 1 s.time.stratum.toNat])) ∧
    (∀ l mask (i : Fin 8), Answers (.eventRegister r l mask) s
      (fun s => s.zcp.listeners[i] = none ∧ ∀ k : Fin 8, k < i → s.zcp.listeners[k] ≠ none)
      (fun s => { s with zcp := { s.zcp with listeners := s.zcp.listeners.set i (some { who := l, mask := mask }) } })
      (fun _ => [leBytes 1 i.val])) ∧
    (∀ i : Fin 8, Answers (.eventDeregister r i) s (fun _ => True)
      (fun s => { s with zcp := { s.zcp with listeners := s.zcp.listeners.set i none } }) (fun _ => [])) ∧
    (∀ first count, Answers (.eventRead r first count) s (fun _ => 1 ≤ count ∧ count ≤ 64) id
      (fun s => [((s.zcp.log.reverse.filter fun e => (e.seq - first).toNat < 2 ^ 31).take count).flatMap EventRec.bytes])) ∧
    Answers (.flagRead r) s (fun _ => True) id (fun s =>
      [(s.zcp.flags.filter fun x => x.count > 0).flatMap fun x =>
        leBytes 2 x.flag.code.toNat ++ leBytes 4 (x.kind * 2 ^ 24 + x.index) ++ leBytes 4 x.count]) ∧
    (∀ tgt code f, Answers (.flagClear r tgt code) s
      (fun _ => FlagId.ofCode code = some f ∧ f.kinds.contains tgt.kind.toNat = true ∧ tgt.index.toNat < kindSize tgt.kind.toNat)
      (fun s => { s with zcp := { s.zcp with flags := s.zcp.flags.filter fun x =>
        !(x.flag == f && x.kind == tgt.kind.toNat && x.index == tgt.index.toNat) } })
      (fun s => [leBytes 4 (s.flagCount f tgt.kind.toNat tgt.index.toNat), leBytes 1 0])) ∧
    (∀ lease, Answers (.mgmtLock r lease) s (fun s => 1 ≤ lease ∧ lease ≤ 600 ∧ s.zcp.lock = none)
      (fun s => ({ s with zcp := { s.zcp with lock := some (r.src, s.clock + lease * 1000000000) } } : State).event .lock {} [0])
      (fun s => [sourceBytes r.src, leBytes 8 (s.now + BitVec.ofNat 64 (16 * lease * 1000000000)).toNat])) ∧
    (∀ lease till, Answers (.mgmtLock r lease) s (fun s => 1 ≤ lease ∧ lease ≤ 600 ∧ s.zcp.lock = some (r.src, till))
      (fun s => { s with zcp := { s.zcp with lock := some (r.src, s.clock + lease * 1000000000) } })
      (fun s => [sourceBytes r.src, leBytes 8 (s.now + BitVec.ofNat 64 (16 * lease * 1000000000)).toNat])) ∧
    (∀ force till, Answers (.mgmtUnlock r force) s (fun s => s.zcp.lock = some (r.src, till))
      (fun s => ({ s with zcp := { s.zcp with lock := none } } : State).event .lock {} [1]) (fun _ => [sourceBytes r.src])) ∧
    (∀ h till, Answers (.mgmtUnlock r true) s (fun s => s.zcp.lock = some (h, till) ∧ h ≠ r.src)
      (fun s => (({ s with zcp := { s.zcp with lock := none } } : State).setFlag .lockForced 0 0).event .lock {} [3])
      (fun _ => [sourceBytes h])) ∧
    (∀ es, Answers (.sourceFilter r es) s (fun _ => filterAllows es r.src = true ∧ es.length ≤ 16)
      (fun s => { s with zcp := { s.zcp with filter := es } }) (fun _ => [es.flatMap filterBytes])) ∧
    Answers (.sourceFilterRead r) s (fun _ => True) id (fun s => [s.zcp.filter.flatMap filterBytes]) ∧
    (∀ op u s₀ w, zcpRow (.zcpUnknownOpcode r op) = some u → u.Runs s s₀ w →
      exec (.zcpUnknownOpcode r op) s = .next (s₀.reply w false .opcodeUnknown []))

/-- What the commands that only read leave unchanged, whatever they reply and whoever asks (R433 to R450): everything but
the control processor's own records, what it sends and its counters. -/
def Obligations.ReadCommandsChangeNothing : Prop :=
  ∀ (c : Instr) (s t : State), readsOnly c = true → exec c s = .next t → SameBut s t

/-- A change command that the management lock bars, or that the module's state bars, is answered with a status other than
SUCCESS and changes nothing else (R448, R450). Where it names nothing reserved, the lock answers LOCKED with its holder
before NOT_READY, and NOT_READY comes before FROZEN (R548): said of WINDOW_CLOSE, which R450 lets run neither before READY
nor in a freeze, and of PPE_CALIBRATE, which may run before READY. -/
def Obligations.BarredCommandsAreRefused : Prop :=
  (∀ (c : Instr) (u : ZcpRow) (s s₀ : State) (w : Waiting), zcpRow c = some u → u.Heard s s₀ w → u.barred s = true →
    ∃ st body s₁, st ≠ .success ∧ SameBut s s₁ ∧ exec c s = .next (s₁.reply w true st body)) ∧
  (∀ (s s₀ : State) (r : ZcpReq) (e : Nat) (u : ZcpRow) (w : Waiting), zcpRow (.windowClose r e) = some u →
    u.Heard s s₀ w → (r.ver2 = true → r.maxReply = 0) → e ≤ 16383 →
    let lock := s₀.zcp.lock.filter fun l => l.1 != r.src
    (∀ l, lock = some l → exec (.windowClose r e) s = .next (s₀.reply w true .locked (items [sourceBytes l.1]))) ∧
    (lock = none → s.boot.ready = false →
      exec (.windowClose r e) s = .next ((s₀.bump .zcpRefused).reply w true .notReady [])) ∧
    (lock = none → s.boot.ready = true → s.dbg.frozen = true →
      exec (.windowClose r e) s = .next ((s₀.bump .zcpRefused).reply w true .frozen []))) ∧
  ∀ (s s₀ : State) (r : ZcpReq) (u : ZcpRow) (w : Waiting), zcpRow (.ppeCalibrate r) = some u → u.Heard s s₀ w →
    (r.ver2 = true → r.maxReply = 0) → s.zcp.lock = none → s.dbg.frozen = true →
    exec (.ppeCalibrate r) s = .next ((s₀.bump .zcpRefused).reply w true .frozen [])

/-- A duplicate of a request whose final reply is kept is answered from the cache and not executed again (R442, R443); one
that still executes is answered IN_PROGRESS. Neither changes anything but the control processor's records and counters. -/
def Obligations.DuplicatesAreNotExecuted : Prop :=
  ∀ (c : Instr) (u : ZcpRow) (s : State), zcpRow c = some u → s.live = true → s.accepts u.req.src = true →
    filterAllows s.zcp.filter u.req.src = true →
    (∀ e, s.zcp.inHand u.req.src u.req.seq = none → s.zcp.cached u.req.src u.req.seq = some e →
      exec c s = .next (s.answerDuplicate u.req.src e u.req.maxReply u.req.rfrag) ∧
      SameBut s (s.answerDuplicate u.req.src e u.req.maxReply u.req.rfrag)) ∧
    (∀ w, s.zcp.inHand u.req.src u.req.seq = some w → w.later = true ∨ w.started = none →
      exec c s = .next (((s.bump .zcpReplayDuplicates).touchSource u.req.src).sendReply u.req.src
        (w.head .inProgress [] 0) u.req.maxReply 0 []))

/-- A request from a source that the filter does not let pass is dropped and counted, and one that does not reach a running
control processor has no effect (R433, R449). -/
def Obligations.FilteredRequestsAreDropped : Prop :=
  ∀ (c : Instr) (u : ZcpRow) (s : State), zcpRow c = some u →
    (s.live = true → s.accepts u.req.src = true → filterAllows s.zcp.filter u.req.src = false →
      exec c s = .next (s.bump .zcpFiltered)) ∧
    (s.live = false ∨ s.accepts u.req.src = false → exec c s = .next s)

/-- Host interfaces, memory regions and queue pairs (R407, R408, R410, R411, R415, R416, R418, R421, R425). -/
def Obligations.HostCommands : Prop :=
  ∀ (s : State) (r : ZcpReq),
    (∀ (i : IfIx) (c : HostCfg), hostCfgBad c = false → Answers (.hostConfig r i c) s (fun _ => True)
      (fun s => s.hostConfigure i c) (fun s => (s.hostConfigure i c).hostSettings i)) ∧
    (∀ i : IfIx, Answers (.hostStatus r i) s (fun _ => True) id (fun s =>
      [leBytes 1 (if s.host.ifaces[i].up then 1 else 0), leBytes 1 (modeCode s.host.ports[portOfIf i].mode),
        s.host.ifaces[i].addrs.toList.zipIdx.flatMap fun (a, k) => match a with
          | some a => leBytes 1 k ++ (leBytes 16 a.toNat).reverse
          | none => [],
        (leBytes 6 (Config.macBase.toNat + i.val)).reverse])) ∧
    (∀ job base len rights j k, Answers (.mrRegister r job base len rights) s
      (fun s => s.job job = some j ∧ s.host.mrs.length < 65536 ∧ 1 ≤ len ∧ base + len ≤ 2 ^ 48 ∧
        (List.range 65536).find? (fun k => !s.host.mrs.any fun m => m.index == k) = some k)
      (fun s => s.modHost fun h => { h with
        mrs := h.mrs ++ [⟨k, job, base, len, rights, ((s.host.gens.find? fun p => p.1 == k).map Prod.snd).getD 0 + 1⟩]
        gens := (k, ((s.host.gens.find? fun p => p.1 == k).map Prod.snd).getD 0 + 1) :: h.gens.filter fun p => p.1 != k })
      (fun s => [leBytes 4 (k * 2 ^ 16 + (((s.host.gens.find? fun p => p.1 == k).map Prod.snd).getD 0 + 1).toNat)])) ∧
    (∀ job rkey j m, Answers (.mrDeregister r job rkey) s (fun s => s.job job = some j ∧ s.memRegion job rkey = some m)
      (fun s => s.modHost fun h => { h with mrs := h.mrs.filter fun x => x.index != m.index }) (fun _ => [])) ∧
    (∀ job p j n, Answers (.qpCreate r job p) s
      (fun s => s.job job = some j ∧ s.qpCheck j p = none ∧ s.host.qps.length < 8192 ∧
        ((List.range 8192).map (· + 1)).find? (fun n => (s.qp n).isNone) = some n)
      (fun s => s.modHost fun h => { h with qps := h.qps ++ [{ qpn := n, job := job, p := p }] }) (fun _ => [leBytes 2 n])) ∧
    (∀ qpn st attr q j, Answers (.qpModify r qpn st attr) s
      (fun s => s.qp qpn = some q ∧ s.job q.job = some j ∧ qpMoves q.state st = true ∧ attr.bind (s.qpCheck j) = none)
      (fun s => s.qpChange qpn q st attr) (fun _ => [])) ∧
    (∀ qpn q, Answers (.qpDestroy r qpn) s (fun s => s.qp qpn = some q) (fun s => s.dropQp qpn) (fun _ => [])) ∧
    (∀ qpn q, Answers (.qpDoorbell r qpn) s (fun s => s.qp qpn = some q) (fun s => s.doorbell qpn) (fun _ => [])) ∧
    (∀ qpn q, Answers (.qpQuery r qpn) s (fun s => s.qp qpn = some q) id (fun _ =>
      [leBytes 1 (qpCode q.state), leBytes 4 q.sendPsn.toNat ++ leBytes 4 q.recvPsn.toNat,
        leBytes 8 (q.rate * 2 ^ 32).floor.toNat,
        leBytes 4 q.sent.length ++ leBytes 4 q.sqNext ++ leBytes 8 q.cq ++ leBytes 8 q.completed]))

/-- The commands of jobs: what each changes and replies (R166, R226, R233, R242 to R244, R247, R250, R259). -/
def Obligations.JobCommands : Prop :=
  ∀ (s : State) (r : ZcpReq) (job : BitVec 12),
    (∀ p, jobLoadBad job p = none →
      Answers (.jobLoad r job p) s (fun s => s.jobLoadCheck job p = none) (fun s => s.loadJob job p) (fun _ => [])) ∧
    (∀ j, Answers (.jobStart r job) s
      (fun s => s.job job = some j ∧ j.state = .loaded ∧ j.startWanted = false)
      (fun s => s.startJob j) (fun _ => [])) ∧
    (∀ j, Answers (.jobStop r job) s (fun s => s.job job = some j) (fun s => s.endJob job .success) (fun _ => [])) ∧
    (∀ j, Answers (.jobUnload r job) s
      (fun s => s.job job = some j ∧ (j.state = .loaded ∨ j.state = .done ∨ j.state = .ended))
      (fun s => s.unloadJob job) (fun _ => [])) ∧
    (∀ a tile j, Answers (.jobResume r job a tile) s
      (fun s => s.job job = some j ∧ (∀ k, a = .entry k → k < j.p.imageMoves) ∧ (∀ t, tile = some t → jobHas j.p t.val = true))
      (fun s => (s.resumeJob j a tile).1)
      (fun s => [leBytes 4 (s.resumeJob j a tile).2.1, leBytes 2 (s.resumeJob j a tile).2.2])) ∧
    (∀ urgent prio j, prio.getD 0 ≤ 7 → Answers (.jobPreempt r job urgent prio) s
      (fun s => s.job job = some j ∧ ∀ k ∈ s.jobs, k.id ≠ job → groupsOverlap k.p (j.preempted urgent prio) = true →
        k.p.priority ≠ (j.preempted urgent prio).priority)
      (fun s => (s.modJob job fun b => { b with p := j.preempted urgent prio }).scheduleJobs)
      (fun _ => [leBytes 1 (if urgent then 1 else 0), leBytes 1 (prio.getD j.p.priority)])) ∧
    Answers (.jobStatus r 0) s (fun _ => True) id
      (fun s => s.jobs.map fun j => leBytes 2 j.id.toNat ++ (s.jobFields j).flatten) ∧
    (∀ j, Answers (.jobStatus r job) s (fun s => job ≠ 0 ∧ s.job job = some j) id (fun s => s.jobFields j)) ∧
    (∀ count, Answers (.faultRead r 0 count) s (fun _ => 1 ≤ count ∧ count ≤ 64)
      (fun s => { s with faultQ := s.faultQ.drop count }) (fun s => [(s.faultQ.take count).flatMap FaultRec.bytes])) ∧
    (∀ count j, Answers (.faultRead r job count) s (fun s => job ≠ 0 ∧ s.job job = some j ∧ 1 ≤ count ∧ count ≤ 64) id
      (fun s => [((s.moveFaults.filter fun f => f.job == job).take count).flatMap FaultRec.bytes])) ∧
    (∀ first count j p b, Answers (.periodReportRead r job first count) s
      (fun s => s.job job = some j ∧ j.period = some p ∧ 1 ≤ count ∧ count ≤ 64 ∧ (s.readReports j p first count).2 = .ok b)
      (fun s => (s.readReports j p first count).1) (fun _ => [b])) ∧
    (∀ armed j, Answers (.breakArm r job armed) s (fun s => s.job job = some j)
      (fun s => s.modJob job fun b => { b with breaks := armed }) (fun _ => []))

/-- The map commands and the commands of the stacks (R199, R206, R208, R209, R217, R221 to R223). -/
def Obligations.MapAndStackCommands : Prop :=
  ∀ (s : State) (r : ZcpReq),
    (∀ job addr len phys page rd wr j s' next, mapBad len page rd wr = false → Answers (.mapRange r job addr len phys page rd wr) s
      (fun s => s.job job = some j ∧ len ≠ 0 ∧ addr + len ≤ j.p.rootLen * 2 ^ 30 ∧ addr + len ≤ 2 ^ 48 ∧
        addr % page = 0 ∧ phys % page = 0 ∧ len % page = 0 ∧ (∀ e ∈ s.mapEntries j addr len, e.kind ≠ .leaf) ∧
        s.mapPages j addr len phys page rd wr = some (s', next) ∧ s.pagesCheck len phys page = none)
      (fun s => s'.mapInstall job next (s.mapEntries j addr len) addr len) (fun _ => [])) ∧
    (∀ job addr phys page rd wr j, Answers (.mapRange r job addr 0 phys page rd wr) s (fun s => s.job job = some j) id (fun _ => [])) ∧
    (∀ job addr len j, Answers (.unmapRange r job addr len) s
      (fun s => s.job job = some j ∧ len ≠ 0 ∧ addr + len ≤ j.p.rootLen * 2 ^ 30 ∧ addr + len ≤ 2 ^ 48 ∧
        ∀ e ∈ s.mapEntries j addr len, e.kind = .leaf → e.within addr len = true)
      (fun s =>
        let es := s.mapEntries j addr len
        ((((es.foldl (fun s e => if e.within addr len && (e.kind == .leaf || e.kind == .bad) then s.writeEntry e.place 0 else s)
          s).countBad es).shootLines job es).shootDown job addr len |>.bump .xlatShootdowns).writeHeader job) (fun _ => [])) ∧
    (∀ job addr len rd wr j, (rd || wr) = true → Answers (.protectRange r job addr len rd wr) s
      (fun s => s.job job = some j ∧ len ≠ 0 ∧ addr + len ≤ j.p.rootLen * 2 ^ 30 ∧ addr + len ≤ 2 ^ 48 ∧
        ∀ e ∈ s.mapEntries j addr len, e.kind = .leaf → e.within addr len = true)
      (fun s =>
        let es := s.mapEntries j addr len
        ((((es.foldl (fun s e =>
          if e.kind == .leaf then s.writeEntry e.place (leafBits (e.raw / 2 ^ 16 % 2 ^ 34 * 256) rd wr) else s)
          s).countBad es).shootLines job es).shootDown job addr len |>.bump .xlatShootdowns).writeHeader job) (fun _ => [])) ∧
    (∀ job (addr : BitVec 48) j e, Answers (.mapRead r job addr) s
      (fun s => s.job job = some j ∧ addr.toNat < j.p.rootLen * 2 ^ 30 ∧
        (s.mapEntries j addr.toNat 1).find? (fun e => e.kind == .leaf) = some e) id (fun _ => [leBytes 8 e.raw, leBytes 1 e.level])) ∧
    (∀ m : StackIx, Answers (.memFlush r m none) s (fun s => s.hbm[m].offline = false)
      (fun s => s.flushWhere m (fun _ => true) .memWcbFlushFence) (fun _ => [])) ∧
    (∀ (m : StackIx) base size, Answers (.memFlush r m (some (base, size))) s
      (fun s => stackOf base = some m ∧ base % 0x2000000000 + size ≤ stackSize ∧ s.hbm[m].offline = false)
      (fun s => s.flushWhere m (fun e => e.line * 64 < base + size && base < e.line * 64 + 64) .memWcbFlushFence) (fun _ => [])) ∧
    (∀ m : StackIx, Answers (.memStatus r m) s (fun _ => True) id (fun s =>
      [leBytes 1 (if s.hbm[m].offline then 1 else 0), failedBytes s.hbm[m],
        leBytes 1 (if s.hbm[m].spareUsed then 1 else 0),
        leBytes 8 (s.ctr ⟨.memRepairRows, m.val, 0, 0⟩).toNat ++ leBytes 8 (s.ctr ⟨.memRepairExhausted, m.val, 0, 0⟩).toNat]))

/-- The commands of the plan, the ports, the routes and the windows, and AUDIT (R264 to R266, R304, R310, R321, R349 to R353,
R528). -/
def Obligations.FabricCommands : Prop :=
  ∀ (s : State) (r : ZcpReq),
    (∀ plan, plan.length = 832 → planBad plan = false →
      Answers (.planLoad r plan) s (fun _ => True) (fun s => s.loadPlan plan) (fun _ => [])) ∧
    Answers (.planRead r) s (fun _ => True) id (fun s => [s.fab.plan.getD (List.replicate 832 0)]) ∧
    (∀ (p : PortIx) id l, Answers (.planAccept r p) s
      (fun s => s.ports[p].state = .held ∧ s.ports[p].peer = some id ∧ s.fab.plan = some l)
      (fun s => s.acceptPlan p id l) (fun _ => [])) ∧
    (∀ p c, fabCfgBad c = false → (∀ w, c.vcSplit = some w → splitOk w = true) →
      Answers (.fabricConfig r p c) s (fun _ => True) (fun s => s.fabricConfigure p c)
        (fun s => (s.fabricConfigure p c).fabSettings (p.getD 0))) ∧
    (∀ p, Answers (.portStatus r p) s (fun _ => True) id (fun s => s.portReply p)) ∧
    (∀ p : PortIx, Answers (.portRetrain r p) s (fun s => s.ports[p].state ≠ .down) (fun s => s.goDown p .command) (fun _ => [])) ∧
    (∀ p : PortIx, Answers (.portRetrain r p) s (fun s => s.ports[p].state = .down)
      (fun s => (s.modPort p fun x => { x with retryAt := s.clock }).refreshDown p) (fun _ => [])) ∧
    (∀ first es, (∀ e ∈ es, rtFld e 35 1 = 0 ∧ (e.getLsbD 0 = true → rtFld e 41 36 ≠ 0)) → 1 ≤ es.length → es.length ≤ 1024 →
        first + es.length ≤ 65536 →
      Answers (.routeWrite r first es) s (fun _ => True)
        (fun s => s.modFab fun f => { f with routes := es.zipIdx.foldl (fun rs x => setRoute (first + x.2) x.1 rs) f.routes })
        (fun _ => [])) ∧
    (∀ first count, Answers (.routeRead r first count) s (fun _ => 1 ≤ count ∧ count ≤ 1024 ∧ first + count ≤ 65536) id
      (fun s => [(List.range count).flatMap fun k => leBytes 8 (s.route (BitVec.ofNat 16 (first + k))).toNat])) ∧
    (∀ ix e j, ix ≤ 16383 → winBad e = false → Answers (.windowOpen r ix e) s
      (fun s => (∀ x ∈ s.fab.windows, x.1 ≠ ix ∧ ¬(winJob x.2 = winJob e ∧ winWbase x.2 < winWbase e + winLen e ∧
          winWbase e < winWbase x.2 + winLen x.2)) ∧
        winWbase e % 4096 = 0 ∧ winLbase e % 4096 = 0 ∧ winLen e % 4096 = 0 ∧ winLen e ≠ 0 ∧ winWbase e + winLen e ≤ 2 ^ 48 ∧
        winLbase e + winLen e ≤ 2 ^ 48 ∧ s.job (winOwner e) = some j)
      (fun s => s.modFab fun f => { f with windows := f.windows ++ [(ix, e)] }) (fun _ => [])) ∧
    (∀ ix, ix ≤ 16383 → Answers (.windowClose r ix) s (fun _ => True)
      (fun s => s.modFab fun f => { f with windows := f.windows.filter fun x => x.1 != ix }) (fun _ => [])) ∧
    (∀ ix, ix ≤ 16383 → Answers (.windowRead r ix) s (fun _ => True) id
      (fun s => [leBytes 32 (((s.fab.windows.find? fun x => x.1 == ix).map Prod.snd).getD 0).toNat])) ∧
    Answers (.fabricCongRead r) s (fun _ => True) id (fun s => [s.congMap]) ∧
    (∀ (p : PortIx) vc, (vc ≤ 11 ∨ vc = 15) → s.ports[p].audit = none → AnswersLater (.audit r p vc) s
      (fun s => s.ports[p].usable = true ∨ s.ports[p].state = .held)
      (fun s => (s.bump .fabPortAudits p.val).modPort p fun x => { x with audit := some ⟨vc, s.clock⟩ }) (fun s => s.auditTry p))

/-- The commands of topologies and groups (R379 to R382, R386). -/
def Obligations.GroupCommands : Prop :=
  ∀ (s : State) (r : ZcpReq),
    (∀ job naxes sizes first fids j t, topoBad job naxes sizes = false → 1 ≤ fids.length → fids.length ≤ 16384 →
      Answers (.topoLoad r job naxes sizes first fids) s
        (fun s => s.job job = some j ∧ s.topoPart job naxes sizes first fids = some t ∧ t.fids.length ≤ sizes.foldl (· * ·) 1 ∧
          (t.complete = true → (t.fids.filter fun f => s.fid == some f).length = 1) ∧
          ((s.coll.topos.filter fun x => x.job != job).map Topo.positions).sum + sizes.foldl (· * ·) 1 ≤ 262144 ∧
          (first = 0 → ∀ g ∈ s.coll.groups, g.job ≠ job))
        (fun s => s.setTopo t) (fun _ => [leBytes 4 t.fids.length, leBytes 1 (if t.complete then 1 else 0)])) ∧
    (∀ g rank fids, groupReserved g = false → Answers (.groupDefine r g) s (fun s => s.groupCheck g = .ok (rank, fids))
      (fun s => s.modColl fun c => { c with groups := c.groups ++ [{
        id := BitVec.ofNat 16 (recField g 0 2), job := BitVec.ofNat 12 (recField g 2 2), record := g, rank := rank, fids := fids }] })
      (fun _ => [leBytes 2 rank, leBytes 4 fids.length])) ∧
    (∀ g x, Answers (.groupDelete r g) s (fun s => s.group g = some x ∧ ∀ c ∈ s.coll.ctxs, c.group ≠ g)
      (fun s => s.modColl fun c => { c with groups := c.groups.filter fun x => x.id != g }) (fun _ => [])) ∧
    (∀ g x, Answers (.groupRead r g) s (fun s => s.group g = some x) id
      (fun _ => [leBytes 128 x.record.toNat, leBytes 2 (defCrc x.record)])) ∧
    (∀ g count, count ≤ 1024 → Answers (.collStatus r g count) s (fun s => ∀ k, g = some k → s.group k ≠ none) id (fun s =>
      let mine (x : BitVec 16) : Bool := (g.map fun g => g == x).getD true
      let live := s.coll.ctxs.filter fun x => mine x.group
      let recs := s.coll.history.filter fun x => mine x.group
      [live.flatMap fun x => leBytes 2 x.group.toNat ++ leBytes 2 x.job.toNat ++ leBytes 4 x.seq.toNat ++
          leBytes 1 ((if x.issue.isSome then 1 else 0) + (if x.held then 2 else 0)) ++ leBytes 3 0,
        (recs.drop (recs.length - count)).flatMap CollRec.bytes]))

/-- The commands of the cartridges and of the photonic engine (R176 to R179, R188, R363 to R368, R377). -/
def Obligations.CartridgeAndPpeCommands : Prop :=
  ∀ (s : State) (r : ZcpReq),
    (∀ b : BayIx, Answers (.cartStatus r b) s (fun _ => True) id (fun s =>
      [leBytes 1 (bayCode s.bays[b].state), leBytes 1 s.bays[b].reason, leBytes 1 s.bays[b].condition,
        (s.bays[b].ident ++ List.replicate 64 0).take 64,
        if s.bays[b].present then (lasersOf b).flatMap fun j => laserBlock b j s.bays[b].lasers[j] else []])) ∧
    (∀ b : BayIx, Answers (.cartLedgerRead r b) s (fun s => s.bays[b].present = true) id
      (fun s => [(s.bays[b].ledger ++ List.replicate 352 0).take 352])) ∧
    (∀ b : BayIx, Answers (.cartDrain r b) s (fun s => s.bays[b].present = true ∧ s.bays[b].state = .active ∧ s.spareInRuns b = false)
      (fun s =>
        let t := (s.modBay b fun x => { x with state := .draining, drainT := s.clock, drainWanted := false }).cartEvent b
        if bayKind b = 2 ∧ t.ppe.state ≠ .offline then t.ppeOffline else t) (fun _ => [])) ∧
    (∀ b : BayIx, Answers (.cartDrain r b) s
      (fun s => s.bays[b].present = true ∧ s.bays[b].state = .active ∧ s.spareInRuns b = true)
      (fun s => s.modBay b fun x => { x with drainWanted := true }) (fun _ => [])) ∧
    (∀ b : BayIx, Answers (.cartResume r b) s (fun s => s.bays[b].present = true ∧ s.bays[b].state = .drained)
      (fun s => s.again b) (fun _ => [])) ∧
    (∀ b : BayIx, AnswersLater (.cartReauth r b) s
      (fun s => s.bays[b].present = true ∧
        (s.bays[b].state = .authFailed ∨ s.bays[b].state = .drained ∨ s.bays[b].state = .fault)) (fun s => s.again b)) ∧
    (∀ (slot : Fin 8) p q gains, p.kind ≤ 1 → p.smode ≤ 1 → Answers (.ppeSlotLoad r slot.val p) s
      (fun s => s.slotCheck slot.val p = .ok (q, gains))
      (fun s => s.modPpe fun y => { y with
        slots := y.slots.set slot { loading := some s.clock, owner := p.owner, shared := p.shared, fixed := p.smode == 1,
                                    fscale := p.fscale, transform := q, gains := gains }
        active := if y.active = some slot then none else y.active
        reprog := y.reprog.map fun x => (if x.1 = some slot then none else x.1, x.2) }) (fun _ => [])) ∧
    (∀ slot, Answers (.ppeSlotClear r slot) s (fun s => s.slotPending slot.val = false)
      (fun s => s.modPpe fun y => { y with
        slots := y.slots.set slot {}, active := if y.active = some slot then none else y.active
        reprog := y.reprog.map fun x => (if x.1 = some slot then none else x.1, x.2) })
      (fun _ => [])) ∧
    (∀ slot, Answers (.ppeStatus r slot) s (fun _ => True) id (fun s =>
      [(slot.elim (List.finRange 8) fun n => [n]).flatMap fun n => leBytes 8 (s.slotWord n), leBytes 1 (ppeCode s.ppe.state),
        leBytes 2 s.ppe.err, s.ppe.dead.flatMap fun d => leBytes 1 d.val])) ∧
    AnswersLater (.ppeCalibrate r) s (fun s => s.ppeLit = true ∧ s.ppe.state ≠ .calibrating) State.calibrate ∧
    AnswersLater (.ppeCalibrate r) s (fun s => s.ppeLit = true ∧ s.ppe.state = .calibrating) id

/-- The commands of temperature, power and time (R481 to R483, R488, R491, R492, R495, R496). -/
def Obligations.ThermalPowerTimeCommands : Prop :=
  ∀ (s : State) (r : ZcpReq),
    (∀ tgt ks, statusRegions tgt = some ks → Answers (.thermalStatus r tgt) s (fun _ => True) id (fun s => s.thermalReply ks)) ∧
    Answers (.powerStatus r) s (fun _ => True) id State.powerReply ∧
    (∀ cap, Answers (.powerCapSet r cap none) s (fun _ => 1500 ≤ cap ∧ cap ≤ 3600)
      (fun s => { s with power := { s.power with cap := cap } }) (fun _ => [leBytes 2 cap])) ∧
    (∀ cap v, (∀ k : Fin 6, v[k].toNat ≤ 25) → Answers (.powerCapSet r cap (some v)) s (fun _ => 1500 ≤ cap ∧ cap ≤ 3600)
      (fun s => { s with power := { s.power with cap := cap, setpoint := v } }) (fun _ => [leBytes 2 cap])) ∧
    Answers (.timeRead r) s (fun _ => True) id (fun s =>
      [leBytes 8 s.time.global.toNat, timeSourceBytes s.time.source, leBytes 1 (timeStateCode s.time.state),
        leBytes 1 s.time.stratum.toNat, leBytes 8 (BitVec.ofInt 64 s.time.theta).toNat, leBytes 8 (s.clock - s.time.lastExchange)]) ∧
    Answers (.timeConfig r .freeRunning none) s (fun _ => True)
      (fun s => s.modTime fun t => { t with
        source := .freeRunning, state := .sync, stratum := 0, everSync := true, upstream := none, pending := none
        good := 0, miss := 0, slew := 0 }) (fun _ => [timeSourceBytes .freeRunning]) ∧
    (∀ v, Answers (.timeConfig r .freeRunning (some v)) s (fun s => s.periodJobs = false)
      (fun s => (s.modTime fun t => { t with
        source := .freeRunning, state := .sync, stratum := 0, everSync := true, upstream := none, pending := none
        good := 0, miss := 0, slew := 0, global := v }).bump .timeSteps) (fun _ => [timeSourceBytes .freeRunning])) ∧
    (∀ src x, src ≠ .freeRunning → s.badSource src = none → Answers (.timeConfig r src x) s (fun s => src ≠ s.time.source)
      (fun s => (s.modTime fun t => { t with source := src, upstream := none, pending := none, slew := 0 }).leaveSync)
      (fun _ => [timeSourceBytes src])) ∧
    (∀ src x, src ≠ .freeRunning → s.badSource src = none → Answers (.timeConfig r src x) s (fun s => src = s.time.source) id
      (fun _ => [timeSourceBytes src]))

/-- The commands of freezes, dumps, triggers, counters and snapshots (R503 to R506, R514, R518 to R520, R522 to R524). -/
def Obligations.DebugCommands : Prop :=
  ∀ (s : State) (r : ZcpReq),
    (∀ tag, Answers (.freeze r tag) s (fun _ => True) (fun s => s.freeze .command tag)
      (fun s => [leBytes 8 (s.freeze .command tag).dbg.freezeT.toNat])) ∧
    (∀ at_, Answers (.thaw r at_) s (fun s => s.dbg.frozen = false) (fun s => s.bump .dbgThawNotFrozen) (fun _ => [])) ∧
    (∀ at_, AnswersLater (.thaw r at_) s
      (fun s => s.dbg.frozen = true ∧ ∀ t, at_ = some t → s.now.toNat ≤ t.toNat ∧ t.toNat ≤ s.now.toNat + 160000000000)
      (fun s => { s with dbg := { s.dbg with thaws := s.dbg.thaws ++ [(r.src, r.seq, at_)] } }) State.releaseTest) ∧
    (∀ c (k : Fin 8), triggerBad c = none → c.cmp < 3 → c.index = some k.val → Answers (.freezeTrigger r c) s (fun _ => True)
      (fun s =>
        let x : Trigger := ⟨c.counter, Config.counterOfId c.counter, c.cmp, c.value, c.snapshot,
          s.ctrNow c.counter (Config.counterOfId c.counter)⟩
        { s with fresh := s.fresh + 1, dbg := { s.dbg with triggers := s.dbg.triggers.set k (some x) } })
      (fun _ => [])) ∧
    (∀ c (k : Fin 8), triggerBad c = none → c.cmp = 3 → c.index = some k.val → Answers (.freezeTrigger r c) s (fun _ => True)
      (fun s => { s with fresh := s.fresh + 1, dbg := { s.dbg with triggers := s.dbg.triggers.set k none } }) (fun _ => [])) ∧
    (∀ c, c.propagate.getD 0 ≤ 15 → (c.faultMask.getD 0).toNat < 256 → Answers (.dumpConfig r c) s
      (fun s => s.rangeCheck c.base c.size = none ∧ c.size % 2 ^ 20 = 0 ∧ c.size ≤ 2 ^ 33 ∧ dumpNeeds c.accs c.sram ≤ c.size ∧
        c.base % 2 ^ 20 = 0)
      (fun s => { s with dbg := { s.dbg with
        dump := some (c.base, c.size, c.accs, c.sram), propagate := c.propagate.getD s.dbg.propagate
        faultMask := c.faultMask.getD s.dbg.faultMask, accept := c.accept.getD s.dbg.accept } }) (fun _ => [])) ∧
    (∀ offset len base size a b, 1 ≤ len → len ≤ 32768 → offset + len ≤ size → Answers (.dumpRead r offset len) s
      (fun s => s.dbg.dump = some (base, size, a, b) ∧ (s.dbg.frozen = false ∨ s.scanOver = true) ∧
        (s.checkRead (base + offset) len).2 = none) (fun s => (s.checkRead (base + offset) len).1)
      (fun s => [(s.checkRead (base + offset) len).1.readPhys (base + offset) len])) ∧
    (∀ offset len base size a b, 1 ≤ len → len ≤ 32768 → offset + len ≤ size → AnswersLater (.dumpRead r offset len) s
      (fun s => s.dbg.dump = some (base, size, a, b) ∧ s.dbg.frozen = true ∧ s.scanOver = false)
      (fun s => { s with dbg := { s.dbg with dumpReads := s.dbg.dumpReads ++ [(r.src, r.seq, offset, len)] } })) ∧
    (∀ first count, idsRefuse first count 1024 = none → Answers (.counterCatalogue r first count) s (fun _ => True) id
      (fun _ => [(idsFrom first count).flatMap catalogueRecord])) ∧
    (∀ first count, idsRefuse first count 4096 = none → Answers (.counterRead r first count) s (fun _ => True)
      (fun s => { s with fresh := s.fresh + 1 })
      (fun s => [(idsFrom first count).flatMap fun id => leBytes 8 (s.ctrNow id (Config.counterOfId id)).toNat])) ∧
    Answers (.counterSnapshot r) s (fun _ => True) State.takeSnapshot
      (fun s => [leBytes 4 s.dbg.nextSnapshot.toNat, leBytes 8 s.now.toNat]) ∧
    (∀ first count x, idsRefuse first count 4096 = none → Answers (.snapshotRead r first count) s
      (fun s => s.dbg.snapshot = some x) (fun s => { s with fresh := s.fresh + 1 + Config.numCounters })
      (fun s => [leBytes 4 x.number.toNat, (idsFrom first count).flatMap fun id => leBytes 8 (s.ctrSnap id).toNat]))

/-- Attestation, measurements, firmware and restart (R462, R466, R469 to R472, R474 to R477). -/
def Obligations.SecurityCommands : Prop :=
  ∀ (s : State) (r : ZcpReq),
    (∀ nonce ids, nonce.length = 32 → ids.length ≤ 256 → (∀ k ∈ ids, k < Config.numCounters) → Answers (.attest r nonce ids) s
      (fun _ => True) (fun s => s.bump .secAttests)
      (fun s => [s.report nonce ids ++ Config.sign (ascii "XA-4024 ATTEST") (s.report nonce ids)])) ∧
    Answers (.certRead r) s (fun _ => True) id (fun _ => [Config.certificate]) ∧
    Answers (.measureRead r) s (fun _ => True) id
      (fun s => [s.sec.rom ++ s.sec.firmware ++ s.sec.config ++ s.sec.plan, leBytes 8 s.sec.configCount]) ∧
    Answers (.fwStatus r) s (fun _ => True) id (fun s =>
      [s.flash.bankBytes false ++ s.flash.bankBytes true, leBytes 1 (if s.flash.sel then 1 else 0),
        leBytes 1 (if s.boot.running then 1 else 0), leBytes 1 s.flash.rollback]) ∧
    (∀ offset data, Answers (.fwWrite r offset data) s
      (fun s => (offset = 0 ∨ offset = (s.flash.bank (!s.boot.running)).ptr ∧ (s.flash.bank (!s.boot.running)).manufactured = false) ∧
        data ≠ [] ∧ data.length ≤ 32768 ∧ offset + data.length ≤ 117440512)
      (fun s =>
        let b := s.flash.bank (!s.boot.running)
        (({ s with flash := s.flash.setBank (!s.boot.running) {
          manufactured := false, ptr := offset + data.length, state := .written
          cells := (if offset = 0 then [] else b.cells) ++
            data.zipIdx.filterMap fun (x, i) => if x = 0xFF then none else some (offset + i, x) } } : State).bump .fwWrites).bump
          .fwBytes 0 0 data.length) (fun _ => [])) ∧
    (∀ u s₀ w, zcpRow (.fwVerify r) = some u → u.Runs s s₀ w →
      exec (.fwVerify r) s = .next (match s₀.flash.verify (!s₀.boot.running) with
        | none => (s₀.markBank .verified).reply w true .success []
        | some .fwRollback => ((s₀.markBank .rollback).bump .fwVerifyFailed).reply w true .fwRollback []
        | some e => ((s₀.markBank .invalid).bump .fwVerifyFailed).reply w true e [])) ∧
    Answers (.fwActivate r) s (fun s => (s.flash.bank (!s.boot.running)).state = .verified ∧ s.flash.sel = !s.boot.running) id
      (fun _ => []) ∧
    Answers (.fwActivate r) s (fun s => (s.flash.bank (!s.boot.running)).state = .verified ∧ s.flash.sel = s.boot.running)
      (fun s => { s with flash := ({ s.flash with sel := !s.boot.running } : Flash).setAttempts (!s.boot.running) 0 }) (fun _ => []) ∧
    (∀ u s₀ w, zcpRow (.moduleRestart r) = some u → u.Runs s s₀ w → s.boot.restart = false →
      exec (.moduleRestart r) s =
        .next (let t := ({ s₀ with boot := { s₀.boot with restart := true } } : State).reply w true .success []
               t.resetLogic.bootUp t.retest))

/-- Jumps, calls and loops (R152, R167 to R169): the program counter, the return stack and the loops that each leaves. -/
def Obligations.JumpsCallsAndLoops : Prop :=
  ∀ (s : State) (t : TileIx) (w : MoveWord) (j : Job), Executes s t w j →
    let x := (s.tile t).decoding
    let d := s.decoded t
    (∀ p, Hdr.op w = 0x01 → onlyUses w [(48, 48), (47, 43), (42, 32)] = true → jumpTarget w x = .ok p →
      exec (.jump t w) s = .next (d.completes t w j.id { x with pc := p, loops := (backEdge x.pc (keepLoops p x.loops)).1 })) ∧
    (∀ p : Nat, Hdr.op w = 0x02 → onlyUses w [(42, 32)] = true → (x.pc : Int) + signed 11 (fld w 42 32) = p → p < x.len →
      exec (.branch t w) s = .next (d.completes t w j.id { x with pc := p, loops := (backEdge x.pc (keepLoops p x.loops)).1 })) ∧
    (∀ p, Hdr.op w = 0x04 → onlyUses w [(48, 48), (47, 43), (42, 32)] = true → jumpTarget w x = .ok p → x.rets.length < 8 →
      exec (.call t w) s = .next (d.completes t w j.id { x with
        pc := p, rets := (x.pc + 1) :: x.rets, loops := (backEdge x.pc x.loops).1 })) ∧
    (∀ p rs, Hdr.op w = 0x05 → onlyUses w [] = true → x.rets = p :: rs → p < x.len →
      exec (.return_ t w) s = .next (d.completes t w j.id { x with
        pc := p, rets := rs, loops := (backEdge x.pc (x.loops.filter fun l => l.depth < rs.length + 1)).1 })) ∧
    (∀ c, Hdr.op w = 0x03 → onlyUses w [(95, 64), (48, 48), (47, 43), (42, 32)] = true → x.pc < fld w 42 32 → fld w 42 32 < x.len →
        x.loops.length < 4 → c = (if bit w 48 then (x.reg (fld w 47 43)).toNat else fld w 95 64) →
      (0 < c → c < 2 ^ 32 → exec (.loop t w) s = .next (d.completes t w j.id { x with
        pc := x.pc + 1, loops := (backEdge x.pc (⟨x.pc, fld w 42 32, c, x.rets.length⟩ :: x.loops)).1 })) ∧
      (c = 0 → fld w 42 32 + 1 < x.len → exec (.loop t w) s = .next (d.setTile t { x with
        pc := fld w 42 32 + 1, loops := (backEdge x.pc x.loops).1 })))

/-- HALT, the waits, YIELD and FENCE (R147, R152, R170, R171, R173, R286). -/
def Obligations.HaltsAndWaits : Prop :=
  ∀ (s : State) (t : TileIx) (w : MoveWord) (j : Job), Executes s t w j →
    let x := (s.tile t).decoding
    let d := s.decoded t
    (Hdr.op w = 0x06 → onlyUses w [(145, 145), (144, 139), (138, 138), (137, 132), (131, 120)] = true →
        (bit w 138 = true → jobHas j.p (fld w 131 120) = true) →
      exec (.halt t w) s = .next
        (let u := d.setTile t { x with seq := if bit w 145 then .parked else .halted, wtal := fld w 144 139 }
         let u := (if bit w 138 then u.arrive j.id (fld w 131 120) (fld w 137 132) 1 else u).passOver t
         afterDecode (.halt t w) t (if Hdr.dten w then u.arrive j.id t (Hdr.dtal w) 1 else u))) ∧
    (∀ c, Hdr.op w = 0x07 →
        onlyUses w [(119, 96), (95, 64), (58, 56), (55, 55), (54, 49), (48, 48), (47, 43)] = true →
        c = (if bit w 48 then (x.reg (fld w 47 43)).toNat else fld w 95 64) →
      (0 < c → c < 2 ^ 32 → exec (.waitTally t w) s = .next ((d.setTile t { x with
        seq := .waiting, waitTal := dtalOf w
        wait := .tally (fld w 54 49) c (bit w 55) (fld w 58 56)
          (if fld w 119 96 = 0 then none else some (s.time.work + fld w 119 96 * 64)) }).passOver t)) ∧
      (c = 0 → x.goesOn → exec (.waitTally t w) s = .next (d.passOver t))) ∧
    (Hdr.op w = 0x08 → onlyUses w [(71, 64), (59, 59)] = true → j.p.periodic = true →
      exec (.waitEpoch t w) s = .next (afterDecode (.waitEpoch t w) t ((d.setTile t { x with
        seq := .waiting, waitTal := dtalOf w, wait := .epoch (bit w 59) (fld w 71 64) j.periodNo }).passOver t))) ∧
    (Hdr.op w = 0x09 → onlyUses w [] = true → x.goesOn →
      exec (.yield_ t w) s = .next (d.completes t w j.id (x.advance none))) ∧
    (Hdr.op w = 0x45 → clear w [(255, 32)] = true →
      exec (.fence t w) s = .next ((d.setTile t { x with seq := .waiting, waitTal := dtalOf w, wait := .fence }).passOver t))

/-- YIELD with a pre-emption request pending (R173): decode stops there, to go on after it when the job resumes, and its DTEN
tally counts then. -/
def Obligations.YieldStopsForPreemption : Prop :=
  ∀ (s : State) (t : TileIx) (w : MoveWord) (j : Job), s.holder t = some j → j.preempt ≠ none → s.decodes t true = some j →
    s.moveAt t = w → s.sramPoison t (s.tile t).fetchAddr 32 = none → (s.tile t).full = false → Hdr.op w = 0x09 →
    ((s.tile t).pred (Hdr.psel w) == Hdr.pneg w) = false → (s.tile t).mustHold w = false → clear w Hdr.resv = true →
    onlyUses w [] = true →
    let u := ((s.decoded t).setTile t { (s.tile t).decoding with wait := .yield_, waitTal := dtalOf w }).passOver t
    exec (.yield_ t w) s = .next u ∧ ∀ y, u.decodes t y = none

/-- The scalar moves (R132, R145, R148, R151, R153): the register, predicate, tally or bytes that each writes. -/
def Obligations.ScalarMoves : Prop :=
  ∀ (s : State) (t : TileIx) (w : MoveWord) (j : Job), Executes s t w j → (s.tile t).goesOn → clear w scalarResv = true →
    let x := (s.tile t).decoding
    let d := s.decoded t
    let writes (i : Instr) (v : BitVec 64) : Prop :=
      exec i s = .next (d.completes t w j.id ((x.setReg (fld w 36 32) v).advance none))
    (∀ v, Hdr.op w = 0x10 → fld w 55 48 ≠ 0x0D → fld w 55 48 ≠ 0x0E →
      saluFn (fld w 55 48) (x.reg (fld w 41 37)) (operand2 w x) = some v → writes (.salu t w) v) ∧
    (Hdr.op w = 0x10 → fld w 55 48 = 0x0D → exec (.tset t w) s = .next
      (let u := ((d.setTally t (fld w 70 65) ((operand2 w x).toNat % 2 ^ 32)).bump .tileTallySets (t / 512)).passOver t
       if Hdr.dten w then u.arrive j.id t (Hdr.dtal w) 1 else u)) ∧
    (Hdr.op w = 0x10 → fld w 55 48 = 0x0E → exec (.tadd t w) s = .next
      (let u := (d.addTally t (fld w 70 65) ((operand2 w x).toNat % 2 ^ 32)).passOver t
       if Hdr.dten w then u.arrive j.id t (Hdr.dtal w) 1 else u)) ∧
    (∀ b, Hdr.op w = 0x11 →
        scmpFn (fld w 55 48) (x.reg (fld w 41 37)) (operand2 w x) (x.pred (fld w 61 59)) (x.pred (fld w 64 62)) = some b →
      exec (.scmp t w) s = .next (d.completes t w j.id ((x.setPred (fld w 58 56) b).advance none))) ∧
    (Hdr.op w = 0x12 → writes (.sldi t w) (BitVec.ofNat 64 (fld w 159 96))) ∧
    (∀ a n, Hdr.op w = 0x13 → scalarAddr w x = .ok (a, n) → s.sramPoison t a n = none →
      writes (.sld t w) (if bit w 73 then BitVec.ofInt 64 (signed (8 * n) (leNat (s.sram t a n))) else BitVec.ofNat 64 (leNat (s.sram t a n)))) ∧
    (∀ a n, Hdr.op w = 0x14 → scalarAddr w x = .ok (a, n) → exec (.sst t w) s = .next
      (let u := (d.writeSram (sramBase t + a) (leBytes n (x.reg (fld w 41 37)).toNat) false).passOver t
       if Hdr.dten w then u.arrive j.id t (Hdr.dtal w) 1 else u)) ∧
    (∀ v, Hdr.op w = 0x15 → sreadFn d t j x w = some v → writes (.sread t w) v)

/-- What PERIOD_MARK, TRACE and BREAK do (R165, R166, R252, R259, R503). -/
def Obligations.MarksTracesAndBreaks : Prop :=
  ∀ (s : State) (t : TileIx) (w : MoveWord) (j : Job), Executes s t w j → (s.tile t).goesOn →
    let x := (s.tile t).decoding
    let d := s.decoded t
    let ends (u : State) : State := (u.passOver t).fetchCheck t
    let completed (u : State) : State := if Hdr.dten w then ((u.passOver t).arrive j.id t (Hdr.dtal w) 1).fetchCheck t else ends u
    (Hdr.op w = 0x60 → clear w [(255, 95)] = true → j.p.periodic = true →
      (fld w 33 32 = 0 → exec (.periodMark t w) s =
        .next (completed (d.modPeriod j.id fun p => { p with
          milestoneT := s.now, milestone := fld w 41 34, milestoneSteps := d.stepCount t }))) ∧
      (∀ u, fld w 33 32 = 1 → (jobRef w 42).addr x.regs % 8 = 0 → (jobRef w 42).addr x.regs < 2 ^ 48 →
          d.writeJob (unitOfTile t) j ((jobRef w 42).addr x.regs) (leBytes 8 (d.epoch j).toNat) false true = (u, none) →
        exec (.periodMark t w) s = .next (completed (u.modPeriod j.id fun p => { p with
          outputsT := some (p.outputsT.getD u.now), outputsSteps := if p.outputsT.isSome then p.outputsSteps else u.stepCount t }))) ∧
      (fld w 33 32 = 2 → exec (.periodMark t w) s = .next (completed ((d.setTile t { x with marked := true }).noteWork t)))) ∧
    (Hdr.op w = 0x70 → clear w [(255, 53)] = true →
      (j.p.traceLen = 0 → exec (.trace t w) s = .next (completed (d.bump .tileSeqTraceDropped (t.val / 512)))) ∧
      (∀ u v, j.p.traceLen ≠ 0 →
          d.writeJob (unitOfTile t) j (j.p.traceBase.toNat + 64 + 32 * (j.traceCount % ((j.p.traceLen - 64) / 32)))
            (leBytes 2 (fld w 47 32) ++ leBytes 2 t.val ++ leBytes 2 x.pc ++ [0, 0] ++ leBytes 8 (x.reg (fld w 52 48)).toNat ++
              leBytes 8 s.now.toNat ++ leBytes 8 (d.stepCount t)) false true = (u, none) →
          u.writeJob (unitOfTile t) j j.p.traceBase.toNat (leBytes 8 (j.traceCount + 1)) false true = (v, none) →
        exec (.trace t w) s = .next (completed (v.modJob j.id fun b => { b with traceCount := b.traceCount + 1 })))) ∧
    (Hdr.op w = 0x71 → clear w [(255, 48)] = true →
      (j.breaks = true → exec (.break_ t w) s =
        .next (completed (d.freeze .break_ (BitVec.ofNat 32 (fld w 47 32 + t.val * 2 ^ 16))))) ∧
      (j.breaks = false → exec (.break_ t w) s = .next (completed (d.bump .tileSeqBreakIgnored (t.val / 512)))))

/-- The moves of the array at decode (R44, R62 to R64, R108, R114, R133, R135, R139, R154 to R158): a move that its checks let
pass is queued with what it captured, or is a no-op of a count of 0; the conversion index advances at decode, and the pass
index for a no-op pass. -/
def Obligations.ArrayMoves : Prop :=
  ∀ (s : State) (t : TileIx) (w : MoveWord) (j : Job), Executes s t w j → (s.tile t).goesOn →
    let x := (s.tile t).decoding
    let d := s.decoded t
    let issues (c : Instr) (noop : Bool) (u : State) : Prop :=
      exec c s = .next (afterDecode c t ((if noop then u else u.enqueue t w j x).passOver t))
    (Hdr.op w = 0x20 → loadChecks t w x = none →
      issues (.loadStationary t w) (fld w 47 41 == 0 || fld w 54 48 == 0) d) ∧
    (Hdr.op w = 0x21 → passChecks t w x = none →
      exec (.pass t w) s = .next ((if fld w 113 97 = 0 ∨ fld w 96 84 = 0 then d.setTile t { x with passIx := x.passIx + 1 }
        else d.enqueuePass t w j x).passOver t)) ∧
    (Hdr.op w = 0x22 → d.splitChecks t w x = none →
      let desc := s.sram t ((sramRef w 55).addr x.regs) 128
      exec (.passSplit t w) s = .next ((d.enqueuePass t w j x fun m =>
        { m with desc := desc, quads := (List.range 4).map fun q => if quadIdle desc q then 2 else 3 }).passOver t)) ∧
    (Hdr.op w = 0x23 → d.drainChecks t w x = none →
      issues (.drain t w) (fld w 56 44 == 0 || fld w 58 57 == 0)
        (if d.drainConverts t x w ((Fmt.ofCode (fld w 62 59)).getD .fp32) then d.setTile t { x with convIx := x.convIx + 1 } else d)) ∧
    (Hdr.op w = 0x24 → onlyUses w [(58, 57), (56, 44), (43, 32)] = true → accRange w (x.pairView t) = true →
      issues (.clear t w) (fld w 56 44 == 0 || fld w 58 57 == 0) d) ∧
    (Hdr.op w = 0x25 → d.castleChecks t w j x = none → issues (.castle t w) false d) ∧
    (Hdr.op w = 0x26 → clear w [(255, 32)] = true → issues (.uncastle t w) (x.pairView t).isNone d)

/-- The moves of the MV unit, the vector unit and the copy engine at decode (R73, R133, R135, R139, R159 to R161). A copy
to AX96 captures a free anchor (the model's choice, log 2). -/
def Obligations.VectorAndCopyMoves : Prop :=
  ∀ (s : State) (t : TileIx) (w : MoveWord) (j : Job), Executes s t w j → (s.tile t).goesOn →
    let x := (s.tile t).decoding
    let d := s.decoded t
    let issues (c : Instr) (noop : Bool) (u : State) : Prop :=
      exec c s = .next (afterDecode c t ((if noop then u else u.enqueue t w j x).passOver t))
    let converts (b : Bool) : State := if b then d.setTile t { x with convIx := x.convIx + 1 } else d
    (Hdr.op w = 0x30 → mvChecks w x = none →
      issues (.mvPass t w) (fld w 35 32 == 0 || fld w 50 36 == 0 || fld w 64 51 == 0) d) ∧
    (Hdr.op w = 0x38 → vopChecks w (vopSpec w x.regs) = none →
      issues (.vop t w) ((vopSpec w x.regs).count == 0) (converts (vopSpec w x.regs).converts)) ∧
    (Hdr.op w = 0x39 → reduceChecks w x = none → issues (.reduce t w) (fld w 50 38 == 0) d) ∧
    (Hdr.op w = 0x40 → copyChecks w (copySpec w x.regs) j.p = none →
      let c := copySpec w x.regs
      let u := converts c.converts
      ((c.converts && c.df == .ax96) = false ∨ c.len = 0 → issues (.copy t w) (c.len == 0) u) ∧
      (∀ v : BitVec 64, v = u.free.1 → (c.converts && c.df == .ax96) = true → c.len ≠ 0 →
        exec (.copy t w) s = .next
          ((u.free.2.enqueue t w j x fun m => { m with desc := leBytes 2 (v.toNat % 65535) }).passOver t)))

/-- The moves of the fabric, of the photonic projection engine and of the collective engine at decode (R135, R139, R162,
R163, R182, R272, R274, R385, R387). -/
def Obligations.FabricProjectAndCollectiveMoves : Prop :=
  ∀ (s : State) (t : TileIx) (w : MoveWord) (j : Job), Executes s t w j → (s.tile t).goesOn →
    let x := (s.tile t).decoding
    let d := s.decoded t
    let c := fabSpec w x.regs
    let issues (c : Instr) (noop : Bool) (u : State) : Prop :=
      exec c s = .next (afterDecode c t ((if noop then d else u).passOver t))
    (d.fabChecks w c j = none →
      (Hdr.op w = 0x41 → issues (.put t w) (c.len == 0) (d.enqueue t w j x)) ∧
      (Hdr.op w = 0x42 → issues (.get t w) (c.len == 0) (d.enqueue t w j x)) ∧
      (Hdr.op w = 0x43 → issues (.atomic t w) false (d.enqueue t w j x)) ∧
      (Hdr.op w = 0x44 → issues (.signal t w) (c.len == 0) (d.enqueue t w j x))) ∧
    (Hdr.op w = 0x50 → d.projectChecks w (projectSpec w x.regs) j = none →
      issues (.project t w) ((projectSpec w x.regs).nvec == 0) ((d.enqueue t w j x).kickPpe t)) ∧
    (Hdr.op w = 0x58 →
      let i := issueOf w t x.nextId (d.epoch j)
      let gid := BitVec.ofNat 16 (fld w 47 32)
      let q := BitVec.ofNat 32 (fld w 127 96)
      let e := (d.enqueue t w j x).bump .collIssued
      d.collChecks w i j = none →
        (i.count = 0 → exec (.collIssue t w) s = .next (((d.bump .collIssued).passOver t).kickColl t)) ∧
        (∀ y, i.count ≠ 0 → e.ctx gid q = some y →
          exec (.collIssue t w) s = .next (((e.modCtx gid q fun y => { y with issue := some i }).passOver t).kickColl t)) ∧
        (∀ free : Bool, i.count ≠ 0 → e.ctx gid q = none →
            free = ((e.group gid).map fun g => decide (e.framesUsed gid < recField g.record 56 2)).getD false →
          exec (.collIssue t w) s = .next (((e.modColl fun k => { k with
            ctxs := k.ctxs ++ [{ group := gid, seq := q, job := j.id, reserve := false, issue := some i, start := e.time.work
                                 last := e.time.work, frame := free }] }).passOver t).kickColl t)))

/-- A move whose predicate is false (R142) is skipped: only its opcode is checked, it executes nothing and reads no register,
it is counted as decoded, and the program goes on past it; of its unit only what was waiting goes on. A reserved opcode is
refused with RESERVED_VALUE whatever its predicate. -/
def Obligations.SkippedMoves : Prop :=
  (∀ (c : Instr) (s : State) (t : TileIx) (op : Nat) (w : MoveWord) (j : Job), moveTile c = some t → c.opcode = some (op, w) →
    c.wellFormed = true → Fetches s t w j → ((s.tile t).pred (Hdr.psel w) == Hdr.pneg w) = true → (s.tile t).goesOn →
    exec c s = .next (afterDecode c t ((s.decoded t).passOver t))) ∧
  (∀ (s : State) (t : TileIx) (w : MoveWord) (j : Job), Fetches s t w j →
    ((s.tile t).pred (Hdr.psel w) == Hdr.pneg w) = true → unitOf (Hdr.op w) = none →
    exec (.moveReservedOpcode t w) s = .next ((s.decoded t).stopTile t (refusal .reservedValue)))

/-- A move that must wait is not decoded (R134 to R136, R170, R235): the sequencer waits with a dependency hold where a register
or a unit that the move names is not ready, and stays RUNNING where 256 moves wait to start, where a HALT has earlier moves to
wait for, or a PASS_SPLIT a descriptor buffer (the model's choice, log 18). A move whose predicate is false waits only for the
256. -/
def Obligations.HeldMoves : Prop :=
  ∀ (c : Instr) (s : State) (t : TileIx) (op : Nat) (w : MoveWord) (j : Job), moveTile c = some t → c.opcode = some (op, w) →
    c.wellFormed = true → s.decodes t = some j → s.moveAt t = w → s.sramPoison t (s.tile t).fetchAddr 32 = none →
    ((s.tile t).full = true → exec c s = .next (afterDecode c t (s.setTile t (s.tile t).decoding))) ∧
    ((s.tile t).full = false → ((s.tile t).pred (Hdr.psel w) == Hdr.pneg w) = false →
      ((s.tile t).mustHold w = true →
        exec c s = .next (afterDecode c t (s.setTile t { s.tile t with seq := .waiting, wait := .dep }))) ∧
      ((s.tile t).mustHold w = false → (s.tile t).mustStay w = true →
        exec c s = .next (afterDecode c t (s.setTile t (s.tile t).decoding))))

/-- A move with a reserved bit of its header set, or with a reserved opcode, stops the program with RESERVED_VALUE; the
opcode stops it whatever its predicate (R140, R142, R143, R150). A poisoned move stops it with POISON (the model's
choice, log 12). -/
def Obligations.RefusedMoves : Prop :=
  (∀ (c : Instr) (s : State) (t : TileIx) (op : Nat) (w : MoveWord) (j : Job), moveTile c = some t → c.opcode = some (op, w) →
    c.wellFormed = true → Fetches s t w j → ((s.tile t).pred (Hdr.psel w) == Hdr.pneg w) = false → (s.tile t).mustHold w = false →
    (s.tile t).mustStay w = false → clear w Hdr.resv = false →
    exec c s = .next (afterDecode c t (((s.decoded t).countRefusal t op).stopTile t (refusal .reservedValue)))) ∧
  (∀ (c : Instr) (s : State) (t : TileIx) (op p : Nat) (w : MoveWord) (j : Job), moveTile c = some t → c.opcode = some (op, w) →
    c.wellFormed = true → s.decodes t = some j → s.moveAt t = w → s.sramPoison t (s.tile t).fetchAddr 32 = some p →
    exec c s = .next (afterDecode c t (s.stopTile t (refusal .poison p)))) ∧
  ∀ (s : State) (t : TileIx) (w : MoveWord) (j : Job), Fetches s t w j → unitOf (Hdr.op w) = none →
    (((s.tile t).pred (Hdr.psel w) == Hdr.pneg w) = true ∨ (s.tile t).mustHold w = false) →
    exec (.moveReservedOpcode t w) s = .next ((s.decoded t).stopTile t (refusal .reservedValue))

/-- What SALU, SLDI, SLD, SREAD and SCMP leave unchanged (R132, R153): of the block everything but the tile and the counter
of moves; every other tile; of the tile everything but the register or predicate named, the program counter and the loops.
s0 and p0 keep their constants. -/
def Obligations.RegisterMovesFrame : Prop :=
  ∀ (s s' : State) (t : TileIx) (w : MoveWord) (j : Job), Executes s t w j → (s.tile t).goesOn → clear w scalarResv = true →
    Hdr.dten w = false →
    let x := (s.tile t).decoding
    let y := s'.tile t
    let others : Prop := { s' with tiles := s.tiles, counters := s.counters } = s ∧ ∀ u, u ≠ t.val → s'.tile u = s.tile u
    (∀ c v,
      (c = .salu t w ∧ Hdr.op w = 0x10 ∧ saluFn (fld w 55 48) (x.reg (fld w 41 37)) (operand2 w x) = some v) ∨
      (c = .sldi t w ∧ Hdr.op w = 0x12 ∧ v = BitVec.ofNat 64 (fld w 159 96)) ∨
      (∃ a n, c = .sld t w ∧ Hdr.op w = 0x13 ∧ scalarAddr w x = .ok (a, n) ∧ s.sramPoison t a n = none ∧
        v = (if bit w 73 then BitVec.ofInt 64 (signed (8 * n) (leNat (s.sram t a n))) else BitVec.ofNat 64 (leNat (s.sram t a n)))) ∨
      (c = .sread t w ∧ Hdr.op w = 0x15 ∧ sreadFn (s.decoded t) t j x w = some v) →
      exec c s = .next s' →
      others ∧ (∀ r, y.reg r = if r = fld w 36 32 ∧ r ≠ 0 then v else (s.tile t).reg r) ∧
        { y with regs := x.regs, pc := x.pc, loops := x.loops } = x) ∧
    (∀ b, Hdr.op w = 0x11 →
      scmpFn (fld w 55 48) (x.reg (fld w 41 37)) (operand2 w x) (x.pred (fld w 61 59)) (x.pred (fld w 64 62)) = some b →
      exec (.scmp t w) s = .next s' →
      others ∧ (∀ r, y.pred r = if r = fld w 58 56 ∧ r ≠ 0 then b else (s.tile t).pred r) ∧
        { y with preds := x.preds, pc := x.pc, loops := x.loops } = x)

/-- What the moves of the sequencer leave of memory, whether they complete, hold, are skipped or stop the program (R153): all
of it but the bytes that SST names. A stop whose fault record freezes the module is left out: a freeze writes the combining
buffers back (R507). -/
def Obligations.SequencerMovesMemoryFrame : Prop :=
  ∀ (c : Instr) (s s' : State) (t : TileIx) (op : Nat) (w : MoveWord), moveTile c = some t → c.opcode = some (op, w) →
    exec c s = .next s' → s'.dbg.frozen = s.dbg.frozen →
    (op ∈ [0x01, 0x02, 0x03, 0x04, 0x05, 0x07, 0x09, 0x10, 0x11, 0x12, 0x13, 0x15, 0x45] →
      s'.mem = s.mem ∧ s'.poison = s.poison ∧ s'.poisonWords = s.poisonWords) ∧
    (op = 0x14 → ∀ a, (∀ b n, scalarAddr w (s.tile t).decoding = .ok (b, n) → a < sramBase t + b ∨ sramBase t + b + n ≤ a) →
      Memory.read s'.mem a = Memory.read s.mem a)

/-- The events of the arrays (R44, R46, R58 to R60, R106, R107, R114, R115, R118, R122, R156, R549). -/
def Obligations.ArrayEvents : Prop :=
  ∀ (s : State) (t : TileIx), let x := s.tile t
    (∀ m, x.front .array = some m → Hdr.op m.w = 0x20 →
        (m.state = .started ∧ s.tileRuns t = true ∧ s.unitJob t ≠ none ∨ m.state = .queued ∧ s.mayStart t = true) →
      exec (.loadStallEnd t) s = .next (s.endLoad t m) ∧
      (let shape := fld m.w 34 32
       let f := (Fmt.ofCode (fld m.w 38 35)).getD .e4m3
       let (kk, nn) := (shapeK shape false, shapeN shape false)
       let (kv, nv, blk) := (fld m.w 47 41, fld m.w 54 48, fld m.w 40 39)
       let (src, scl) := ((sramRef m.w 80).addr m.regs, (sramRef m.w 105).addr m.regs)
       x.pair = none → x.queue = [m] →
       s.loadPoison t src (if fld m.w 79 64 = 0 then f.bytes nn else fld m.w 79 64) scl f blk kk kv nv = none →
       Gives (.loadStallEnd t) s fun u => (u.tile t).queue = [{ m with state := .done }] ∧
         (u.tile t).cells = x.cells.put shape (some (s.readLoad t src (fld m.w 79 64) scl f blk kk nn kv nv)))) ∧
    (s.tileRuns t = true → s.unitJob t ≠ none →
      (∀ r m p, x.runs = [r] → runSpec t x r = some (m, p) → p.ring.isSome = true → r.taken < p.granules.length →
        let kv := ((x.cells.load p.shape).map Load.kv).getD p.k
        let fill := ((x.tallies.toArray[fld m.w 61 56]?).getD 0).toNat
        exec (.passStart t) s = .next (s.takeGranule t r m p kv) ∧
        (fill ≠ 0 → s.poisonWords = [] → bit m.w 70 = false → Gives (.passStart t) s fun u =>
          (u.tile t).tallies = x.tallies.setIfInBounds (fld m.w 61 56) (BitVec.ofNat 32 (fill - 1)) ∧
          (u.tile t).runs = [{ r with
            taken := r.taken + 1
            ringBytes := r.ringBytes ++ s.sram t (p.src + p.granules.getD r.taken 0 * 256 % (p.ring.getD 4096)) 256 }])) ∧
      (∀ m, s.mayStart t = true → x.runs = [] → x.nextArray = some m →
          (x.queue.find? fun m => m.unit == .array && m.state == .queued) = some m →
        (Hdr.op m.w = 0x21 → exec (.passStart t) s = .next (s.startPass t m)) ∧
        (Hdr.op m.w = 0x22 → exec (.passStart t) s = .next ((s.startSplit t m).kickArray t)) ∧
        (∀ p l, Hdr.op m.w = 0x21 → m.attempts = [] → x.move m.id = some m → passSpec t x m = some p →
          x.cells.load p.shape = some l → l.fmt = p.fmtT → l.blk = p.blkT → s.startCheck p l.nv = none →
          Gives (.passStart t) s fun u =>
            (u.tile t).runs = [{ id := m.id, attempt := (s.startsAs p l.nv).2, escalated := (s.startsAs p l.nv).1 }] ∧
            (u.tile t).move m.id = some { m with state := .started, began := true } ∧
            (u.tile t).passIx = if m.began then x.passIx else x.passIx + 1) ∧
        (∀ p, Hdr.op m.w = 0x22 → m.attempts = [] → m.quads = [3, 2, 2, 2] → x.queue = [m] → splitSpec t m 0 = some p →
          let f := recFld m.desc 0
          s.startCheck p (f 13 7) = none →
          s.loadPoison t (f 115 96) (if f 31 16 = 0 then p.fmtT.bytes 16 else f 31 16) (f 135 116) p.fmtT p.blkT 16 (f 6 0) (f 13 7)
            = none →
          Gives (.passStart t) s fun u =>
            (u.tile t).runs = [{
              id := m.id, quad := some 0, attempt := (s.startsAs p (f 13 7)).2, escalated := (s.startsAs p (f 13 7)).1
              load := some (s.readLoad t (f 115 96) (f 31 16) (f 135 116) p.fmtT p.blkT 16 16 (f 6 0) (f 13 7)) }] ∧
            (u.tile t).queue = [{ m with state := .started, began := true }])) ∧
      (∀ q r e i, x.runOf q = some r → s.evalRun t r = some e → overflowRow e.out = some i → r.attempt < 3 →
          (∀ k a, s.streamPoison e.p e.l.kv = some (k, a) → i < k) →
        exec (.attemptOverflow t q) s = .next (s.overflowed t r e i) ∧
        (∀ j, s.unitJob t = some j → j.preempt = none → ∃ n, Gives (.attemptOverflow t q) s fun u => (u.tile t).runs =
          mapIf (fun y => y.id == r.id && y.quad == r.quad)
            (fun y => { y with attempt := y.attempt + 1, chained := false, seen := max y.seen n }) x.runs)) ∧
      (∀ r e q, s.evalRun t r = some e → s.mayCommit t r e = true →
        let target := commitKind e.p.mode r.attempt r.escalated
        let acc (v : Nat) := ((e.out.foldl (fun s o => s.commitHalf e.p target o) s).tile v).acc
        (x.runs.head? = some r → r.quad = none → exec (.passCommit t) s = .next (s.commitRun t r e) ∧
          (∀ m, x.runs = [r] → x.queue = [m] → m.id = r.id → Gives (.passCommit t) s fun u => (u.tile t).runs = [] ∧
            (u.tile t).queue = [{ m with state := .done }] ∧ ∀ v, (u.tile v).acc = acc v)) ∧
        ((x.runs.find? fun r => r.quad == some q) = some r → exec (.quadrantCommit t q) s = .next (s.commitRun t r e) ∧
          (∀ m, x.runs = [r] → x.queue = [m] → m.id = r.id → (m.quads.set q.val 0).all (· != 3) = true →
            Gives (.quadrantCommit t q) s fun u => (u.tile t).runs = [] ∧ (∀ v, (u.tile v).acc = acc v) ∧
              ∃ m', (u.tile t).queue = [m'] ∧ m'.quads = m.quads.set q.val 0 ∧ m'.state = .done))) ∧
      (∀ cause q rook r m p, x.hit t q rook = some (r, m, p) → cause = .stationaryParity ∨ cause = .accUncorrectable ∧ p.ovw = false →
        let aborted (u : State) : Prop := (u.tile t).runs = [] ∧ (u.tile t).queue = [{ m with state := .done }] ∧
          ∀ j h, j < p.len → h < p.n / 16 → ∀ a ∈ (p.place j h).2.1,
            Meta.poison (((u.tile (p.place j h).1).accRow a).meta (p.place j h).2.2) = true
        exec (.arrayFault t cause q rook) s =
          .next ((s.stopSomewhere t r p 1).faultRun t r m p (causeStatus cause) q.val rook) ∧
        exec (.handshakeTimeout t q rook) s =
          .next ((s.stopSomewhere t r p 4097).faultRun t r m p .handshakeTimeout q.val rook) ∧
        (x.runs = [r] → x.queue = [m] → m.id = r.id → r.quad = none →
          Gives (.arrayFault t cause q rook) s aborted ∧ Gives (.handshakeTimeout t q rook) s aborted)) ∧
      (∀ q rook r m p e i, x.hit t q rook = some (r, m, p) → s.evalRun t r = some e → e.p.mode = .ax → r.attempt = 3 →
          overflowRow e.out = some i →
        exec (.arrayFault t .ledgerOverflow q rook) s = .next (((s.bump .tileLedgerOverflowFaults (t / 512)).stopOnRow t r p i).faultRun t r m p
          .ledgerOverflow q.val rook)) ∧
      (∀ q m, x.runOf (some q) = none → m ∈ x.queue → Hdr.op m.w = 0x22 → m.state = .started →
        exec (.arrayFault t .stationaryParity q false) s = .next ((s.bump .tileQuadFaults (t / 512) q.val).fault
          { s.tileRec t 1 .stationaryParity with pc := 0, quad := q.val, flags := 1 })))

/-- The completion of moves, granules and walks, the end of waits and of a hold (R137, R146, R147, R170, R171, R219, R220,
R227). -/
def Obligations.MoveEvents : Prop :=
  ∀ (s : State) (t : TileIx), let x := s.tile t
    (∀ id m j, let u := s.kickAll t
      s.tileRuns t = true → (u.tile t).move id = some m → u.unitJob t = some j → m.state = .done →
      exec (.moveCompletion t id) s = .next (u.completeMove t m j) ∧
      ((u.tile t).finishing = false → lateValue m = none → Hdr.dten m.w = false → u.outstanding j.id t m.id = 0 →
        exec (.moveCompletion t id) s =
          .next ((u.modTile t fun x => { x with queue := x.queue.filter fun y => y.id != m.id }).kickAll t))) ∧
    (∀ id m j, s.mayStart t = true → x.move id = some m → s.unitJob t = some j → Hdr.op m.w = 0x40 → x.copyRuns m = true →
      (∀ errs, exec (.granuleWritten t id errs) s = .next ((s.upset errs).writeGranule t m j)) ∧
      (let c := copySpec m.w m.regs
       let n := min 256 (c.len - 256 * m.done)
       j.p.periodic = false → c.sf = c.df → c.sk = 0 → c.dk = 0 → c.wrap = 0 → c.aten = false →
       s.sramPoison t (c.src + 256 * m.done) n = none → Gives (.granuleWritten t id []) s fun u =>
         (u.tile t).move id = some { m with done := m.done + 1, state := if m.done + 1 ≥ c.granules then .done else .started } ∧
         u.mem = (s.writeSram (sramBase t + (c.dst + 256 * m.done)) (s.sram t (c.src + 256 * m.done) n) false).mem)) ∧
    (∀ u job (addr : BitVec 48) write mv j, s.working = true → s.job job = some j →
        (∀ e ∈ s.xlat[u].cache, e.job = job → e.page ≠ addr.toNat / 2 ^ e.size) →
      exec (.walkComplete u job addr write mv) s = .next (s.walked u j addr write mv) ∧
      (∀ v size phys rd wr level, (s.bump .xlatMisses u.val).doWalk u j addr.toNat = (v, .leaf size phys rd wr level) →
        exec (.walkComplete u job addr write none) s = .next v)) ∧
    (∀ id j, s.working = true → s.jobs.find? (s.heldTooLong t id) = some j →
      exec (.holdTimeout t id) s = .next ((s.bump .faultTimeouts).endJob j.id .faultTimeout) ∧
      (s.job j.id = some j → j.state ≠ .ended → Gives (.holdTimeout t id) s fun u =>
        ∃ b, u.job j.id = some b ∧ b.state = .ended ∧ b.endStatus = .faultTimeout)) ∧
    (∀ j, s.holder t = some j → s.tileRuns t = true →
      (x.seq = .parked → x.castle = .none → 1 ≤ ((x.tallies.toArray[x.wtal]?).getD 0).toNat →
        exec (.parkWake t) s = .next
          (let v := ((x.tallies.toArray[x.wtal]?).getD 0).toNat
           ((s.setTile t { x with tallies := x.tallies.setIfInBounds x.wtal (BitVec.ofNat 32 (v - 1)) }).bump
             .tileTallyConsumed (t / 512)).wake t)) ∧
      (x.seq = .waiting →
        (∀ tal target pdst dl, x.wait = .tally tal target false pdst dl →
            target ≤ ((x.tallies.toArray[tal]?).getD 0).toNat →
          exec (.waitSatisfied t) s = .next ((s.setTile t (x.setPred pdst true)).wake t)) ∧
        (x.wait = .fence → x.late = [] → x.queue = [] → exec (.waitSatisfied t) s = .next (s.wake t)) ∧
        (∀ tal target c pdst dl, x.wait = .tally tal target c pdst (some dl) → dl ≤ s.time.work →
            ((x.tallies.toArray[tal]?).getD 0).toNat < target →
          exec (.waitTimeout t) s = .next
            (((s.setTile t (x.setPred pdst false)).bump .tileSeqWaitTimeouts (t / 512)).wake t))))

/-- The stacks' own events (R206 to R208, R210): entries of 2 µs are flushed, a bank is refreshed when its interval has
passed, a corrected line is written back, and a row that qualifies is replaced by a spare or reported. -/
def Obligations.StackEvents : Prop :=
  ∀ (s : State) (m : StackIx), s.board.rails = true → s.hbm[m].offline = false →
    exec (.wcbAgeFlush m) s = .next (s.flushWhere m (fun e => e.first + 2000 ≤ s.clock) .memWcbFlushAge) ∧
    (∀ bank, (∀ c, (bank, c) ∈ s.hbm[m].lastRefresh → c + s.refreshNs m ≤ s.clock) →
      exec (.bankRefresh m bank) s = .next (s.setStack m { s.hbm[m] with
        lastRefresh := (bank, s.clock) :: s.hbm[m].lastRefresh.filter fun x => x.1 != bank })) ∧
    (∀ line, line ∈ s.hbm[m].writeback → exec (.eccCorrectedWriteback m line) s =
      .next ((s.setStack m { s.hbm[m] with writeback := s.hbm[m].writeback.filter fun l => l != line }).clearErrs m line |>.activate m line)) ∧
    (∀ bank row, (bank, row) ∈ s.hbm[m].badRows → ∃ t, exec (.rowRepair m bank row) s = .next t ∧
      (bank, row) ∉ t.hbm[m].badRows ∧
      (s.sparesUsed m.val bank < 4 → t.flash.repair = s.flash.repair ++ [(m.val, bank, row)] ∧
        t.ctr ⟨.memRepairRows, m.val, 0, 0⟩ = s.ctr ⟨.memRepairRows, m.val, 0, 0⟩ + 1) ∧
      (4 ≤ s.sparesUsed m.val bank → t.flash = s.flash ∧ (bank, row) ∈ t.hbm[m].failedRows ∧
        t.ctr ⟨.memRepairExhausted, m.val, 0, 0⟩ = s.ctr ⟨.memRepairExhausted, m.val, 0, 0⟩ + 1) ∧
      { t with hbm := s.hbm, flash := s.flash, counters := s.counters } = s)

/-- The events of jobs and periods (R236, R237, R243, R250, R252, R253, R256, R257): a tile is prepared, a job is saved and
restored, and the period scheduler acts. -/
def Obligations.JobAndPeriodEvents : Prop :=
  ∀ (s : State), s.working = true →
    (∀ (t : TileIx) j, (s.jobs.find? fun j => j.state == .running && j.preparing.contains t.val) = some j →
      s.tileRuns t = true → exec (.tilePrepared t) s = .next (s.prepareTile j t) ∧
      (∀ r bs, ((s.partAny t).zeroSram t).readJob (unitOfTile t) j j.p.image.toNat (32 * j.p.imageMoves) = (r, .ok bs) →
        exec (.tilePrepared t) s = .next (
          let u := (r.writeSram (sramBase t + j.p.pbase) bs false).zeroTallies t
          let u := u.setTile t { ({} : Tile) with
            seq := .running, pbase := j.p.pbase, len := j.p.imageMoves, pc := j.p.entry, periodEntry := j.p.periodEntry
            job := j.id, prepared := true, stepBase := (u.tile t).stepBase, heldSteps := (u.tile t).heldSteps
            nextId := (u.tile t).nextId }
          ((u.applyHeld j.id t).modJob j.id fun b => { b with preparing := b.preparing.filter fun k => k != t.val }).fetchCheck t))) ∧
    (∀ job j, s.job job = some j → j.state = .running → (j.preempt ≠ none ∨ j.saving = true) → s.fallDue j = false →
      s.unitsStopped j = true → exec (.saveComplete job) s = .next (s.saveJob j) ∧
      (j.saving = false → exec (.saveComplete job) s = .next (
        let u := (jobTiles j.p).foldl (fun s t => s.saveTile j t) s
        let u := (List.range 6).foldl (fun s d => if (jobTiles j.p).any fun t => t / 512 == d then s.flushDie d else s) u
        let u := (u.bump .ctxSaves 0 0 (jobTiles j.p).length).bump .ctxSaveNs 0 0 (u.time.work - j.preemptT)
        (u.modJob j.id fun b => { b with state := .preempted, saving := false, preempt := none, startWanted := false
          }).scheduleJobs.dropPpe fun e => e.job == j.id))) ∧
    (∀ job j, s.job job = some j → j.restoring = true → exec (.restoreComplete job) s = .next (s.restoreJob j) ∧
      exec (.restoreComplete job) s = .next (
        let u := j.saved.foldl (fun s v => s.restoreTile j v) (s.modJob j.id fun b => { b with state := .running, restoring := false, saved := [] })
        let u := (u.bump .ctxRestores 0 0 j.saved.length).bump .ctxRestoreNs 0 0 (u.time.work - j.preemptT)
        let u := j.saved.foldl (fun s v => if v.st.wait = .yield_ then s.wake v.tile else s.fetchCheck v.tile) u
        (j.saved.foldl (fun s v => s.kickAll v.tile) (u.collResume j.id).scheduleJobs).checkDone j.id)) ∧
    (∀ job j p, s.job job = some j → j.period = some p → j.scheduled = true →
      (p.n = p.fallen → startT j.p (p.n + 1) ≤ s.globalT → exec (.periodStart job) s = .next (s.startPeriod j p) ∧
        (j.state = .running → exec (.periodStart job) s = .next (
          let u := s.modPeriod j.id fun q => { q with
            n := p.n + 1, checkRun := false, checked := false, lateStart := false, outputsT := none, workT := none, milestoneT := 0
            milestoneSteps := 0, outputsSteps := 0, milestone := 0, movesDiscarded := 0, epochDrops := 0, finished := false }
          let u := (jobTiles j.p).foldl (fun s t => s.startTileBooks j.id t) u
          (jobTiles j.p).foldl (fun s t => if (s.tile t).job == j.id then s.noteWork t else s) u))) ∧
      (p.n ≠ p.fallen → p.checkRun = false → checkT j.p p.n ≤ s.globalT → exec (.check job) s = .next (s.checkPeriod j p true) ∧
        (let u := s.modPeriod j.id fun q => { q with checkRun := true }
         (u.workComplete j = true → exec (.check job) s = .next u) ∧
         (u.workComplete j = false → exec (.check job) s = .next
           (((u.modPeriod j.id fun q => { q with checked := true }).bump .periodChecks p.slot).event .check ⟨8, j.id.setWidth 24⟩
             (leBytes 2 j.id.toNat ++ leBytes 1 (p.n % 256).toNat) (some (stamp (checkT j.p p.n))))))) ∧
      (p.n ≠ p.fallen → fallT j.p p.n ≤ s.globalT → exec (.flagFall job) s = .next (s.flagFall j p true)) ∧
      (j.p.lend = true → j.state = .running → j.preempt = none → j.saving = false → s.fallDue j = false → j.preparing = [] →
        s.workComplete j = true → s.globalT + 800000 ≤ reclaimAt j.p p.n →
        exec (.lend job) s = .next (s.modJob j.id fun b => { b with
          saving := true, preemptT := s.time.work
          period := b.period.map fun q => { q with reclaimT := reclaimAt j.p p.n } })) ∧
      (j.state = .idle → j.startWanted = false → j.restoring = false → p.reclaimT ≤ s.globalT →
        exec (.reclaim job) s = .next (s.modJob j.id fun b => { b with startWanted := true }).scheduleJobs)) ∧
    (∀ job j p u, s.job job = some j → j.period = some p → j.scheduled = true → p.n ≠ p.fallen → fallT j.p p.n ≤ s.globalT →
      s.workComplete j = true → j.p.staleWords = [] → j.saved = [] →
      (let a := ((s.bump .periodFlagFalls p.slot).bump .periodLate p.slot 0 0).fallTiles j
       let b := ((a.1.modJob j.id fun b => { b with held := [] }).bump .periodMovesDiscarded p.slot 0 a.2).modPeriod j.id fun q =>
         { q with movesDiscarded := q.movesDiscarded + a.2 }
       let c := b.dropPpe fun e => e.job == j.id
       ((c.bump .ppeFlagFallDropped 0 0 (b.batchesLeft fun e => e.job == j.id)).bump .collFlagFallDiscarded 0 0
         (c.coll.ctxs.filter fun c => c.job == j.id).length).dropJobCtxs j.id) = u →
      (∀ b q, u.job j.id = some b → b.period = some q → exec (.flagFall job) s = .next (
        let r := u.periodRecord b q false
        let before := s.periodRecord j p false
        let r := r.take 32 ++ (before.drop 32).take 4 ++ (r.drop 36).take 28 ++ (before.drop 64).take 16 ++ r.drop 80
        let v := (u.schedWrite b (b.p.reportBase.toNat + 128 * (q.n % b.p.reportCount).toNat) r).modPeriod j.id fun q =>
          { q with fallen := q.n }
        ((jobTiles j.p).foldl (fun s t => if (s.tile t).job == j.id then s.kickAll t else s) v).scheduleJobs)))

/-- The messages that reach the fabric endpoint (R267, R270 to R272, R277, R279, R281, R282, R321). -/
def Obligations.EndpointMessages : Prop :=
  ∀ (s : State), s.working = true →
    (∀ p q, s.hears p = true → s.fid = some q.dst →
      (q.op = 0 → exec (.requestPut p q) s = .next (s.request q)) ∧
      (q.op = 1 → exec (.requestGet p q) s = .next (s.request q)) ∧
      (q.op = 2 → exec (.requestAtomic p q) s = .next (s.request q)) ∧
      (q.op = 3 → exec (.requestSignal p q) s = .next (s.request q))) ∧
    (∀ p q e o r ps, s.hears p = true → s.fid = some q.dst → s.Admits q e o → s.isCollData q = false →
      s.inboundMap o (winLbase e + (q.waddr.toNat - winWbase e)) (reqBytes q) (q.op != 0) (q.op != 1) = (r, some (.ok ps)) →
      (q.op = 0 → exec (.requestPut p q) s = .next (
        let u := ps.foldl (fun s p =>
          (s.closeLines (p.1 / 64) ((p.1 + p.2.2 - 1) / 64)).writePhys p.1 ((q.payload.drop p.2.1).take p.2.2)) r
        let u := if q.rten then u.arrive o.id q.rtile.toNat q.rtal.toNat 1 else u
        ((u.remember q none).countRx q).receiptFor q.src q.seq q.ce q.last)) ∧
      (∀ u bs, q.op = 1 → r.readPieces ps = (u, .ok bs) → exec (.requestGet p q) s = .next (
        ((if q.ord then u.remember q none else u).countRx q).message q.src 2 1 (q.job.toNat * 2 ^ 116) bs q.seq.toNat q.ce
          |>.lastApplied q)) ∧
      (∀ a rest u bs, q.op = 2 → ps = a :: rest → r.readPieces ps = (u, .ok bs) → exec (.requestAtomic p q) s = .next (
        let w := aopWidth q.aop.toNat
        let v := u.atomicValue a.1 q.aop.toNat (leNat bs) (leNat (if q.aop.toNat ≥ 13 then q.payload.drop w else q.payload))
          (leNat (q.payload.take w))
        let t := (v.1.writePhys a.1 (leBytes w v.2)).bump .fabAtomicOps
        let t := if q.rten then t.arrive o.id q.rtile.toNat q.rtal.toNat 1 else t
        (((t.remember q (some (BitVec.ofNat 64 (leNat bs)))).countRx q).atomicReply q (BitVec.ofNat 64 (leNat bs))).lastApplied q))) ∧
    (∀ p q e o, s.hears p = true → s.fid = some q.dst → s.Admits q e o → q.op = 3 → exec (.requestSignal p q) s = .next (
      (((s.arrive o.id q.rtile.toNat q.rtal.toNat (leNat q.payload)).remember q none).countRx q).receiptFor q.src q.seq q.ce q.last)) ∧
    (∀ seq ce payload, exec (.getData seq ce payload) s = .next (s.getData seq ce payload)) ∧
    (∀ seq ce payload e u job t id ix m j, s.entry seq = some e →
      ((if ce then s.cutRate e.q.dst else s).retire e).bump .fabOrtReceipted = u → e.owner = .move job t id ix →
      u.ownerMove e.owner = some m → u.job job = some j → Hdr.op m.w = 0x42 → u.expired j m = false →
      let c := fabSpec m.w m.regs
      let bs := payload.take (min 256 (c.len - 256 * ix))
      c.op = 0x42 →
      (∀ r, c.lk = 1 → u.writeJob 6 j (c.laddr + 256 * ix) bs = (r, none) →
        exec (.getData seq ce payload) s = .next ((if c.lten then r.arrive job t c.ltal 1 else r).answered e.owner)) ∧
      (∀ b, c.lk ≠ 1 → u.sramOf j t = some b → exec (.getData seq ce payload) s = .next (
        let r := u.writePhys (b + (c.laddr + 256 * ix)) bs
        (if c.lten then r.arrive job t c.ltal 1 else r).answered e.owner))) ∧
    (∀ seq ce old, exec (.atomicReply seq ce old) s = .next (s.atomicAnswer seq ce old)) ∧
    (∀ seq ce old e u job t id ix m, s.entry seq = some e →
      ((if ce then s.cutRate e.q.dst else s).retire e).bump .fabOrtReceipted = u → e.owner = .move job t id ix →
      u.ownerMove e.owner = some m → exec (.atomicReply seq ce old) s = .next
        ((u.modJobTile job t fun x => x.modFabMove id fun m => { m with desc := leBytes 8 old.toNat }).answered e.owner)) ∧
    (∀ es, exec (.receipt es) s = .next (es.foldl (fun s e => (List.range 32).foldl (fun s i =>
      if e.mask.getLsbD i then s.receiptSeq (e.base + BitVec.ofNat 24 i) e.ce else s) s) s)) ∧
    (∀ seq ce e, s.entry seq = some e → exec (.receipt [{ base := seq, mask := 1, ce := ce }]) s = .next
      ((((if ce then s.cutRate e.q.dst else s).retire e).bump .fabOrtReceipted).answered e.owner)) ∧
    (∀ src es, exec (.nak src es) s = .next (es.foldl (fun s e => s.nakEntry e.1 e.2) s)) ∧
    (∀ src seq e, s.entry seq = some e → exec (.nak src [(seq, Reason.retry.code)]) s = .next
      ((s.bump .fabNakRx Reason.retry.code.toNat).modOrt seq fun e => { e with
        backoffs := e.backoffs + 1, wait := .backoff (s.time.work + 1000 * 2 ^ min e.backoffs 6 + seq.toNat % 16 * 64) })) ∧
    (∀ src seq e job t id ix, s.entry seq = some e → e.owner = .move job t id ix →
      exec (.nak src [(seq, Reason.noWindow.code)]) s = .next
        (let f : Suspend := { status := .noWindow, addr := e.q.waddr.toNat, remote := true, peer := e.q.dst, write := e.q.op != 1 }
         ((((s.bump .fabNakRx Reason.noWindow.code.toNat).retire e).bump .fabOrtReceipted).modJobTile job t fun x =>
           x.modFabMove id fun m => { m with failing := some (m.failing.getD f) }).kickFab t)) ∧
    (∀ src port seqs, exec (.lost src port seqs) s = .next (seqs.foldl State.lostSeq s)) ∧
    (∀ src port seq e, s.entry seq = some e → exec (.lost src port [seq]) s = .next
      (((s.modOrt e.seq fun e => { e with last := s.time.work, wait := .none }).bump .fabTxRetransmitLost |>.countTx e.q).inject
        (reqPkt e.q) e.port)) ∧
    (∀ src low, exec (.lowMark src low) s = .next (s.modFab fun f => { f with
      lows := (src, low) :: f.lows.filter fun x => x.1 != src
      dedup := f.dedup.filter fun d => !(d.src == src && (d.seq - low).toNat ≥ 2 ^ 23) })) ∧
    (∀ src record, record.length = 256 → exec (.congMap src record) s =
      .next (s.modFab fun f => { f with maps := (src, record) :: f.maps.filter fun x => x.1 != src }))

/-- The timers of the transport (R278, R281 to R283, R289): each acts when its time on the work clock has come. -/
def Obligations.TransportTimers : Prop :=
  ∀ (s : State), s.working = true →
    (∀ src p, (s.fab.pend.find? fun p => p.src == src) = some p → p.seqs ≠ [] → p.oldest + 500 ≤ s.time.work →
      exec (.receiptFlush src) s = .next (
        let es := groupReceipts p.seqs
        let u := s.modFab fun f => { f with pend := mapIf (fun x => x.src == src) (fun x => { x with seqs := [] }) f.pend }
        (List.range (ceilDiv es.length 32)).foldl (fun s k =>
          s.message src 4 1 0 (((es.drop (32 * k)).take 32).flatMap receiptWord)) u)) ∧
    (∀ seq e, s.entry seq = some e → e.wait = .none → e.last + s.fab.rto / 4 ≤ s.time.work →
      exec (.retransmitTimeout seq) s = .next
        (((s.modOrt e.seq fun e => { e with last := s.time.work, wait := .none }).bump .fabTxRetransmitTimeout |>.countTx e.q).inject (reqPkt e.q))) ∧
    (∀ seq e till, s.entry seq = some e → e.wait = .backoff till → till ≤ s.time.work →
      exec (.backoffExpiry seq) s = .next
        (((s.modOrt e.seq fun e => { e with last := s.time.work, wait := .none }).bump .fabTxRetransmitBackoff |>.countTx e.q).inject (reqPkt e.q))) ∧
    (∀ seq e, s.entry seq = some e → e.first + s.fab.rto ≤ s.time.work →
      exec (.abandon seq) s = .next (((s.retire e).bump .fabOrtAbandoned).ownerFault e.owner
        { status := .transportTimeout, addr := e.q.waddr.toNat, write := e.q.op != 1 }) ∧
      ∀ job t id ix, e.owner = .move job t id ix → exec (.abandon seq) s = .next
        (let f : Suspend := { status := .transportTimeout, addr := e.q.waddr.toNat, write := e.q.op != 1 }
         (((s.retire e).bump .fabOrtAbandoned).modJobTile job t fun x =>
           x.modFabMove id fun m => { m with failing := some (m.failing.getD f) }).kickFab t)) ∧
    (∀ dst p, (s.fab.peers.find? fun p => p.dst == dst) = some p → p.retired = true →
        (∀ x ∈ s.fab.lowTimes, x.1 = dst → x.2 + 2000 ≤ s.time.work) →
      exec (.lowMarkTimer dst) s = .next ((s.sendLow dst).modFab fun f => { f with
        peers := mapIf (fun p => p.dst == dst) (fun p => { p with retired := false }) f.peers })) ∧
    (∀ dst p, (s.fab.peers.find? fun p => p.dst == dst) = some p → p.rate < 256 → p.lastRaise + 8000 ≤ s.time.work →
      exec (.rateRaise dst) s = .next (s.modFab fun f => { f with
        peers := mapIf (fun p => p.dst == dst) (fun p => { p with rate := min 256 (p.rate + 16), lastRaise := s.time.work }) f.peers }))

/-- The router's commands (R296, R302, R304, R305, R309, R312, R315, R319 to R321, R433, R508, R523). -/
def Obligations.RouterCommands : Prop :=
  ∀ (s : State), s.working = true →
    (∀ (p : PortIx), (s.ports[p].usable = true ∨ s.ports[p].state = .held) →
      (∀ vc head payload, exec (.headFlit (some p) vc head payload) s =
        .next ((s.countRxFlits p vc.val (1 + payload.length)).arrivePkt p ⟨vc.val, head, payload⟩)) ∧
      (∀ src dst pkt, 32 ≤ pkt.length → pkt.length ≤ 256 →
        exec (.control p src dst pkt) s = .next
          (let k := mkPkt { dst := dst, src := src, ty := 8, cls := 0, len := pkt.length } pkt
           (s.countRxFlits p 0 k.flits).arrivePkt p k)) ∧
      (∀ (vc : VcIx) head payload, s.ports[p].usable = true → (∀ y ∈ s.ports[p].input, y.pkt.vc ≠ vc.val) →
        let k : Pkt := ⟨vc.val, head, payload⟩
        let x : InPkt := { pkt := k, arrived := s.time.work }
        let u := (s.countRxFlits p vc.val (1 + payload.length)).modPort p fun y => { y with input := y.input ++ [x] }
        (headFault k = none → u.marks (some p) x = false → u.lookup (some p) x = .deliver →
          exec (.headFlit (some p) vc head payload) s = .next ((u.dropInput (some p) s.ports[p].input.length).deliver (some p) k)) ∧
        (∀ e q v, u.Leaves (some p) s.ports[p].input.length x e q v →
          exec (.headFlit (some p) vc head payload) s = .next (u.routed (some p) s.ports[p].input.length x e q v))) ∧
      (∀ src dst pkt, 32 ≤ pkt.length → pkt.length ≤ 256 → s.ports[p].usable = true → (∀ y ∈ s.ports[p].input, y.pkt.vc ≠ 0) →
        let k := mkPkt { dst := dst, src := src, ty := 8, cls := 0, len := pkt.length } pkt
        let x : InPkt := { pkt := k, arrived := s.time.work }
        let u := (s.countRxFlits p 0 k.flits).modPort p fun y => { y with input := y.input ++ [x] }
        k.vc = 0 → headFault k = none → u.marks (some p) x = false → u.lookup (some p) x = .deliver →
          exec (.control p src dst pkt) s = .next ((u.dropInput (some p) s.ports[p].input.length).deliver (some p) k)) ∧
      (s.ports[p].freed ≠ s.ports[p].freedSent → s.ports[p].lastCredit + 32 ≤ s.clock →
        exec (.creditTimer p) s = .next (s.sendCredit p))) ∧
    (∀ (vc : VcIx) head payload k, (s.fab.inject.findIdx? fun x => x.pkt == ⟨vc.val, head, payload⟩ && x.out.isNone) = some k →
      exec (.headFlit none vc head payload) s = .next (s.contend none k 17) ∧
        ∀ x e q v, s.Leaves none k x e q v → exec (.headFlit none vc head payload) s = .next (s.routed none k x e q v)) ∧
    (∀ p vc, exec (.vcAllocation p vc) s = .next (s.routeVc p vc.val)) ∧
    (∀ p (vc : VcIx) k x e q v, s.fronts p vc.val = [k] → s.Leaves p k x e q v →
      exec (.vcAllocation p vc) s = .next (s.routed p k x e q v)) ∧
    (∀ p freed, exec (.credit p freed) s = .next (s.creditIn p freed)) ∧
    (∀ (p : PortIx) freed, (s.ports[p].usable = true ∨ s.ports[p].state = .held) →
      (∀ v : Fin 12, (s.ports[p].sent[v] - freed[v]).toNat ≤ s.ports[p].bv[v].toNat) →
      exec (.credit p freed) s = .next (((s.modPort p fun x => { x with freedSeen := freed, creditSince := true }).serve p).auditTry p)) ∧
    (∀ (p : PortIx) sizes, s.ports[p].state = .training → 8 ≤ s.ports[p].step → exec (.creditInit p sizes) s =
      .next (s.modPort p fun x => { x with
        bv := sizes, step := 9, stepT := s.clock, timeouts := 0, reason := .none, state := x.settled })) ∧
    (∀ (p : PortIx) f, s.ports[p].pastFec = true → s.dbg.accept = true → exec (.freezeFlit p f) s =
      .next (s.freeze .peer (f.originFid ++ f.originNo.setWidth 16) (some (p, f)))) ∧
    (∀ p sizes, exec (.creditInit p sizes) s = .next (s.creditInit p sizes)) ∧
    (∀ p f, exec (.freezeFlit p f) s = .next (s.freezeFlitIn p f)) ∧
    (∀ (p : PortIx) kind, s.ports[p].pastFec = true → (kind = 0 ∨ 7 < kind.toNat) →
      exec (.reservedLinkControl p kind) s = .next (s.bump .fabPortLcReserved p.val)) ∧
    (∀ p vc k x, s.fronts p vc.val = [k] → (s.inputOf p)[k]? = some x →
      (x.arrived + s.stall p ≤ s.time.work → (headOf x.pkt.head).esc = false → s.movedAt p vc + s.stall p ≤ s.time.work →
        exec (.stalemate p vc) s = .next
          (let t := s.modAt p k fun x => { x with pkt := { x.pkt with head := markHead x.pkt.head 73 } }
           match p with | some p => t.bump .fabPortStalemateForced p.val | none => t.bump .fabEpStalemateForced)) ∧
      (x.arrived + 1000 ≤ s.time.work → (headOf x.pkt.head).ty = 1 → (headOf x.pkt.head).ce = false →
        exec (.ceWait p vc) s = .next (s.markCe p k))) ∧
    (s.fab.avgClock + 64 ≤ s.clock → exec .occupancyUpdate s = .next (
      let u := (List.finRange 16).foldl (fun s p =>
        let x := s.ports[p]
        let s := s.modPort p fun x => { x with avg := Vector.ofFn fun v =>
          x.avg[v] + ((x.occupancy v.val * 256 : Nat) / (x.size v : Rat) - x.avg[v]) / 16 }
        (List.finRange 12).foldl (fun s v => s.sample .fabPortVcOccupancy p.val v.val (x.occupancy v.val) (x.size v)) s) s
      u.modFab fun f => { f with avgT := u.now, avgClock := u.clock })) ∧
    (s.fab.histClock + 64 ≤ s.clock → exec .histogramSample s = .next (
      let u := (s.modFab fun f => { f with histClock := s.clock }).sample .fabDedupOccupancy 0 0 s.fab.dedup.length 65536
      let u := (List.range 6).foldl (fun s i => (List.range 2).foldl (fun s j => s.sampleFree .d2dOccupancy i j) s) u
      (List.range 24).foldl (fun s m => s.sampleFree .memOccupancy m 0) u)) ∧
    (∀ c, s.fab.collector = some c → s.fab.congClock + 100000 ≤ s.clock → exec .congMapSend s =
      .next (((s.message c 9 1 0 s.congMap).bump .fabRCongMaps).modFab fun f => { f with
        congSeq := f.congSeq + 1, congClock := s.clock }))

/-- The control flits and frames of a link past FEC (R332 to R337, R341, R343, R344). -/
def Obligations.LinkMessages : Prop :=
  ∀ (s : State) (p : PortIx), s.live = true → s.ports[p].pastFec = true →
    (∀ fsn, exec (.ack p fsn) s = .next (s.ackIn p fsn)) ∧
    (∀ fsn, exec (.retry p fsn) s = .next (s.retryIn p fsn)) ∧
    (∀ m, exec (.swap p m) s = .next (s.swapIn p m)) ∧
    (∀ m, exec (.swapAck p m) s = .next (s.swapAckIn p m)) ∧
    (∀ d, exec (.swapAt p d) s = .next ((s.swapDue p d).auditTry p)) ∧
    (∀ lane b, exec (.laneBlock p lane b) s = .next (s.blockIn p lane b)) ∧
    (∀ fsn, let x := s.ports[p]
      (fsn - x.acked).toNat ≤ (x.framed - x.acked).toNat → exec (.ack p fsn) s = .next (((s.modPort p fun x => { x with
        acked := fsn, retry := x.retry.drop (fsn - x.acked).toNat
        frameFsn := if (x.frameFsn - x.acked).toNat < (fsn - x.acked).toNat then fsn else x.frameFsn
        creditSince := false, unacked := x.unacked.filter fun u => (fsn - u.1).toNat ≥ 2 ^ 15 }).serve p).auditTry p)) ∧
    (∀ fsn, let x := s.ports[p]
      let r := retryNow s.clock fsn x.retryIn
      r.times.length < 16 → (fsn - x.acked).toNat < (x.framed - x.acked).toNat → exec (.retry p fsn) s =
        .next (((s.modPort p fun x => { x with retryIn := some r }).modPort p fun x => { x with frameFsn := fsn }).emit (.resend p fsn))) ∧
    ((s.ports[p].usable = true ∨ s.ports[p].state = .held) → 0x11 ≤ s.ports[p].rev.toNat → ∀ m : SwapMsg, m.slot.toNat ≤ 7 →
      (m.op = 1 → (m.at_ - s.ports[p].rxFsn).toNat < 2 ^ 15 → exec (.swap p m) s = .next
        ((s.modPort p fun x => { x with rx := { x.rx with
          swap := some { slot := m.slot.toNat, from_ := m.from_.toNat, to_ := m.to_.toNat, at_ := m.at_, acked := true } } }).sendControl p
          (lcFlit 7 (swapBytes m)))) ∧
      (∀ k : LaneIx, m.op = 0 → (s.ports[p].tx.map.toArray[m.slot.toNat]?).join = some k → k.val = m.from_.toNat →
        s.ports[p].tx.skip.getLsbD m.slot.toNat = false → s.ports[p].tx.swap = none →
        let u := s.modPort p fun x => { x with
          tx := { x.tx.setLane k .failed with skip := x.tx.skip ||| BitVec.ofNat 8 (2 ^ m.slot.toNat) } }
        4 ≤ u.ports[p].tx.slots → u.ports[p].tx.swap = none →
        exec (.swap p m) s = .next (u.schedule p m.slot.toNat k.val u.ports[p].tx.standby 1))) ∧
    (∀ m w, s.ports[p].tx.swap = some w → w.slot = m.slot.toNat → w.from_ = m.from_.toNat → w.to_ = m.to_.toNat → w.at_ = m.at_ →
      m.op = 1 → exec (.swapAck p m) s = .next (s.modPort p fun x => { x with tx := { x.tx with swap := some { w with acked := true } } })) ∧
    (∀ d w, (s.ports[p].dir d).swap = some w → w.acked = true → (s.ports[p].nextFsn d - w.at_).toNat < 2 ^ 15 →
      let u := s.modPort p fun x => x.modDir d fun y => y.swapped w
      let u := if w.to_ < 9 then u.bump .fabPortSwaps p.val else u
      4 ≤ (u.ports[p].dir d).slots → exec (.swapAt p d) s = .next ((u.regrade p).auditTry p)) ∧
    (∀ (lane : LaneIx) b data n sl, let x := s.ports[p]
      4 ≤ x.rx.lanes[lane].markers → x.rx.lanes[lane].state = .data → blockMarker b = 0x33C → blockData b = (data, some n) →
      blockSlice b data = (sl, true) → sl.wave.toNat = lane.val → x.rx.slotOf lane = some sl.slot.toNat → x.rx.swap = none →
      (sl.flits.any fun f => !tagOk f.1) = false → sl.fsn = x.rxFsn → x.frameBad = [] → (∀ y ∈ x.frame, y.1 ≠ lane) →
      (∃ i, i < 8 ∧ sl.skip.getLsbD i = false ∧ i ≠ sl.slot.toNat ∧ ∀ y ∈ x.frame, y.2.slot.toNat ≠ i) →
      Gives (.laneBlock p lane b) s fun t => t.ports[p].frame = x.frame ++ [(lane, sl)] ∧ t.ports[p].rxFsn = x.rxFsn ∧
        t.ports[p].state = x.state ∧ t.ctr ⟨.fabPortFecCorrected, p.val, 0, 0⟩ = s.ctr ⟨.fabPortFecCorrected, p.val, 0, 0⟩ + BitVec.ofNat 64 n) ∧
    (∀ r, s.ports[p].retryOut = some r → (∀ t, r.times.head? = some t → t + 2000 ≤ s.clock) →
      let r' := retryNow s.clock s.ports[p].rxFsn s.ports[p].retryOut
      r'.times.length < 16 → exec (.retryRepeat p) s = .next (((s.modPort p fun x => { x with retryOut := some r' }).sendControl p
        (lcFlit 5 (leBytes 2 s.ports[p].rxFsn.toNat))).bump .fabPortRetries p.val)) ∧
    (∀ r, s.ports[p].retryOut = some r → (∀ t, r.times.head? = some t → t + 2000 ≤ s.clock) →
      exec (.retryRepeat p) s = .next (s.sendRetry p)) ∧
    (s.ports[p].rxFsn ≠ s.ports[p].ackSent → s.ports[p].lastAck + 32 ≤ s.clock →
      exec (.ackTimer p) s = .next ((s.modPort p fun x => { x with ackSent := x.rxFsn, lastAck := s.clock }).sendControl p
        (lcFlit 4 (leBytes 2 s.ports[p].rxFsn.toNat))))

/-- Lanes, rings and training (R330, R331, R340, R345 to R349, R355, R487). -/
def Obligations.LanesAndTraining : Prop :=
  ∀ (s : State) (p : PortIx), s.live = true →
    (∀ d lane cause, exec (.laneFailure p d lane cause) s = .next (s.failLane p d lane cause)) ∧
    (∀ d (lane : LaneIx), s.ports[p].usable = true → ((s.ports[p].dir d).lanes[lane]).clean = none →
      (((s.ports[p].dir d).lanes[lane]).state = .data ∨ ((s.ports[p].dir d).lanes[lane]).state = .standby) →
      exec (.toneRecheck p d lane .verified) s = .next s ∧
      (∀ r, r ≠ .verified → exec (.toneRecheck p d lane r) s = .next ((s.countTone p lane r).failLane p d lane .tone))) ∧
    (∀ d (lane : LaneIx) t, s.ports[p].usable = true → ((s.ports[p].dir d).lanes[lane]).state = .failed →
      ((s.ports[p].dir d).lanes[lane]).clean = some t → t + 10000000 ≤ s.clock →
      exec (.laneRecovery p d lane) s = .next (s.modPort p fun x => x.modDir d fun y => y.setLane lane .standby)) ∧
    (∀ d (lane : LaneIx) cause, (s.ports[p].usable = true ∨ s.ports[p].state = .held) → (cause ≠ .laser ∨ d = .rx) →
      ((s.ports[p].dir d).lanes[lane]).state = .standby → exec (.laneFailure p d lane cause) s = .next
        ((((s.modPort p fun x => x.modDir d fun y => y.sweep lane).modPort p fun x => x.modDir d fun y => y.setLane lane .failed).bump
          .fabPortLaneFailures p.val lane.val).setFlag .fabSpareLost 4 p.val)) ∧
    (∀ (lane : LaneIx) cause slot, (s.ports[p].usable = true ∨ s.ports[p].state = .held) → 0x11 ≤ s.ports[p].rev.toNat →
      s.ports[p].rx.lanes[lane].state = .data → s.ports[p].rx.slotOf lane = some slot → s.ports[p].retryOut ≠ none →
      let u := (s.modPort p fun x => { x with rx := x.rx.sweep lane }).bump .fabPortLaneFailures p.val lane.val
      let waves := if cause = .lossOfSignal then s.ports[p].waves &&& ~~~(BitVec.ofNat 9 (2 ^ lane.val)) else s.ports[p].waves
      let v := u.modPort p fun x => { x with waves := waves, rx := x.rx.setLane lane .failed }
      4 ≤ v.ports[p].rx.carrying → exec (.laneFailure p .rx lane cause) s = .next
        ((v.modPort p fun x => { x with frame := [], frameBad := [] }).sendControl p (lcFlit 6 (swapBytes ⟨0, BitVec.ofNat 8 slot,
          BitVec.ofNat 8 lane.val, BitVec.ofNat 8 ((s.ports[p].rx.standby.map fun k => k.val).getD 15), 0⟩)))) ∧
    (∀ waves, s.ports[p].state = .down → 4 ≤ lit waves → s.dbg.frozen = false → s.bays[bayOf p].state = .active →
      s.ports[p].cfg.enabled = true → s.planMode p ≠ 3 → s.ports[p].retryAt ≤ s.clock →
      Gives (.peerPresent p waves) s fun t => t.ports[p].state = .training ∧ t.ports[p].step = 2 ∧ t.ports[p].stepT = s.clock ∧
        t.ports[p].waves = waves) ∧
    (∀ waves, s.ports[p].state ≠ .down →
      exec (.peerPresent p waves) s = .next ((s.modPort p fun x => { x with waves := waves }).tryTrain p)) ∧
    (∀ d (lane : LaneIx) r, s.ports[p].usable = true → ((s.ports[p].dir d).lanes[lane]).state = .failed →
      ((s.ports[p].dir d).lanes[lane]).sweeps = true → exec (.ringLock p d lane r) s =
        .next ((s.countTone p lane r).modPort p fun x => x.modDir d fun y => { y with
          lanes := y.lanes.set lane (((s.ports[p].dir d).lanes[lane]).swept s.clock r) })) ∧
    (∀ d (lane : LaneIx) r, s.ports[p].state = .training → s.ports[p].step = 2 → ((s.ports[p].dir d).lanes[lane]).state = .locking →
      let u := (s.countTone p lane r).modPort p fun x => x.modDir d fun y => { y with
        lanes := y.lanes.set lane (((s.ports[p].dir d).lanes[lane]).locked r) }
      exec (.ringLock p d lane r) s = .next (if u.ports[p].tx.lockDone ∧ u.ports[p].rx.lockDone then u.enterStep p 3 else u)) ∧
    (∀ a b c, s.ports[p].state = .training → s.ports[p].step = 3 →
      let x := s.ports[p]
      let n (w : BitVec 9) : Nat := ((List.finRange 9).filter fun k => x.rx.lanes[k].state == .trained && w.getLsbD k.val).length
      let slow := chooseRate (n a) (n b) x.cfg.force.val c x.hot
      let u := s.modPort p fun x => { x with
        rate100 := slow
        rx := { x.rx with lanes := Vector.ofFn fun k =>
          let l := { x.rx.lanes[k] with pass200 := a.getLsbD k.val, pass100 := b.getLsbD k.val }
          if l.state = .trained && !(if slow then b.getLsbD k.val else a.getLsbD k.val) then { l with state := .failed } else l } }
      4 ≤ u.ports[p].rx.trained → 4 ≤ u.ports[p].tx.trained → exec (.equaliseComplete p a b c) s = .next (u.enterStep p 4)) ∧
    (∀ id idents rt, s.ports[p].state = .training → s.ports[p].step = 4 →
      let u := (s.modPort p fun x => { x with peerStep := 4 }).modPort p fun x => { x with roundTrip := rt, rx := x.rx.identified idents }
      4 ≤ u.ports[p].rx.trained → exec (.trainingSequence p 4 id idents rt) s = .next (u.enterStep p 5)) ∧
    (s.ports[p].state = .training → s.ports[p].step = 3 → ∀ a b c,
      exec (.equaliseComplete p a b c) s = .next (s.equalised p a b c)) ∧
    (s.ports[p].state = .training → ∀ step id skew rt, 1 ≤ step → step ≤ 9 → s.ports[p].usable = false →
      exec (.trainingSequence p step id skew rt) s =
        .next (State.trainOn p id skew rt 4 (s.modPort p fun x => { x with peerStep := step }))) ∧
    ((s.ports[p].usable = true ∨ s.ports[p].state = .held) → ∀ step id skew rt, 1 ≤ step → step < 9 →
      exec (.trainingSequence p step id skew rt) s = .next (s.goDown p .command)) ∧
    (s.ports[p].state = .training → s.ports[p].stepT + stepLimit s.ports[p].step ≤ s.clock →
      exec (.trainTimeout p) s = .next ((s.bump .fabPortTrainFail p.val s.ports[p].step).goDown p .trainTimeout)) ∧
    (s.ports[p].state = .training → s.ports[p].stepT + stepLimit s.ports[p].step ≤ s.clock → s.ports[p].audit = none →
      Gives (.trainTimeout p) s fun t => t.ports[p].reason = .trainTimeout ∧ t.ports[p].timeouts = s.ports[p].timeouts + 1 ∧
        (2 ≤ s.ports[p].timeouts → t.ports[p].state = .down ∧ t.ports[p].retryAt = s.clock + 1000000000)) ∧
    ((s.ports[p].usable = true ∨ s.ports[p].state = .held) → exec (.peerRetrain p) s = .next (s.goDown p .command)) ∧
    (∀ r, (s.ports[p].usable = true ∨ s.ports[p].state = .held) → r ≠ .none → r ≠ .trainTimeout → r ≠ .tooFewLanes →
      s.ports[p].audit = none →
      let waves := if r = .noPeer then 0 else s.ports[p].waves
      let bayLit := s.bays[bayOf p].state == .active || s.bays[bayOf p].state == .draining
      let u := s.modPort p fun x => { x with
        state := .down, reason := r, step := 0, waves := waves, retryAt := resumeAt s.clock r x.timeouts
        tx := { x.tx with swap := none, lanes := x.tx.lanes.map (downLane bayLit) }
        rx := { x.rx with swap := none, lanes := Vector.ofFn fun k => downLane (waves.getLsbD k.val) x.rx.lanes[k] }
        input := x.input.map fun y => { y with stale := true }
        frame := [], frameBad := [], asm := [], retryOut := none, retryIn := none }
      let v := ((u.bump .fabPortDown p.val).bump .fabPortRxTruncated p.val 0 s.ports[p].asm.length).routerDown p
      exec (.portDown p r) s = .next ((v.collPortDown p).tryTrain p) ∧
      (r = .command → exec (.peerRetrain p) s = .next ((v.collPortDown p).tryTrain p))) ∧
    ((s.ports[p].reason = .trainTimeout ∨ s.ports[p].reason = .tooFewLanes ∨ s.ports[p].reason = .revMismatch) →
      s.mayTrain p = true → Gives (.trainingRetry p) s fun t =>
        t.ports[p].state = .training ∧ t.ports[p].step = 2 ∧ t.ports[p].stepT = s.clock) ∧
    ((s.ports[p].reason = .trainTimeout ∨ s.ports[p].reason = .tooFewLanes ∨ s.ports[p].reason = .revMismatch) →
      exec (.trainingRetry p) s = .next (s.tryTrain p)) ∧
    (∀ reason, s.ports[p].state ≠ .down → reason ≠ .none → exec (.portDown p reason) s = .next (s.goDown p reason)) ∧
    (∀ e : Fin 4, ((s.therm[124 + e.val]?).getD {}).stepped + 10000000 ≤ s.clock →
      exec (.opticalRetrainStep e) s = .next (s.opticalStep e) ∧
      (let u := { s with therm := s.therm.modify (124 + e.val) fun r => { r with stepped := s.clock } }
       let hot := u.atThrottle (124 + e.val) || u.atThrottle (128 + e.val)
       let cool := [124 + e.val, 128 + e.val].all fun k => ((u.therm[k]?).map fun r =>
         (r.coolSince.map fun t => decide (t + 1000000000 ≤ s.clock)).getD false).getD true
       (∀ q, hot = true → ((enginePorts e).find? fun p => !u.ports[p].hot && !(u.ports[p].linkUp && u.ports[p].rev == 0x10)) = some q →
         exec (.opticalRetrainStep e) s = .next (
           let v := u.modPort q fun x => { x with hot := true }
           if v.ports[q].linkUp && !v.ports[q].rate100 then v.goDown q .command else v)) ∧
       (∀ q, hot = false → cool = true → ((enginePorts e).find? fun p => u.ports[p].hot) = some q →
         exec (.opticalRetrainStep e) s = .next (
           let v := u.modPort q fun x => { x with hot := false }
           if v.ports[q].linkUp && v.ports[q].rate100 then v.goDown q .command else v)) ∧
       (hot = false → cool = false → exec (.opticalRetrainStep e) s = .next u)))

/-- The events of the laser cartridges (R359, R360, R364 to R371, R374, R377). -/
def Obligations.CartridgeEvents : Prop :=
  ∀ (s : State) (b : BayIx), s.live = true → s.board.tap ≠ .extest →
    (s.bays[b].present = false → exec (.hotJoin b) s = .next
      ((s.modBay b fun _ => { state := .authenticating, present := true, authT := s.clock }).writeCtrl b fun c => c ||| 4)) ∧
    (∀ st : BitVec 32, s.bays[b].present = true → st.getLsbD 3 = false → st.getLsbD 4 = false →
      exec (.i3cPoll b (some st)) s = .next (s.modBay b fun x => { x with fails := 0, status := st &&& ~~~8 })) ∧
    (∀ status, exec (.i3cPoll b status) s = .next (s.polled b status)) ∧
    exec .wdogWrite s = .next ((List.finRange 11).foldl (fun s b =>
      if s.bays[b].present && ctrlEn s.bays[b].ctrl != 0 && s.bays[b].lastWdog + 20000000 ≤ s.clock then
        (s.writeCtrl b fun c => c + 0x1000000).modBay b fun x => { x with lastWdog := s.clock } else s) s) ∧
    (s.bays[b].state = .authenticating →
      (∀ c, s.clock < s.bays[b].authT + 5000000000 → exec (.authentication b c) s = .next (s.authenticate b c) ∧
        (let nonce := (Config.freeBytes s.fresh 32 ++ List.replicate 32 0).take 32
         let result := authResult b c nonce
         let u := ({ s with fresh := s.fresh + 1 }.modBay b fun x => { x with nonce := nonce, ident := c.ident }).authWrites b nonce result
         exec (.authentication b c) s = .next (if result ≠ 0 then
           let v := (u.modBay b fun x => { x with state := .authFailed, reason := result }).writeCtrl b (setEn 0)
           (((v.bump .cartAuthFailures b.val).setFlag .cartAuthFailed 6 b.val).cartEvent b).reauthed b result
         else
           let v := u.modBay b fun x =>
             let y := x.load c.ledger
             { y with
               state := .ramping, reason := 0, spareFor := none
               lasers := Vector.ofFn fun j => if j.val < bayLasers b then { y.lasers[j] with state := 1 } else y.lasers[j] }
           ((v.writeCtrl b fun c => setEn (2 ^ bayLasers b - 1) c ||| (if bayKind b = 2 then 2 else 0)).cartEvent b).reauthed b 0))) ∧
      (s.bays[b].authT + 5000000000 ≤ s.clock → exec (.authTimeout b) s = .next (
        let u := (s.modBay b fun x => { x with state := .authFailed, reason := 6 }).writeCtrl b (setEn 0)
        (((u.bump .cartAuthFailures b.val).setFlag .cartAuthFailed 6 b.val).cartEvent b).reauthed b 6))) ∧
    (s.bays[b].state = .ramping → ∀ ls, exec (.rampingEnd b ls) s = .next (s.rampEnds b ls) ∧
      (let rd (j : Fin 9) : LaserReading := (ls[j.val]?).getD { d := 0, bias := 0, biasMax := 0, failed := true }
       (∀ j ∈ lasersOf b, (rd j).failed = false ∧ (bayPower b).1 ≤ (rd j).d ∧ s.bays[b].lasers[j].faded = false) →
       exec (.rampingEnd b ls) s = .next (
         let u := s.modBay b fun x => { x with
           state := .active, rampEnd := s.clock, lastCommit := s.clock
           commissioned := (lasersOf b).all fun j => x.lasers[j].c.isSome
           lasers := Vector.ofFn fun j =>
             if j.val < bayLasers b then
               { (x.lasers[j].read (rd j)) with
                 samples := [], target := (rd j).d, state := if (rd j).failed then 3 else 2, faded := false, failed := false }
             else x.lasers[j] }
         let u := (u.bump .cartInsertions b.val).writeCtrl b (setLed (if s.bays[b].condition = 0 then 1 else 2))
         ((bayPorts b).foldl (fun s p => s.tryTrain p) (if bayKind b = 2 then u.calibrate else u)).cartEvent b))) ∧
    (s.bays[b].state = .active →
      (s.bays[b].commissioned = false → s.bays[b].rampEnd + 1000000000 ≤ s.clock →
        exec (.commissioning b) s = .next (
          let first := (lasersOf b).all fun j => s.bays[b].lasers[j].c.isNone
          (s.modBay b fun x => { x with
            commissioned := true
            firstModule := if first then (Config.serial ++ List.replicate 24 0).take 24 else x.firstModule
            commissionT := if first then s.now else x.commissionT
            lasers := Vector.ofFn fun j =>
              if j.val < bayLasers b && x.lasers[j].c.isNone then { x.lasers[j] with c := some x.lasers[j].d } else x.lasers[j] }).commitLedger b)) ∧
      (∀ ls temp, exec (.fadeSample b ls temp) s = .next (s.fadeSample b ls temp) ∧
        (let u := s.modBay b fun x => { x with
           temp := temp, peakTemp := max x.peakTemp temp
           lasers := Vector.ofFn fun j => match ls[j.val]? with
             | some r => if j.val < bayLasers b && !x.lasers[j].failed then x.lasers[j].read r else x.lasers[j]
             | none => x.lasers[j] }
         (∀ j ∈ lasersOf b, (ls[j.val]?.map LaserReading.failed).getD false = false ∧ u.bays[b].lasers[j].samples.length < 100) →
         exec (.fadeSample b ls temp) s = .next (u.judge b false))) ∧
      (∀ (j : Fin 9) d c, j.val < bayLasers b → s.bays[b].lasers[j].state = 2 → s.bays[b].lasers[j].failed = false →
        s.bays[b].lasers[j].c = some c →
        ((bayPower b).2.2 < d → exec (.failureSample b j d) s = .next ((s.bump .cartInputHigh b.val).spareIn b j true)) ∧
        (d ≤ (bayPower b).2.2 → d ≤ c - 600 → exec (.failureSample b j d) s = .next (s.spareIn b j true)) ∧
        (d ≤ (bayPower b).2.2 → c - 600 < d → exec (.failureSample b j d) s = .next s)) ∧
      (s.bays[b].lastCommit + 900000000000 ≤ s.clock → (∃ j ∈ lasersOf b, s.bays[b].lasers[j].state = 2) →
        exec (.ledgerCommit b false) s = .next (
          let u := s.modBay b fun x => { x with commits := x.commits + 1 }
          let img := ledgerBytes b u.bays[b]
          let v := u.modBay b fun x => { x with stage := img, ledger := img, lastCommit := s.clock, retry := false }
          ((v.i3cWrite b 0x1100 img).i3cWrite b 0x100 (leBytes 4 (v.bays[b].ctrl ||| 0x40#32).toNat)).bump .cartLedgerCommits b.val))) ∧
    (s.bays[b].state = .draining → ((∀ p ∈ bayPorts b, s.portEmpty p = true) ∨ s.bays[b].drainT + 1000000 ≤ s.clock) →
      exec (.drainComplete b) s = .next (
        let u := (((s.modBay b fun x => { x with state := .drained }).feedsDown b).commitLedger b).writeCtrl b fun c => setLed 3 (setEn 0 c)
        (u.modBay b Bay.dark).cartEvent b))

/-- The events of the photonic engine (R177, R180 to R184, R188 to R190, R193, R194). -/
def Obligations.PhotonicEngineEvents : Prop :=
  ∀ (s : State), s.working = true →
    (s.ppe.reprog = none → exec .batchStart s = .next s.startBatch) ∧
    (∀ dark, s.ppe.mesh ≠ [] → exec (.batchComplete dark) s = .next (s.leaveMesh dark)) ∧
    (∀ a e m j, s.ppe.reprog = none → s.turnTo = none → s.ppe.active = some a →
        (s.ppeFront.find? fun e => e.slot == a.val) = some e → (s.tile e.tile).move e.id = some m → s.job e.job = some j →
      let c := projectSpec m.w m.regs
      let vs := (List.range (min 64 (e.total - e.next))).map (e.next + ·)
      vs ≠ [] → c.sk = 0 → (∀ v ∈ vs, s.sramPoison e.tile (c.src + c.bytes * v) c.bytes = none) →
      exec .batchStart s = .next (s.modPpe fun p => { p with
        mesh := p.mesh ++ [⟨e.job, e.tile, e.id, e.slot, e.next, c.fmt,
          vs.map fun v => s.sram e.tile (c.src + c.bytes * v) c.bytes, c.dk, c.dst, c.rtal, c.rten, m.epoch, none⟩]
        queue := mapIf (fun x => x.job == e.job && x.tile == e.tile && x.id == e.id)
          (fun x => { x with next := x.next + vs.length }) p.queue })) ∧
    (∀ b rest bs j m dark, s.ppe.mesh = b :: rest → b.inputs = [bs] → s.job b.job = some j → j.p.periodic = false → b.dk = 0 →
        b.rten = false → (s.tile b.tile).job = b.job → (s.tile b.tile).move b.id = some m → m.done = b.first →
        m.failing = none → b.first + 1 < (projectSpec m.w m.regs).nvec →
      Gives (.batchComplete dark) s fun t => t.ppe.mesh = rest ∧
        (t.tile b.tile).move b.id = some { m with done := m.done + 1 } ∧
        ∃ u r, State.record (s.modPpe fun p => { p with mesh := rest }) b b.first bs (dark.contains 0) = (u, r) ∧
          t.mem = (u.writePhys (sramBase b.tile + (b.dst + 128 * b.first)) r.bytes).mem) ∧
    (∀ n (h : n < 8), s.turnTo = some n → s.ppe.reprog = none → exec .slotTurn s =
      .next ((s.modPpe fun p => { p with reprog := some (some ⟨n, h⟩, s.time.work) }).bump .ppeReprograms)) ∧
    (∀ n since, s.ppe.reprog = some (n, since) → since + 2000 ≤ s.time.work → exec .reprogramDone s =
      .next (s.modPpe fun p => { p with reprog := none, active := n, activeSince := s.time.work })) ∧
    (∀ slot : SlotIx, s.ppe.slots[slot].loading ≠ none → s.ppe.state ≠ .calibrating → exec (.slotLoadDone slot) s =
      .next (s.modPpe fun p => { p with slots := p.slots.set slot { p.slots[slot] with loaded := true, loading := none } })) ∧
    (∀ est, s.ppe.state = .ready → exec (.driftUpdate est) s = .next (s.driftUpdate est)) ∧
    (∀ est, s.ppe.state = .ready → est ≤ 300 → exec (.driftUpdate est) s =
      .next (((s.modPpe fun p => { p with err := est, needDrift := false }).bump .ppeDriftUpdates).setCtr ⟨.ppeErrEstimate, 0, 0, 0⟩
        (BitVec.ofNat 64 est))) ∧
    (∀ pass dead, s.ppe.state = .calibrating → exec (.calibrationDone pass dead) s = .next (s.calibrated pass dead)) ∧
    (∀ dead, s.ppe.state = .calibrating → dead.length ≤ 4 → exec (.calibrationDone true dead) s =
      .next ((((s.bump .ppeCalibrations).modPpe fun p => { p with dead := dead }).modPpe fun p => { p with
        state := .ready, calFails := 0, needDrift := false }).finishZcp 0x0513 (fun _ => true) true .success [leBytes 1 0])) ∧
    (s.ppe.state = .ready → exec .switchover s = .next s.ppeSwitchover) ∧
    (s.ppe.state = .ready → s.ppe.onSpare = false → s.bays[10].lasers[1].failed = false →
        (s.bays[10].state = .active ∨ s.bays[10].state = .ramping) →
      exec .switchover s = .next (((s.modPpe fun p => { p with
        state := .switching, switching := s.clock, onSpare := true, darkRun := 0 }).bump .ppeSwitchovers).spareUp)) ∧
    (s.ppe.state = .switching → exec .switchoverLight s = .next (s.modPpe fun p => { p with state := .ready }))

/-- Collectives and the escrow of a switch (R386, R397 to R401, R403, R405). -/
def Obligations.EscrowEvents : Prop :=
  ∀ (s : State), s.working = true →
    (∀ group seq x c, s.ctx group seq = some x → x.issue = some c → x.written = true → x.held = false → x.out = [] →
        s.collLive group seq = false → (∀ y ∈ x.shares, y.held = false) →
      exec (.collComplete group seq) s = .next (s.completeColl x c)) ∧
    (∀ group seq x c, s.ctx group seq = some x → x.issue = some c → x.written = true → x.held = false → x.out = [] →
        s.collLive group seq = false → (∀ y ∈ x.shares, y.held = false) → x.nondet = false → c.cten = false →
      exec (.collComplete group seq) s = .next (((((s.collRecord x c 0 0).dropCtx x).bump .collCompleted).modJobTile x.job c.tile
        fun t => t.modFabMove c.id fun m => { m with state := .done }).collFrames)) ∧
    (∀ group seq x g c j, s.ctx group seq = some x → s.group group = some g → x.issue = some c → s.job x.job = some j →
        j.p.policy ≠ 2 → x.shares = [] → x.held = false → x.written = false → x.last + g.ctimeout ≤ s.time.work →
        (∀ t m, s.partOf j c.tile = some t → t.move c.id = some m → m.resumed = false) →
      let f : Suspend := { status := .collTimeout, addr := 0 }
      exec (.collTimeout group seq) s = .next ((((((s.bump .collTimeouts).collRecord x c 4 f.status.code).modCtx x.group x.seq fun x =>
          { x with held := true, failing := some f.status.code }).modJobTile x.job c.tile fun t => t.modFabMove c.id fun m =>
            { m with state := .suspended { f with since := s.time.work } }).fault (f.record {
              status := f.status, unit := 7, job := x.job, flags := 0x10, mv := some (c.tile, c.id) })))) ∧
    (∀ group seq x g, s.ctx group seq = some x → s.group group = some g → x.issue ≠ none → x.held = false →
        x.written = false → x.last + g.ctimeout ≤ s.time.work →
      exec (.collTimeout group seq) s = .next ((s.bump .collTimeouts).collFault x { status := .collTimeout, addr := 0 })) ∧
    (∀ (p : PortIx) key x g c y, s.ports[p].usable = true → s.escShare p key = some (x, g, c, y) → x.held = false →
      (∀ slots ordered, y.state = .requested → 1 ≤ slots → slots ≤ 32 →
        exec (.grant p key slots ordered) s = .next (s.granted p x g c y slots ordered)) ∧
      (y.state = .requested → y.refusals = 0 → let slots := max 1 (min 32 (ceilDiv (y.hi - y.lo) 4096))
        ceilDiv (y.hi - y.lo) (slots * 4096) ≤ 256 →
        let y' : Share := { y with slots := slots, ordered := true, held := true, state := .granted, round := 0 }
        let x' : Ctx := { x with shares := mapIf (fun z => z.port == p) (fun _ => y') x.shares }
        exec (.grant p key slots true) s = .next ((((s.bump .collEscGrants).modBook p fun b => { b with
          granted := b.granted + slots, held := b.held + slots }).modCtx x.group x.seq fun _ => x').escData g x' c y')) ∧
      (∀ slots ordered, y.state = .fallback → y.held = false → 1 ≤ slots → slots ≤ 32 →
        exec (.grant p key slots ordered) s = .next (s.lateGrant x y slots ordered)) ∧
      (∀ reason, y.state = .requested → 1 ≤ reason.toNat → reason.toNat ≤ 3 →
        exec (.refuse p key reason) s = .next ((s.bump .collEscRefusals).escRefused x c y)) ∧
      (∀ reason, y.state = .requested → 1 ≤ reason.toNat → reason.toNat ≤ 3 → c.policy = 0 →
        exec (.refuse p key reason) s = .next (((s.bump .collEscRefusals).modCtx x.group x.seq fun x => { x with
          fellBack := true }).modCtx x.group x.seq fun x => { x with shares := mapIf (fun z => z.port == y.port) (fun z => { z with
            state := .backoff (s.time.work + 1000 * 2 ^ min (y.refusals + 1) 6), refusals := z.refusals + 1, held := false }) x.shares })) ∧
      (∀ round offset payload, y.state = .granted → y.held = true → y.round = round.toNat → (∀ z ∈ y.got, z.1 ≠ 32 * offset) →
        exec (.result p key round offset payload) s = .next (s.resultIn p x g c y offset payload)) ∧
      (∀ round offset payload, y.state = .granted → y.held = true → y.round = round.toNat → (∀ z ∈ y.got, z.1 ≠ 32 * offset) →
        let got := (32 * offset, payload) :: y.got
        (got.map fun z => z.2.length).sum < ceilDiv (min (y.slots * 4096) (y.hi - (y.lo + y.round * y.slots * 4096))) 32 * 32 →
        exec (.result p key round offset payload) s = .next ((s.bump .collRxBytes 0 0 payload.length).modCtx x.group x.seq fun x =>
          { x with last := s.time.work, shares := mapIf (fun z => z.port == p) (fun z => { z with got := got }) x.shares })) ∧
      (∀ u, (u = s.bump .collEscFallbacks ∧ c.policy = 0 ∧ (y.state = .requested ∨ ∃ till, y.state = .backoff till) ∧
            y.first + g.escWait ≤ s.time.work ∨
          u = ((s.modCtx key.group key.seq fun x => { x with fellBack := true }).bump .collEscTimeouts).bump .collEscFallbacks ∧
            y.state = .granted ∧ y.held = true ∧ y.sentAt + g.escTimeout ≤ s.time.work) → y.refusals = 0 →
        let keep := y.lo + y.result.length
        let part : Part := ⟨keep / c.eb, if c.op = 6 then keep / c.eb else y.hi / c.eb, 0, false, x.vals, false⟩
        exec (if y.state = .granted then .escTimeout p key else .escWaitExpiry p key) s = .next (((u.escRelease x y).modCtx x.group x.seq
          fun x => { x with
            fellBack := true
            parts := x.parts ++ [part]
            shares := mapIf (fun z => z.port == y.port)
              (fun z => if z.result.isEmpty then { z with state := .fallback, held := false }
                else { z with state := .done, hi := keep, held := false }) x.shares }).collRun x.group x.seq)) ∧
      (∀ till, c.policy = 0 → y.state = .backoff till → y.first + g.escWait ≤ s.time.work →
        exec (.escWaitExpiry p key) s = .next ((s.bump .collEscFallbacks).escFallback x y)) ∧
      (c.policy = 0 → y.state = .requested → y.first + g.escWait ≤ s.time.work →
        exec (.escWaitExpiry p key) s = .next ((s.bump .collEscFallbacks).escFallback x y)) ∧
      (∀ till, y.state = .backoff till → till ≤ s.time.work → exec (.escrowBackoff p key) s =
        .next ((s.modCtx key.group key.seq fun x => { x with
          shares := mapIf (fun z => z.port == p) (fun z => { z with state := .requested }) x.shares }).escRequest g x c y)) ∧
      (y.state = .granted → y.held = true → y.sentAt + g.escTimeout ≤ s.time.work → exec (.escTimeout p key) s =
        .next ((((s.modCtx key.group key.seq fun x => { x with fellBack := true }).bump .collEscTimeouts).bump
          .collEscFallbacks).escFallback x y))) ∧
    (∀ (p : PortIx) key, s.ports[p].usable = true →
      ((∀ z ∈ s.coll.books[p].releasing, z.1 ≠ key) → exec (.released p key) s = .next (s.bump .collEscStale)) ∧
      (∀ z, (s.coll.books[p].releasing.find? fun z => z.1 == key) = some z → exec (.released p key) s =
        .next (s.modBook p fun b => { b with
          granted := b.granted - z.2, requested := b.requested - z.2, releasing := b.releasing.erase z })) ∧
      (∀ slots, s.escShare p key = none → 1 ≤ slots → slots ≤ 32 → exec (.grant p key slots true) s =
        .next ((((s.bump .collEscGrants).escSend p key { eop := 6 } []).modBook p fun b => { b with
          granted := b.granted + slots, requested := b.requested + slots, releasing := b.releasing ++ [(key, slots)] }))))

/-- The events of the host interfaces (R407, R409 to R412, R421 to R428). -/
def Obligations.HostInterfaceEvents : Prop :=
  ∀ (s : State) (i : IfIx), s.live = true → s.ifaceExists i = true →
    (s.host.ifaces[i].up = true →
      (∀ f, exec (.frameReceived i f) s = .next (s.ethFrameIn i f)) ∧
      (∀ f, f.fcsOk = true → f.bytes ≤ 9216 →
        let h := (portOfIf i).val
        let u := (((s.bump .hostRxFrames h).bump .hostRxBytes h 0 f.bytes).bump .hostFecCorrected h 0 f.fecCorrected).bump
          .hostFecUncorrectable h 0 f.fecUncorrectable
        let k := frameKind s.host.mgmtPort f
        (k = .pause → exec (.frameReceived i f) s = .next (u.bump .hostRxPauseDiscarded h)) ∧
        (k = .ptp → exec (.frameReceived i f) s = .next (u.bump .hostRxPtp h)) ∧
        (k = .control → exec (.frameReceived i f) s = .next (u.bump .hostRxControl h)) ∧
        (k = .roce → s.dbg.frozen = false → exec (.frameReceived i f) s = .next (u.bump .hostRxRoce h)) ∧
        (k = .zcp → exec (.frameReceived i f) s = .next ((u.bump .hostRxZcp h).zcpPacketIn f.src f.data)) ∧
        (k = .other → exec (.frameReceived i f) s = .next (u.bump .hostRxUnclaimed h)) ∧
        (k = .fragment → exec (.frameReceived i f) s = .next (u.bump .hostRxFragment h))) ∧
      (∀ stamp : BitVec 64, ((stamp.toNat : Int) - s.now.toNat).natAbs ≤ 32 →
        exec (.ptpMessage i stamp) s = .next (s.modHostPort (portOfIf i) fun p => { p with ptpStamp := some stamp })) ∧
      (∀ a, s.host.ifaces[i].ipv4 = [] → exec (.controlFrame i (some a)) s = .next (s.setAddr i 0 (some (a.setWidth 128)))) ∧
      ((s.host.ports[portOfIf i].answered.filter fun t => s.clock < t + 1000000000).length < 10000 →
        exec (.controlFrame i none) s = .next ((s.modHostPort (portOfIf i) fun p => { p with
          answered := s.clock :: s.host.ports[portOfIf i].answered.filter fun t => s.clock < t + 1000000000 }).emit
          (.net i .controlReply))) ∧
      (s.host.ports[portOfIf i].dark = none →
        exec (.hostLinkChange i false) s = .next (s.modIface i fun x => { x with up := false }))) ∧
    (∀ ix addr, exec (.addressChange i ix addr) s = .next (s.setAddr i ix addr)) ∧
    (s.host.ifaces[i].up = false → s.bays[if (portOfIf i).val < 2 then (8 : BayIx) else 9].state = .active →
      exec (.hostLinkChange i true) s = .next
        (let t := s.modIface i fun x => { x with up := true }
         (t.host.qps.filter fun q => q.p.iface == i).foldl (fun s q => s.workQp q.qpn) t)) ∧
    (∀ (h : HostIx) pause, s.host.ports[h].pfc ≠ [] → exec (.pfcFrame h pause) s = .next (s.pfcIn h pause)) ∧
    (∀ (h : HostIx) (k : Fin 8) pause, s.host.ports[h].pfc = [k] → pause.getLsbD k.val = true → s.host.ports[h].paused[k] = none →
        s.host.ports[h].stormed[k] = false →
      exec (.pfcFrame h pause) s = .next (((s.modHostPort h fun p => { p with paused := p.paused.set k (some s.clock) }).bump
        .hostPfcRxXoff h.val).releaseTx h)) ∧
    (∀ (h : HostIx) (k : Fin 8) t, s.host.ports[h].paused[k] = some t → t + 1000000 * s.host.ports[h].watchdogMs < s.clock →
        s.host.ports[h].stormed[k] = false →
      exec (.pfcWatchdog h k) s = .next ((((s.modHostPort h fun p => { p with stormed := p.stormed.set k true }).setFlag
        .hostPfcStorm 5 (4 * h.val)).bump .hostPfcWatchdog h.val).releaseTx h))

/-- The events of queue pairs (R414, R415, R421 to R425). -/
def Obligations.QueuePairEvents : Prop :=
  ∀ (s : State) (n : Nat) (q : Qp), s.working = true → s.qp n = some q →
    (∀ r : RoceReq, r.qpn = n → s.host.ifaces[q.p.iface].up = true → (q.state = .rtr ∨ q.state = .rts) →
        r.payload.length = (if r.op = .read ∨ r.op = .atomic then 0 else r.len) →
      exec (.roceRequest q.p.iface r) s = .next (s.roceIn q r)) ∧
    (∀ (r : RoceReq) j u, r.qpn = n → s.host.ifaces[q.p.iface].up = true → (q.state = .rtr ∨ q.state = .rts) →
        r.payload.length = r.len → r.op = .write → r.ce = false → r.psn = q.recvPsn → q.beyond = [] → s.job q.job = some j →
        ((s.memRegion q.job r.rkey).map fun m => m.allows r.va.toNat r.len 1) = some true →
        s.hubWrite j r.va.toNat r.payload = (u, none) →
      exec (.roceRequest q.p.iface r) s = .next ((u.sendNet q (.ack q.p.dstQpn (r.psn + BitVec.ofNat 24 (psnsOf q.p r.len - 1))) 1 0).modQp n
        fun q => { q with recvPsn := q.recvPsn + BitVec.ofNat 24 (psnsOf q.p r.len), gapNak := false })) ∧
    (q.state = .rts →
      (s.host.ifaces[q.p.iface].up = true →
        (∀ a, exec (.roceAck n a) s = .next (s.roceAnswer n a)) ∧ exec (.cnp n) s = .next (s.cnpIn n)) ∧
      (s.host.ifaces[q.p.iface].up = true → ∀ w psn rtt, q.sent = [w] → w.resent = true → w.op = .write → w.signalled = false →
          (psn - (w.psn + BitVec.ofNat 24 (w.psns - 1))).toNat < 2 ^ 23 →
        exec (.roceAck n (.ack psn rtt)) s = .next (((s.modQp n fun q => { q with retries := 0, rnrs := 0 }).modQp n fun q => { q with
          sent := q.sent.filter fun x => x.index != w.index }).workQp n)) ∧
      (s.host.ifaces[q.p.iface].up = true →
        let g : Rat := 1 / s.host.ports[portOfIf q.p.iface].gInv
        let a := (1 - g) * q.alpha + g
        exec (.cnp n) s = .next ((s.bump .rdmaCnpRx).modQp n fun q => { q with
          alpha := a, rate := rateBound (q.rate * (1 - a / 2)), lastCnpRx := s.time.work })) ∧
      (∀ j u bs, q.p.poll = true → 64 * q.polled + max 256000 (1000 *
          (s.host.qps.filter fun x => x.p.poll && portOfIf x.p.iface == portOfIf q.p.iface).length) ≤ 64 * s.time.work →
          s.job q.job = some j →
          (s.modQp n fun q => { q with polled := s.time.work }).hubRead j q.p.doorbell.toNat 8 = (u, .ok bs) →
        exec (.doorbellPoll n) s = .next ((u.modQp n fun q => { q with sqProd := leNat bs % 2 ^ 32 }).workQp n)) ∧
      (q.p.poll = true → 64 * q.polled + max 256000 (1000 *
          (s.host.qps.filter fun x => x.p.poll && portOfIf x.p.iface == portOfIf q.p.iface).length) ≤ 64 * s.time.work →
        exec (.doorbellPoll n) s = .next (s.doorbell n)) ∧
      (∀ w, q.p.timeout ≠ 0 → q.rnrWait = false → q.sent.head? = some w → w.last + 4096 * 2 ^ q.p.timeout.toNat ≤ s.time.work →
        exec (.localAckTimeout n) s = .next (s.retryQp n w.psn none)) ∧
      (∀ w j, q.p.timeout ≠ 0 → q.rnrWait = false → q.sent = [w] → w.last + 4096 * 2 ^ q.p.timeout.toNat ≤ s.time.work →
          q.retries < q.p.retry.toNat → s.job q.job = some j → s.host.ifaces[q.p.iface].up = true → s.hostDrains q.p.iface = false →
          w.op = .read → 1 ≤ w.psns → w.psns ≤ 2 ^ 23 →
        let u := s.modQp n fun q => { q with retries := q.retries + 1 }
        exec (.localAckTimeout n) s = .next (((u.bump .rdmaRetransmits 0 0 1).sendNet { q with retries := q.retries + 1 }
          (.request q.p.dstQpn (w.psn + 0#24) .read w.rkey (w.raddr + 0#64) w.len w.imm []) 1 0).modQp n fun q => { q with
            sent := mapIf (fun x => x.index == w.index) (fun x => { x with resent := true, last := s.time.work }) q.sent })) ∧
      (q.rnrWait = true → exec (.rnrTimer n) s = .next (((s.modQp n fun q => { q with rnrWait := false }).resendFrom n
        ((q.sent.head?.map SentWqe.psn).getD 0) none).workQp n)) ∧
      (q.lastCnpRx + 50000 ≤ s.time.work →
        let h := s.host.ports[portOfIf q.p.iface]
        let g : Rat := 1 / h.gInv
        exec (.rateTimer n) s = .next (s.modQp n fun q => { q with
          alpha := (1 - g) * q.alpha, rate := rateBound (q.rate + (h.rai : Rat) / 1000), lastCnpRx := s.time.work })))

/-- The events of sensors, limits, voltages and the input (R482 to R488, R491 to R494). -/
def Obligations.ThermalAndPowerEvents : Prop :=
  ∀ (s : State), s.live = true →
    (∀ r readings, exec (.sensorSample r readings) s = .next (s.sampleRegion r readings)) ∧
    (∀ r readings t, let k := regionIx r
      let v := s.modRegion k fun r => { r with
        sensors := r.sensors.zipIdx.map fun (x, i) => if x.state = .good then x.sample s.clock ((readings[i]?).getD none) else x }
      let u := (List.range (sensorsOf k)).foldl (fun u i =>
        u.judgeSensor k i (((s.region k).sensors[i]?.map Sensor.state).getD .failed) ((readings[i]?).getD none).isSome) v
      u.live = true → u.temp k = some t → t < (thresholds k).2.2 →
      exec (.sensorSample r readings) s = .next ((((u.judgeWarning k t).judgeThrottle k t).judgeRate k t).holdCheck k)) ∧
    (∀ (d : DieIx) (i : Fin 16), (s.region (16 * d.val + i.val)).stepped + 1000000 ≤ s.clock →
      exec (.thermalLimitStep d i) s = .next ((s.modRegion (16 * d.val + i.val) fun r => { r with
      stepped := s.clock
      limit := if s.atThrottle (16 * d.val + i.val) then r.limit - 1 else if r.throttled || r.held then r.limit
        else min 25 (r.limit + 1) }).holdCheck
      (16 * d.val + i.val))) ∧
    (s.power.hubStepped + 1000000 ≤ s.clock → ((List.range 4).any fun q => s.atThrottle (120 + q)) = true →
      exec .hubThrottleStep s = .next { s with power := { s.power with hubStepped := s.clock, hubDrop :=
        if 650 + 10 * (s.power.hubDrop + 1) ≤ Config.hubMv then s.power.hubDrop + 1 else s.power.hubDrop } }) ∧
    (s.power.hubStepped + 1000000 ≤ s.clock → ((List.range 4).any fun q => s.atThrottle (120 + q)) = false → ((List.range 4).any fun q => (s.region (120 + q)).throttled) = false →
      exec .hubThrottleStep s = .next { s with power := { s.power with hubStepped := s.clock, hubDrop := s.power.hubDrop - 1 } }) ∧
    (∀ (d : DieIx) (r : Fin 16) v, s.power.volt.toArray[16 * d.val + r.val]? = some v →
      exec (.voltageStepDone d r) s = .next
        (let v' := if s.voltTarget (16 * d.val + r.val) < v then v - 1 else if v < s.voltTarget (16 * d.val + r.val) then v + 1 else v
         ({ s with power := { s.power with volt := s.power.volt.setIfInBounds (16 * d.val + r.val) v' } } : State).holdCheck
           (16 * d.val + r.val))) ∧
    (∀ mw mv, s.power.sampled + 100000 ≤ s.clock → exec (.powerSample mw mv) s = .next (s.samplePower mw mv)) ∧
    (∀ mw mv, s.power.sampled + 100000 ≤ s.clock →
      let v := s.countInput mw mv
      let u : State := { v with
        board := { v.board with vin := mv }
        power := { v.power with samples := (mw :: v.power.samples).take 10000, sampled := v.clock } }
      (1000 * s.power.cap < mw → exec (.powerSample mw mv) s = .next
        (let w := (u.bump .pwrCapActs).setFlag .powerCapped 0 0
         { w with power := { w.power with
            limit := min w.power.limit w.topVoltage - min 8 (ceilDiv (mw - 1000 * s.power.cap) 100000)
            overCount := w.power.overCount + 1, underCount := 0
            capHold := w.power.capHold || w.power.overCount + 1 ≥ 100 } })) ∧
      (mw ≤ 1000 * s.power.cap → 1000 * s.power.cap < mw + 100000 → exec (.powerSample mw mv) s =
        .next { u with power := { u.power with overCount := 0, capHold := u.power.capHold && u.dbg.frozen, underCount := 0 } })) ∧
    (s.power.ocHold = false → exec .overcurrent s =
      .next (({ s with power := { s.power with ocHold := true, ocSince := s.clock } } : State).bump .pwrOvercurrentHolds)) ∧
    (s.power.ocHold = true → s.dbg.frozen = false → s.power.ocSince + 100000 ≤ s.clock → exec .overcurrentRelease s =
      .next { s with power := { s.power with ocHold := false } })

/-- The exchanges of time (R495, R497 to R499). -/
def Obligations.TimeEvents : Prop :=
  ∀ (s : State), s.live = true →
    (∀ mask p, s.time.source = .mfp mask → s.askPort = some p → s.time.asked + 1000000 ≤ s.clock → ∃ t, exec .timeExchange s = .next t ∧
      t.time.pending = some (p, s.clock, s.time.global) ∧ t.time.asked = s.clock ∧ t.time.probe = p.val ∧ t.time.global = s.time.global ∧
      t.fab.inject.length = s.fab.inject.length + 1 ∧
      { t with time := s.time, fab := { t.fab with inject := s.fab.inject }, counters := s.counters } = s) ∧
    (∀ p sent t1 t2 stratum, s.time.pending = some (p, sent, t1) → s.clock ≤ sent + 100000 → s.time.upstream = some p →
        ((t1.toNat : Int) + (s.ports[p].roundTrip / 2 : Nat) - t2.toNat).natAbs ≤ 1600 →
      exec (.pingReply t1 t2 1 stratum) s = .next
        (((s.modTime fun x => { x with
            pending := none, lastExchange := s.clock, miss := 0
            known := (p, 1, stratum) :: x.known.filter fun k => k.1 != p }).correct
              ((t1.toNat : Int) + (s.ports[p].roundTrip / 2 : Nat) - t2.toNat)).judgeSync
            ((t1.toNat : Int) + (s.ports[p].roundTrip / 2 : Nat) - t2.toNat) 32 8 (stratum.toNat + 1))) ∧
    (∀ mask p sent t1, s.time.source = .mfp mask → s.time.pending = some (p, sent, t1) → sent + 100000 ≤ s.clock →
        s.time.miss < 9 →
      exec .missedExchange s = .next ((s.modTime fun t => { t with pending := none, miss := t.miss + 1 }).bump .timeMissed)) ∧
    (∀ mask p sent t1, s.time.source = .mfp mask → s.time.pending = some (p, sent, t1) → sent + 100000 ≤ s.clock →
        9 ≤ s.time.miss →
      exec .missedExchange s =
        .next ((s.modTime fun t => { t with pending := none, miss := t.miss + 1 }).bump .timeMissed).newUpstream) ∧
    (∀ i (offset : Int), s.time.source = .ptp i → offset.natAbs ≤ 1600 → exec (.ptpSync offset) s =
      .next ((((s.modTime fun t => { t with miss := 0, lastExchange := s.clock }).bump .timeExchanges).correct offset).judgeSync
        offset 320 16 0))

/-- The transport of the control protocol (R434 to R440, R444, R445, R448): a request that may not start at once waits, or
is answered BUSY when 64 wait. -/
def Obligations.ControlTransport : Prop :=
  ∀ (s : State), s.live = true →
    (∀ src pkt, s.accepts src = true → (leNat (pkt.take 2) ≠ 0x5A4D ∨ pkt.length < 32) →
      exec (.zcpFragment src pkt) s = .next (s.bump .zcpRxBadMagic)) ∧
    (∀ src pkt, s.accepts src = true → leNat (pkt.take 2) = 0x5A4D → 32 ≤ pkt.length → (zcpHead pkt).flags % 4 = 0 →
      filterAllows s.zcp.filter src = true → ((zcpHead pkt).ver = 1 ∨ (zcpHead pkt).ver = 2) →
      (zcpHead pkt).flags / 8 = 0 →
      (zcpHead pkt).len = (zcpHead pkt).body.length → (zcpHead pkt).frag = 0 → (zcpHead pkt).nfrag = 1 →
      exec (.zcpFragment src pkt) s = .next (s.arrivesZcp src (zcpHead pkt) (zcpHead pkt).body)) ∧
    (∀ src pkt, s.accepts src = true → leNat (pkt.take 2) = 0x5A4D → 32 ≤ pkt.length → (zcpHead pkt).flags % 4 = 0 →
      (zcpHead pkt).flags / 8 = 0 → filterAllows s.zcp.filter src = true →
      let h := zcpHead pkt
      let t := s.touchSource src
      h.len = h.body.length →
      ((h.ver = 1 ∨ h.ver = 2) → h.frag = 0 → h.nfrag = 1 → s.zcp.inHand src h.seq = none → s.zcp.cached src h.seq = none →
        h.body.length ≤ 65536 → (s.zcp.waiting.filter fun w => w.started.isNone).length < 64 →
        let w : Waiting :=
          { src := src, seq := h.seq, op := h.op, target := targetOf h.target, ver2 := h.ver == 2, tag := h.tag
            maxReply := h.maxReply, bytes := h.body, started := none }
        encodingRefusal w = none → exec (.zcpFragment src pkt) s =
          .next ({ t with zcp := { t.zcp with waiting := t.zcp.waiting ++ [w] } } : State).startQueued) ∧
      (h.ver = 2 → h.frag < h.nfrag → 2 ≤ h.nfrag → (∀ x ∈ s.zcp.reassembly, x.src = src → x.seq ≠ h.seq) →
        s.zcp.reassembly.length < 16 → exec (.zcpFragment src pkt) s = .next { s with zcp := { s.zcp with
          reassembly := s.zcp.reassembly ++ [{ src := src, seq := h.seq, op := h.op, target := BitVec.ofNat 32 h.target
                                               nfrag := h.nfrag, first := s.clock, frags := [(h.frag, h.body)] }] } })) ∧
    (∀ src pkt, s.accepts src = true → leNat (pkt.take 2) = 0x5A4D → 32 ≤ pkt.length → (zcpHead pkt).flags % 4 = 0 →
      filterAllows s.zcp.filter src = false → exec (.zcpFragment src pkt) s = .next (s.bump .zcpFiltered)) ∧
    (∀ c u, zcpRow c = some u → s.accepts u.req.src = true → filterAllows s.zcp.filter u.req.src = true →
      s.zcp.inHand u.req.src u.req.seq = none → s.zcp.cached u.req.src u.req.seq = none → s.zcp.takes (u.inHand s) = false →
      let t := s.touchSource u.req.src
      let queued := (s.zcp.waiting.filter fun x => x.started.isNone).length
      (64 ≤ queued →
        exec c s = .next ((t.bump .zcpBusy).sendReply u.req.src ((u.inHand s).head .busy [] 0) u.req.maxReply 0 [])) ∧
      (queued < 64 → exec c s = .next
        { t with zcp := { t.zcp with waiting := t.zcp.waiting ++ [{ u.inHand s with started := none }] } })) ∧
    (∀ src seq x, x ∈ s.zcp.reassembly → x.src = src → x.seq = seq → x.first + 1000000000 ≤ s.clock →
      ∃ t, exec (.reassemblyTimeout src seq) s = .next t ∧ x ∉ t.zcp.reassembly ∧
        t.ctr ⟨.zcpRxReassemblyTimeout, 0, 0, 0⟩ = s.ctr ⟨.zcpRxReassemblyTimeout, 0, 0, 0⟩ + 1 ∧
        { t with zcp := { t.zcp with reassembly := s.zcp.reassembly }, counters := s.counters } = s) ∧
    (∀ src seq w t, s.zcp.inHand src seq = some w → w.started = some t → t + 100000000 + 1000000000 * w.interims ≤ s.clock →
      exec (.interimReply src seq) s = .next
        (let u := s.sendReply src (w.head .inProgress [] 0) w.maxReply 0 []
         let ws := mapIf (fun (x : Waiting) => x.src == src && x.seq == seq) (fun x => { x with interims := x.interims + 1 })
           u.zcp.waiting
         { u with zcp := { u.zcp with waiting := ws } })) ∧
    (∀ h till, s.zcp.lock = some (h, till) → till ≤ s.clock →
      exec .lockExpiry s = .next (({ s with zcp := { s.zcp with lock := none } } : State).event .lock {} [2]))

/-- Every code of a number format that stands for a finite value converts to itself, under every rounding rule, with nothing
lost and nothing saturated (R79 to R83, R89 to R91): FP32, FP16, BF16, the five small floating formats, the integers, E8M0,
and T2 but for its second code of 0. -/
def Obligations.NumberFormatsRoundTrip : Prop :=
  ∀ (f : Fmt) (c : Nat) (r : Rnd) (sat : Bool) (anchor : Int) (neg : Bool) (m : Nat) (e : Int),
    f ≠ .ax96 → f ≠ .pa6 → c < 2 ^ f.width → (f = .t2 → c ≠ 2) → f.decode c = .fin neg m e →
    f.encode r sat anchor (.fin neg m e) = (c, {})

/-- What RESET_N, a firmware watchdog and MODULE_RESTART keep and lose (R31, R462, R463): flash, fuses, the rails, SLOT_ID as
sampled, the mask ROM's measurement and the THERMTRIP_N latch stay; jobs, memory, counters, flags, events, listeners,
replays, the lock, the plan and the state of every tile, port and stack are lost. -/
def Obligations.RestartKeepsAndLoses : Prop :=
  ∀ (s : State),
    let t := s.resetLogic
    t.flash = s.flash ∧ t.board.rails = true ∧ t.board.slotId = s.board.slotId ∧ t.sec.rom = s.sec.rom ∧
    t.board.thermtrip = s.board.thermtrip ∧ t.board.pgood = s.board.pgood ∧ t.pending = s.pending ∧ t.clock = s.clock ∧
    t.mem = [] ∧ t.poison = [] ∧ t.tiles = [] ∧ t.jobs = [] ∧ t.counters = [] ∧ t.zcp = {} ∧ t.faultQ = [] ∧ t.fab = {} ∧
    t.coll = {} ∧ t.host = {} ∧ t.ppe = {} ∧ t.dbg = {} ∧ t.boot = { startT := s.clock } ∧ t.time = {} ∧ t.power = {} ∧
    (∀ p : PortIx, t.ports[p] = {}) ∧ (∀ m : StackIx, t.hbm[m] = {}) ∧ (∀ b : BayIx, t.bays[b] = {})
end

