-- ==== Sys2Proof/Laws/Catalogue.lean ====
section
/-! SUPPORT. The counter catalogue: how many IDs there are, and that every counter the spec names has one (R522, R523). -/

namespace Sys2Proof.Machine

/-- IDs that the counter at a place of the order takes. -/
def Config.idsAt (k : Nat) : Nat := (namedCounters[k]?.map fun c => if c.1.kind = 1 then 8 else 1).getD 1

theorem sum_ones (n : Nat) (f : Nat → Nat) (a : Nat) (h : ∀ k, a ≤ k → f k = 1) :
    ((List.range' a n).map f).sum = n := by
  induction n generalizing a with
  | zero => rfl
  | succ n ih =>
    rw [List.range'_succ, List.map_cons, List.sum_cons, h a (le_refl _), ih (a + 1) fun k hk => h k (by omega)]
    omega

theorem namedCounters_length : namedCounters.length = 3630 := by decide +kernel

theorem map_places {α β : Type} (l : List α) (f : α → β) (b : β) :
    (List.range l.length).map (fun k => (l[k]?.map f).getD b) = l.map f := by
  apply List.ext_getElem
  · simp
  · intro k h1 h2
    simp only [List.length_map, List.length_range] at h1
    simp [List.getElem?_eq_getElem h1]

theorem named_ids : (namedCounters.map fun c => if c.1.kind = 1 then 8 else 1).sum = 5233 := by decide +kernel

theorem idsAt_named : ((List.range namedCounters.length).map Config.idsAt).sum = 5233 := by
  unfold Config.idsAt
  rw [map_places]
  exact named_ids

/-- The module holds 22,000 to 26,000 counter IDs (R523). -/
theorem numCounters_eq : Config.numCounters = 22000 + Config.moreCounters.val := by
  have h1 : Config.numCounters = ((List.finRange (20397 + Config.moreCounters.val)).map fun k => Config.idsAt (Config.idOrder k).val).sum := by
    unfold Config.numCounters Config.catalogue
    rw [List.length_flatMap]
    congr 1
    apply List.map_congr_left
    intro k _
    unfold Config.idsAt
    cases namedCounters[(Config.idOrder k).val]? <;> simp
  have h2 := ((Equiv.Perm.map_finRange_perm Config.idOrder).map fun (k : Fin _) => Config.idsAt k.val).sum_eq
  rw [List.map_map] at h2
  rw [h1, show (fun k => Config.idsAt (Config.idOrder k).val) = (fun (k : Fin _) => Config.idsAt k.val) ∘ Config.idOrder from rfl, h2]
  have h3 : (List.finRange (20397 + Config.moreCounters.val)).map (fun k => Config.idsAt k.val) =
      (List.range (20397 + Config.moreCounters.val)).map Config.idsAt := by
    rw [← List.map_coe_finRange_eq_range, List.map_map]; rfl
  rw [h3, List.range_eq_range', show 20397 + Config.moreCounters.val = 3630 + (16767 + Config.moreCounters.val) by omega,
    ← List.range'_append_1, List.map_append, List.sum_append, ← List.range_eq_range']
  have h4 := idsAt_named
  rw [namedCounters_length] at h4
  rw [h4, sum_ones _ _ _ fun k hk => ?_]
  · omega
  · have : namedCounters[k]? = none := List.getElem?_eq_none (by rw [namedCounters_length]; omega)
    simp [Config.idsAt, this]

/-- Every counter that the spec names, with every bin of a histogram, has an ID (R523). -/
theorem named_has_id (c : CtrId) (i j b : Nat) (h : (c, i, j) ∈ namedCounters) (hb : b < (if c.kind = 1 then 8 else 1)) :
    ∃ id, id < Config.numCounters ∧ Config.counterOfId id = some ⟨c, i, j, b⟩ := by
  obtain ⟨k, hk, he⟩ := List.mem_iff_getElem.1 h
  have hk' : k < 20397 + Config.moreCounters.val := by rw [namedCounters_length] at hk; omega
  have hm : some ⟨c, i, j, b⟩ ∈ Config.catalogue := by
    unfold Config.catalogue
    rw [List.mem_flatMap]
    refine ⟨Config.idOrder.symm ⟨k, hk'⟩, List.mem_finRange _, ?_⟩
    simp only [Equiv.apply_symm_apply, List.getElem?_eq_getElem hk, he]
    exact List.mem_map.2 ⟨b, List.mem_range.2 hb, rfl⟩
  obtain ⟨id, hid, hg⟩ := List.mem_iff_getElem.1 hm
  exact ⟨id, hid, by simp [Config.counterOfId, List.getElem?_eq_getElem hid, hg]⟩

end Sys2Proof.Machine
end

