-- ==== Sys2Proof/Laws/Memory.lean ====
section
/-! SUPPORT. Memory: every operation keeps the one canonical form, and a read after a write, after a run of writes and
after the zeroing of a range. -/

namespace Sys2Proof.Machine

theorem Memory.wf_cons (c : Host.Cell) (m : List Host.Cell) :
    Memory.wf (c :: m) = true ↔ c.2 ≠ 0 ∧ (∀ d ∈ m, c.1 < d.1) ∧ Memory.wf m = true := by
  induction m generalizing c with
  | nil => simp [Memory.wf]
  | cons d m ih =>
    have h : Memory.wf (c :: d :: m) = (c.2 != 0 && decide (c.1 < d.1) && Memory.wf (d :: m)) := rfl
    simp only [h, Bool.and_eq_true, bne_iff_ne, decide_eq_true_eq, List.mem_cons, forall_eq_or_imp]
    constructor
    · rintro ⟨⟨h0, h1⟩, h2⟩
      exact ⟨h0, ⟨h1, fun e he => lt_trans h1 (((ih d).1 h2).2.1 e he)⟩, h2⟩
    · rintro ⟨h0, ⟨h1, _⟩, h2⟩
      exact ⟨⟨h0, h1⟩, h2⟩

/-- Memory with nothing listed has the canonical form; so has memory at reset. -/
theorem Memory.wf_nil : Memory.wf [] = true := rfl

theorem Memory.wf_reset : Memory.wf State.reset.mem = true := rfl

/-- What memory lists after a write: the byte written, or what was listed. -/
theorem Memory.mem_write {m : List Host.Cell} {a : Nat} {b : Byte} {d : Host.Cell} (h : d ∈ Memory.write m a b) :
    d = (a, b) ∨ d ∈ m := by
  induction m with
  | nil => simp only [Memory.write] at h; split at h <;> simp_all
  | cons c m ih =>
    simp only [Memory.write] at h
    split_ifs at h <;> simp only [List.mem_cons] at h ⊢ <;> tauto

theorem Memory.wf_write {m : List Host.Cell} (h : Memory.wf m = true) (a : Nat) (b : Byte) :
    Memory.wf (Memory.write m a b) = true := by
  induction m with
  | nil => by_cases hb : b = 0#8 <;> simp [Memory.write, Memory.wf, hb]
  | cons c m ih =>
    obtain ⟨h0, h1, h2⟩ := (Memory.wf_cons c m).1 h
    simp only [Memory.write]
    split_ifs with ha hb hlt hb
    · exact h2
    · exact (Memory.wf_cons _ _).2 ⟨hb, fun d hd => ha ▸ h1 d hd, h2⟩
    · exact h
    · refine (Memory.wf_cons _ _).2 ⟨hb, fun d hd => ?_, h⟩
      rcases List.mem_cons.1 hd with rfl | hd
      · exact hlt
      · exact lt_trans hlt (h1 d hd)
    · refine (Memory.wf_cons _ _).2 ⟨h0, fun d hd => ?_, ih h2⟩
      rcases Memory.mem_write hd with rfl | hd
      · show c.1 < a
        omega
      · exact h1 d hd

theorem Memory.wf_writeN {m : List Host.Cell} (h : Memory.wf m = true) (a : Nat) (bs : List Byte) :
    Memory.wf (Memory.writeN m a bs) = true := by
  induction bs generalizing m a with
  | nil => exact h
  | cons b bs ih => exact ih (Memory.wf_write h a b) (a + 1)

theorem Memory.wf_filter {m : List Host.Cell} (h : Memory.wf m = true) (p : Host.Cell → Bool) :
    Memory.wf (m.filter p) = true := by
  induction m with
  | nil => exact h
  | cons c m ih =>
    obtain ⟨h0, h1, h2⟩ := (Memory.wf_cons c m).1 h
    rw [List.filter_cons]
    split
    · exact (Memory.wf_cons _ _).2 ⟨h0, fun d hd => h1 d (List.mem_filter.1 hd).1, ih h2⟩
    · exact ih h2

theorem Memory.wf_zero {m : List Host.Cell} (h : Memory.wf m = true) (a n : Nat) : Memory.wf (Memory.zero m a n) = true :=
  Memory.wf_filter h _

/-- An address below every listed one reads 0. -/
theorem Memory.read_below {m : List Host.Cell} {a : Nat} (h : ∀ d ∈ m, a < d.1) : Memory.read m a = 0 := by
  cases m with
  | nil => rfl
  | cons c m =>
    have := h c (List.mem_cons_self ..)
    simp only [Memory.read]
    rw [if_neg (by omega), if_pos this]

theorem Memory.read_write_same {m : List Host.Cell} (h : Memory.wf m = true) (a : Nat) (b : Byte) :
    Memory.read (Memory.write m a b) a = b := by
  induction m with
  | nil => by_cases hb : b = 0#8 <;> simp [Memory.write, Memory.read, hb]
  | cons c m ih =>
    obtain ⟨_, h1, h2⟩ := (Memory.wf_cons c m).1 h
    simp only [Memory.write]
    split_ifs with ha hb hlt hb
    · rw [hb]; exact Memory.read_below fun d hd => ha ▸ h1 d hd
    · simp [Memory.read]
    · rw [hb, Memory.read, if_neg ha, if_pos hlt]
    · simp [Memory.read]
    · rw [Memory.read, if_neg ha, if_neg hlt]; exact ih h2

theorem Memory.read_write_other {m : List Host.Cell} (h : Memory.wf m = true) {a x : Nat} (hx : x ≠ a) (b : Byte) :
    Memory.read (Memory.write m a b) x = Memory.read m x := by
  induction m with
  | nil =>
    by_cases hb : b = 0#8
    · simp [Memory.write, hb]
    · simp [Memory.write, Memory.read, hb, Ne.symm hx]
  | cons c m ih =>
    obtain ⟨_, h1, h2⟩ := (Memory.wf_cons c m).1 h
    simp only [Memory.write]
    split_ifs with ha hb hlt hb
    · rw [Memory.read, if_neg (by omega)]
      split_ifs with hl
      · exact Memory.read_below fun d hd => lt_trans hl (h1 d hd)
      · rfl
    · simp [Memory.read, ha, Ne.symm hx]
    · rfl
    · rw [Memory.read, if_neg (Ne.symm hx)]
      split_ifs with hl
      · rw [Memory.read, if_neg (by omega), if_pos (by omega)]
      · rfl
    · rw [Memory.read, Memory.read, ih h2]

/-- A byte outside the bytes written is unchanged; one inside them is the byte written there. -/
theorem Memory.read_writeN_outside {m : List Host.Cell} (h : Memory.wf m = true) {a x : Nat} {bs : List Byte}
    (hx : x < a ∨ a + bs.length ≤ x) : Memory.read (Memory.writeN m a bs) x = Memory.read m x := by
  induction bs generalizing m a with
  | nil => rfl
  | cons b bs ih =>
    simp only [List.length_cons] at hx
    exact (ih (Memory.wf_write h a b) (by omega)).trans (Memory.read_write_other h (by omega) b)

theorem Memory.read_writeN_inside {m : List Host.Cell} (h : Memory.wf m = true) {a i : Nat} {bs : List Byte} {b : Byte}
    (hi : bs[i]? = some b) : Memory.read (Memory.writeN m a bs) (a + i) = b := by
  induction bs generalizing m a i with
  | nil => simp at hi
  | cons c bs ih =>
    cases i with
    | zero =>
      obtain rfl : c = b := by simpa using hi
      exact (Memory.read_writeN_outside (Memory.wf_write h a c) (.inl (by omega))).trans (Memory.read_write_same h a c)
    | succ i =>
      have := ih (a := a + 1) (Memory.wf_write h a c) (i := i) (by simpa using hi)
      rwa [Nat.add_right_comm] at this

/-- A zeroed range reads 0, and every other address as before. -/
theorem Memory.read_zero {m : List Host.Cell} (h : Memory.wf m = true) (a n x : Nat) :
    Memory.read (Memory.zero m a n) x = if a ≤ x ∧ x < a + n then 0 else Memory.read m x := by
  induction m with
  | nil => simp [Memory.zero, Memory.read]
  | cons c m ih =>
    obtain ⟨_, h1, h2⟩ := (Memory.wf_cons c m).1 h
    have ih := ih h2
    unfold Memory.zero at ih ⊢
    rw [List.filter_cons]
    split
    · rename_i hc
      rw [Memory.read, Memory.read, ih]
      simp only [Bool.or_eq_true, decide_eq_true_eq] at hc
      split_ifs <;> first | rfl | omega
    · rename_i hc
      simp only [Bool.or_eq_true, decide_eq_true_eq, not_or, not_lt, not_le] at hc
      rw [ih, Memory.read]
      split_ifs with h3 h4 h5
      · rfl
      · omega
      · exact Memory.read_below fun d hd => lt_trans h5 (h1 d hd)
      · rfl

end Sys2Proof.Machine
end

