-- ==== Sys2Proof/Laws/State.lean ====
section
/-! SUPPORT. What each update of the state leaves as it is, field by field, so that no proof unfolds an update. -/

namespace Sys2Proof.Machine

/-! ## State.setCtr -/

@[simp] theorem State.setCtr_clock (s : State) (k : CtrKey) (v : BitVec 64) : (s.setCtr k v).clock = s.clock := rfl
@[simp] theorem State.setCtr_fresh (s : State) (k : CtrKey) (v : BitVec 64) : (s.setCtr k v).fresh = s.fresh := rfl
@[simp] theorem State.setCtr_board (s : State) (k : CtrKey) (v : BitVec 64) : (s.setCtr k v).board = s.board := rfl
@[simp] theorem State.setCtr_flash (s : State) (k : CtrKey) (v : BitVec 64) : (s.setCtr k v).flash = s.flash := rfl
@[simp] theorem State.setCtr_boot (s : State) (k : CtrKey) (v : BitVec 64) : (s.setCtr k v).boot = s.boot := rfl
@[simp] theorem State.setCtr_sec (s : State) (k : CtrKey) (v : BitVec 64) : (s.setCtr k v).sec = s.sec := rfl
@[simp] theorem State.setCtr_time (s : State) (k : CtrKey) (v : BitVec 64) : (s.setCtr k v).time = s.time := rfl
@[simp] theorem State.setCtr_therm (s : State) (k : CtrKey) (v : BitVec 64) : (s.setCtr k v).therm = s.therm := rfl
@[simp] theorem State.setCtr_power (s : State) (k : CtrKey) (v : BitVec 64) : (s.setCtr k v).power = s.power := rfl
@[simp] theorem State.setCtr_steps (s : State) (k : CtrKey) (v : BitVec 64) : (s.setCtr k v).steps = s.steps := rfl
@[simp] theorem State.setCtr_zcp (s : State) (k : CtrKey) (v : BitVec 64) : (s.setCtr k v).zcp = s.zcp := rfl
@[simp] theorem State.setCtr_dbg (s : State) (k : CtrKey) (v : BitVec 64) : (s.setCtr k v).dbg = s.dbg := rfl
@[simp] theorem State.setCtr_tiles (s : State) (k : CtrKey) (v : BitVec 64) : (s.setCtr k v).tiles = s.tiles := rfl
@[simp] theorem State.setCtr_mem (s : State) (k : CtrKey) (v : BitVec 64) : (s.setCtr k v).mem = s.mem := rfl
@[simp] theorem State.setCtr_poison (s : State) (k : CtrKey) (v : BitVec 64) : (s.setCtr k v).poison = s.poison := rfl
@[simp] theorem State.setCtr_poisonWords (s : State) (k : CtrKey) (v : BitVec 64) : (s.setCtr k v).poisonWords = s.poisonWords := rfl
@[simp] theorem State.setCtr_hbm (s : State) (k : CtrKey) (v : BitVec 64) : (s.setCtr k v).hbm = s.hbm := rfl
@[simp] theorem State.setCtr_xlat (s : State) (k : CtrKey) (v : BitVec 64) : (s.setCtr k v).xlat = s.xlat := rfl
@[simp] theorem State.setCtr_faultQ (s : State) (k : CtrKey) (v : BitVec 64) : (s.setCtr k v).faultQ = s.faultQ := rfl
@[simp] theorem State.setCtr_faultSeq (s : State) (k : CtrKey) (v : BitVec 64) : (s.setCtr k v).faultSeq = s.faultSeq := rfl
@[simp] theorem State.setCtr_faultLost (s : State) (k : CtrKey) (v : BitVec 64) : (s.setCtr k v).faultLost = s.faultLost := rfl
@[simp] theorem State.setCtr_moveFaults (s : State) (k : CtrKey) (v : BitVec 64) : (s.setCtr k v).moveFaults = s.moveFaults := rfl
@[simp] theorem State.setCtr_jobs (s : State) (k : CtrKey) (v : BitVec 64) : (s.setCtr k v).jobs = s.jobs := rfl
@[simp] theorem State.setCtr_fab (s : State) (k : CtrKey) (v : BitVec 64) : (s.setCtr k v).fab = s.fab := rfl
@[simp] theorem State.setCtr_ports (s : State) (k : CtrKey) (v : BitVec 64) : (s.setCtr k v).ports = s.ports := rfl
@[simp] theorem State.setCtr_coll (s : State) (k : CtrKey) (v : BitVec 64) : (s.setCtr k v).coll = s.coll := rfl
@[simp] theorem State.setCtr_host (s : State) (k : CtrKey) (v : BitVec 64) : (s.setCtr k v).host = s.host := rfl
@[simp] theorem State.setCtr_bays (s : State) (k : CtrKey) (v : BitVec 64) : (s.setCtr k v).bays = s.bays := rfl
@[simp] theorem State.setCtr_ppe (s : State) (k : CtrKey) (v : BitVec 64) : (s.setCtr k v).ppe = s.ppe := rfl
@[simp] theorem State.setCtr_outbox (s : State) (k : CtrKey) (v : BitVec 64) : (s.setCtr k v).outbox = s.outbox := rfl
@[simp] theorem State.setCtr_pending (s : State) (k : CtrKey) (v : BitVec 64) : (s.setCtr k v).pending = s.pending := rfl

/-! ## State.emit -/

@[simp] theorem State.emit_clock (s : State) (m : Msg) : (s.emit m).clock = s.clock := rfl
@[simp] theorem State.emit_fresh (s : State) (m : Msg) : (s.emit m).fresh = s.fresh := rfl
@[simp] theorem State.emit_board (s : State) (m : Msg) : (s.emit m).board = s.board := rfl
@[simp] theorem State.emit_flash (s : State) (m : Msg) : (s.emit m).flash = s.flash := rfl
@[simp] theorem State.emit_boot (s : State) (m : Msg) : (s.emit m).boot = s.boot := rfl
@[simp] theorem State.emit_sec (s : State) (m : Msg) : (s.emit m).sec = s.sec := rfl
@[simp] theorem State.emit_time (s : State) (m : Msg) : (s.emit m).time = s.time := rfl
@[simp] theorem State.emit_therm (s : State) (m : Msg) : (s.emit m).therm = s.therm := rfl
@[simp] theorem State.emit_power (s : State) (m : Msg) : (s.emit m).power = s.power := rfl
@[simp] theorem State.emit_steps (s : State) (m : Msg) : (s.emit m).steps = s.steps := rfl
@[simp] theorem State.emit_counters (s : State) (m : Msg) : (s.emit m).counters = s.counters := rfl
@[simp] theorem State.emit_zcp (s : State) (m : Msg) : (s.emit m).zcp = s.zcp := rfl
@[simp] theorem State.emit_dbg (s : State) (m : Msg) : (s.emit m).dbg = s.dbg := rfl
@[simp] theorem State.emit_tiles (s : State) (m : Msg) : (s.emit m).tiles = s.tiles := rfl
@[simp] theorem State.emit_mem (s : State) (m : Msg) : (s.emit m).mem = s.mem := rfl
@[simp] theorem State.emit_poison (s : State) (m : Msg) : (s.emit m).poison = s.poison := rfl
@[simp] theorem State.emit_poisonWords (s : State) (m : Msg) : (s.emit m).poisonWords = s.poisonWords := rfl
@[simp] theorem State.emit_hbm (s : State) (m : Msg) : (s.emit m).hbm = s.hbm := rfl
@[simp] theorem State.emit_xlat (s : State) (m : Msg) : (s.emit m).xlat = s.xlat := rfl
@[simp] theorem State.emit_faultQ (s : State) (m : Msg) : (s.emit m).faultQ = s.faultQ := rfl
@[simp] theorem State.emit_faultSeq (s : State) (m : Msg) : (s.emit m).faultSeq = s.faultSeq := rfl
@[simp] theorem State.emit_faultLost (s : State) (m : Msg) : (s.emit m).faultLost = s.faultLost := rfl
@[simp] theorem State.emit_moveFaults (s : State) (m : Msg) : (s.emit m).moveFaults = s.moveFaults := rfl
@[simp] theorem State.emit_jobs (s : State) (m : Msg) : (s.emit m).jobs = s.jobs := rfl
@[simp] theorem State.emit_fab (s : State) (m : Msg) : (s.emit m).fab = s.fab := rfl
@[simp] theorem State.emit_ports (s : State) (m : Msg) : (s.emit m).ports = s.ports := rfl
@[simp] theorem State.emit_coll (s : State) (m : Msg) : (s.emit m).coll = s.coll := rfl
@[simp] theorem State.emit_host (s : State) (m : Msg) : (s.emit m).host = s.host := rfl
@[simp] theorem State.emit_bays (s : State) (m : Msg) : (s.emit m).bays = s.bays := rfl
@[simp] theorem State.emit_ppe (s : State) (m : Msg) : (s.emit m).ppe = s.ppe := rfl
@[simp] theorem State.emit_pending (s : State) (m : Msg) : (s.emit m).pending = s.pending := rfl

/-! ## State.setStack -/

@[simp] theorem State.setStack_clock (s : State) (m : StackIx) (k : Stack) : (s.setStack m k).clock = s.clock := rfl
@[simp] theorem State.setStack_fresh (s : State) (m : StackIx) (k : Stack) : (s.setStack m k).fresh = s.fresh := rfl
@[simp] theorem State.setStack_board (s : State) (m : StackIx) (k : Stack) : (s.setStack m k).board = s.board := rfl
@[simp] theorem State.setStack_flash (s : State) (m : StackIx) (k : Stack) : (s.setStack m k).flash = s.flash := rfl
@[simp] theorem State.setStack_boot (s : State) (m : StackIx) (k : Stack) : (s.setStack m k).boot = s.boot := rfl
@[simp] theorem State.setStack_sec (s : State) (m : StackIx) (k : Stack) : (s.setStack m k).sec = s.sec := rfl
@[simp] theorem State.setStack_time (s : State) (m : StackIx) (k : Stack) : (s.setStack m k).time = s.time := rfl
@[simp] theorem State.setStack_therm (s : State) (m : StackIx) (k : Stack) : (s.setStack m k).therm = s.therm := rfl
@[simp] theorem State.setStack_power (s : State) (m : StackIx) (k : Stack) : (s.setStack m k).power = s.power := rfl
@[simp] theorem State.setStack_steps (s : State) (m : StackIx) (k : Stack) : (s.setStack m k).steps = s.steps := rfl
@[simp] theorem State.setStack_counters (s : State) (m : StackIx) (k : Stack) : (s.setStack m k).counters = s.counters := rfl
@[simp] theorem State.setStack_zcp (s : State) (m : StackIx) (k : Stack) : (s.setStack m k).zcp = s.zcp := rfl
@[simp] theorem State.setStack_dbg (s : State) (m : StackIx) (k : Stack) : (s.setStack m k).dbg = s.dbg := rfl
@[simp] theorem State.setStack_tiles (s : State) (m : StackIx) (k : Stack) : (s.setStack m k).tiles = s.tiles := rfl
@[simp] theorem State.setStack_mem (s : State) (m : StackIx) (k : Stack) : (s.setStack m k).mem = s.mem := rfl
@[simp] theorem State.setStack_poison (s : State) (m : StackIx) (k : Stack) : (s.setStack m k).poison = s.poison := rfl
@[simp] theorem State.setStack_poisonWords (s : State) (m : StackIx) (k : Stack) : (s.setStack m k).poisonWords = s.poisonWords := rfl
@[simp] theorem State.setStack_xlat (s : State) (m : StackIx) (k : Stack) : (s.setStack m k).xlat = s.xlat := rfl
@[simp] theorem State.setStack_faultQ (s : State) (m : StackIx) (k : Stack) : (s.setStack m k).faultQ = s.faultQ := rfl
@[simp] theorem State.setStack_faultSeq (s : State) (m : StackIx) (k : Stack) : (s.setStack m k).faultSeq = s.faultSeq := rfl
@[simp] theorem State.setStack_faultLost (s : State) (m : StackIx) (k : Stack) : (s.setStack m k).faultLost = s.faultLost := rfl
@[simp] theorem State.setStack_moveFaults (s : State) (m : StackIx) (k : Stack) : (s.setStack m k).moveFaults = s.moveFaults := rfl
@[simp] theorem State.setStack_jobs (s : State) (m : StackIx) (k : Stack) : (s.setStack m k).jobs = s.jobs := rfl
@[simp] theorem State.setStack_fab (s : State) (m : StackIx) (k : Stack) : (s.setStack m k).fab = s.fab := rfl
@[simp] theorem State.setStack_ports (s : State) (m : StackIx) (k : Stack) : (s.setStack m k).ports = s.ports := rfl
@[simp] theorem State.setStack_coll (s : State) (m : StackIx) (k : Stack) : (s.setStack m k).coll = s.coll := rfl
@[simp] theorem State.setStack_host (s : State) (m : StackIx) (k : Stack) : (s.setStack m k).host = s.host := rfl
@[simp] theorem State.setStack_bays (s : State) (m : StackIx) (k : Stack) : (s.setStack m k).bays = s.bays := rfl
@[simp] theorem State.setStack_ppe (s : State) (m : StackIx) (k : Stack) : (s.setStack m k).ppe = s.ppe := rfl
@[simp] theorem State.setStack_outbox (s : State) (m : StackIx) (k : Stack) : (s.setStack m k).outbox = s.outbox := rfl
@[simp] theorem State.setStack_pending (s : State) (m : StackIx) (k : Stack) : (s.setStack m k).pending = s.pending := rfl

/-! ## State.setTile -/

@[simp] theorem State.setTile_clock (s : State) (t : Nat) (x : Tile) : (s.setTile t x).clock = s.clock := rfl
@[simp] theorem State.setTile_fresh (s : State) (t : Nat) (x : Tile) : (s.setTile t x).fresh = s.fresh := rfl
@[simp] theorem State.setTile_board (s : State) (t : Nat) (x : Tile) : (s.setTile t x).board = s.board := rfl
@[simp] theorem State.setTile_flash (s : State) (t : Nat) (x : Tile) : (s.setTile t x).flash = s.flash := rfl
@[simp] theorem State.setTile_boot (s : State) (t : Nat) (x : Tile) : (s.setTile t x).boot = s.boot := rfl
@[simp] theorem State.setTile_sec (s : State) (t : Nat) (x : Tile) : (s.setTile t x).sec = s.sec := rfl
@[simp] theorem State.setTile_time (s : State) (t : Nat) (x : Tile) : (s.setTile t x).time = s.time := rfl
@[simp] theorem State.setTile_therm (s : State) (t : Nat) (x : Tile) : (s.setTile t x).therm = s.therm := rfl
@[simp] theorem State.setTile_power (s : State) (t : Nat) (x : Tile) : (s.setTile t x).power = s.power := rfl
@[simp] theorem State.setTile_steps (s : State) (t : Nat) (x : Tile) : (s.setTile t x).steps = s.steps := rfl
@[simp] theorem State.setTile_counters (s : State) (t : Nat) (x : Tile) : (s.setTile t x).counters = s.counters := rfl
@[simp] theorem State.setTile_zcp (s : State) (t : Nat) (x : Tile) : (s.setTile t x).zcp = s.zcp := rfl
@[simp] theorem State.setTile_dbg (s : State) (t : Nat) (x : Tile) : (s.setTile t x).dbg = s.dbg := rfl
@[simp] theorem State.setTile_mem (s : State) (t : Nat) (x : Tile) : (s.setTile t x).mem = s.mem := rfl
@[simp] theorem State.setTile_poison (s : State) (t : Nat) (x : Tile) : (s.setTile t x).poison = s.poison := rfl
@[simp] theorem State.setTile_poisonWords (s : State) (t : Nat) (x : Tile) : (s.setTile t x).poisonWords = s.poisonWords := rfl
@[simp] theorem State.setTile_hbm (s : State) (t : Nat) (x : Tile) : (s.setTile t x).hbm = s.hbm := rfl
@[simp] theorem State.setTile_xlat (s : State) (t : Nat) (x : Tile) : (s.setTile t x).xlat = s.xlat := rfl
@[simp] theorem State.setTile_faultQ (s : State) (t : Nat) (x : Tile) : (s.setTile t x).faultQ = s.faultQ := rfl
@[simp] theorem State.setTile_faultSeq (s : State) (t : Nat) (x : Tile) : (s.setTile t x).faultSeq = s.faultSeq := rfl
@[simp] theorem State.setTile_faultLost (s : State) (t : Nat) (x : Tile) : (s.setTile t x).faultLost = s.faultLost := rfl
@[simp] theorem State.setTile_moveFaults (s : State) (t : Nat) (x : Tile) : (s.setTile t x).moveFaults = s.moveFaults := rfl
@[simp] theorem State.setTile_jobs (s : State) (t : Nat) (x : Tile) : (s.setTile t x).jobs = s.jobs := rfl
@[simp] theorem State.setTile_fab (s : State) (t : Nat) (x : Tile) : (s.setTile t x).fab = s.fab := rfl
@[simp] theorem State.setTile_ports (s : State) (t : Nat) (x : Tile) : (s.setTile t x).ports = s.ports := rfl
@[simp] theorem State.setTile_coll (s : State) (t : Nat) (x : Tile) : (s.setTile t x).coll = s.coll := rfl
@[simp] theorem State.setTile_host (s : State) (t : Nat) (x : Tile) : (s.setTile t x).host = s.host := rfl
@[simp] theorem State.setTile_bays (s : State) (t : Nat) (x : Tile) : (s.setTile t x).bays = s.bays := rfl
@[simp] theorem State.setTile_ppe (s : State) (t : Nat) (x : Tile) : (s.setTile t x).ppe = s.ppe := rfl
@[simp] theorem State.setTile_outbox (s : State) (t : Nat) (x : Tile) : (s.setTile t x).outbox = s.outbox := rfl
@[simp] theorem State.setTile_pending (s : State) (t : Nat) (x : Tile) : (s.setTile t x).pending = s.pending := rfl

/-! ## State.modTile -/

@[simp] theorem State.modTile_clock (s : State) (t : Nat) (f : Tile → Tile) : (s.modTile t f).clock = s.clock := rfl
@[simp] theorem State.modTile_fresh (s : State) (t : Nat) (f : Tile → Tile) : (s.modTile t f).fresh = s.fresh := rfl
@[simp] theorem State.modTile_board (s : State) (t : Nat) (f : Tile → Tile) : (s.modTile t f).board = s.board := rfl
@[simp] theorem State.modTile_flash (s : State) (t : Nat) (f : Tile → Tile) : (s.modTile t f).flash = s.flash := rfl
@[simp] theorem State.modTile_boot (s : State) (t : Nat) (f : Tile → Tile) : (s.modTile t f).boot = s.boot := rfl
@[simp] theorem State.modTile_sec (s : State) (t : Nat) (f : Tile → Tile) : (s.modTile t f).sec = s.sec := rfl
@[simp] theorem State.modTile_time (s : State) (t : Nat) (f : Tile → Tile) : (s.modTile t f).time = s.time := rfl
@[simp] theorem State.modTile_therm (s : State) (t : Nat) (f : Tile → Tile) : (s.modTile t f).therm = s.therm := rfl
@[simp] theorem State.modTile_power (s : State) (t : Nat) (f : Tile → Tile) : (s.modTile t f).power = s.power := rfl
@[simp] theorem State.modTile_steps (s : State) (t : Nat) (f : Tile → Tile) : (s.modTile t f).steps = s.steps := rfl
@[simp] theorem State.modTile_counters (s : State) (t : Nat) (f : Tile → Tile) : (s.modTile t f).counters = s.counters := rfl
@[simp] theorem State.modTile_zcp (s : State) (t : Nat) (f : Tile → Tile) : (s.modTile t f).zcp = s.zcp := rfl
@[simp] theorem State.modTile_dbg (s : State) (t : Nat) (f : Tile → Tile) : (s.modTile t f).dbg = s.dbg := rfl
@[simp] theorem State.modTile_mem (s : State) (t : Nat) (f : Tile → Tile) : (s.modTile t f).mem = s.mem := rfl
@[simp] theorem State.modTile_poison (s : State) (t : Nat) (f : Tile → Tile) : (s.modTile t f).poison = s.poison := rfl
@[simp] theorem State.modTile_poisonWords (s : State) (t : Nat) (f : Tile → Tile) : (s.modTile t f).poisonWords = s.poisonWords := rfl
@[simp] theorem State.modTile_hbm (s : State) (t : Nat) (f : Tile → Tile) : (s.modTile t f).hbm = s.hbm := rfl
@[simp] theorem State.modTile_xlat (s : State) (t : Nat) (f : Tile → Tile) : (s.modTile t f).xlat = s.xlat := rfl
@[simp] theorem State.modTile_faultQ (s : State) (t : Nat) (f : Tile → Tile) : (s.modTile t f).faultQ = s.faultQ := rfl
@[simp] theorem State.modTile_faultSeq (s : State) (t : Nat) (f : Tile → Tile) : (s.modTile t f).faultSeq = s.faultSeq := rfl
@[simp] theorem State.modTile_faultLost (s : State) (t : Nat) (f : Tile → Tile) : (s.modTile t f).faultLost = s.faultLost := rfl
@[simp] theorem State.modTile_moveFaults (s : State) (t : Nat) (f : Tile → Tile) : (s.modTile t f).moveFaults = s.moveFaults := rfl
@[simp] theorem State.modTile_jobs (s : State) (t : Nat) (f : Tile → Tile) : (s.modTile t f).jobs = s.jobs := rfl
@[simp] theorem State.modTile_fab (s : State) (t : Nat) (f : Tile → Tile) : (s.modTile t f).fab = s.fab := rfl
@[simp] theorem State.modTile_ports (s : State) (t : Nat) (f : Tile → Tile) : (s.modTile t f).ports = s.ports := rfl
@[simp] theorem State.modTile_coll (s : State) (t : Nat) (f : Tile → Tile) : (s.modTile t f).coll = s.coll := rfl
@[simp] theorem State.modTile_host (s : State) (t : Nat) (f : Tile → Tile) : (s.modTile t f).host = s.host := rfl
@[simp] theorem State.modTile_bays (s : State) (t : Nat) (f : Tile → Tile) : (s.modTile t f).bays = s.bays := rfl
@[simp] theorem State.modTile_ppe (s : State) (t : Nat) (f : Tile → Tile) : (s.modTile t f).ppe = s.ppe := rfl
@[simp] theorem State.modTile_outbox (s : State) (t : Nat) (f : Tile → Tile) : (s.modTile t f).outbox = s.outbox := rfl
@[simp] theorem State.modTile_pending (s : State) (t : Nat) (f : Tile → Tile) : (s.modTile t f).pending = s.pending := rfl

/-! ## State.modMove -/

@[simp] theorem State.modMove_clock (s : State) (t id : Nat) (f : QMove → QMove) : (s.modMove t id f).clock = s.clock := rfl
@[simp] theorem State.modMove_fresh (s : State) (t id : Nat) (f : QMove → QMove) : (s.modMove t id f).fresh = s.fresh := rfl
@[simp] theorem State.modMove_board (s : State) (t id : Nat) (f : QMove → QMove) : (s.modMove t id f).board = s.board := rfl
@[simp] theorem State.modMove_flash (s : State) (t id : Nat) (f : QMove → QMove) : (s.modMove t id f).flash = s.flash := rfl
@[simp] theorem State.modMove_boot (s : State) (t id : Nat) (f : QMove → QMove) : (s.modMove t id f).boot = s.boot := rfl
@[simp] theorem State.modMove_sec (s : State) (t id : Nat) (f : QMove → QMove) : (s.modMove t id f).sec = s.sec := rfl
@[simp] theorem State.modMove_time (s : State) (t id : Nat) (f : QMove → QMove) : (s.modMove t id f).time = s.time := rfl
@[simp] theorem State.modMove_therm (s : State) (t id : Nat) (f : QMove → QMove) : (s.modMove t id f).therm = s.therm := rfl
@[simp] theorem State.modMove_power (s : State) (t id : Nat) (f : QMove → QMove) : (s.modMove t id f).power = s.power := rfl
@[simp] theorem State.modMove_steps (s : State) (t id : Nat) (f : QMove → QMove) : (s.modMove t id f).steps = s.steps := rfl
@[simp] theorem State.modMove_counters (s : State) (t id : Nat) (f : QMove → QMove) : (s.modMove t id f).counters = s.counters := rfl
@[simp] theorem State.modMove_zcp (s : State) (t id : Nat) (f : QMove → QMove) : (s.modMove t id f).zcp = s.zcp := rfl
@[simp] theorem State.modMove_dbg (s : State) (t id : Nat) (f : QMove → QMove) : (s.modMove t id f).dbg = s.dbg := rfl
@[simp] theorem State.modMove_mem (s : State) (t id : Nat) (f : QMove → QMove) : (s.modMove t id f).mem = s.mem := rfl
@[simp] theorem State.modMove_poison (s : State) (t id : Nat) (f : QMove → QMove) : (s.modMove t id f).poison = s.poison := rfl
@[simp] theorem State.modMove_poisonWords (s : State) (t id : Nat) (f : QMove → QMove) : (s.modMove t id f).poisonWords = s.poisonWords := rfl
@[simp] theorem State.modMove_hbm (s : State) (t id : Nat) (f : QMove → QMove) : (s.modMove t id f).hbm = s.hbm := rfl
@[simp] theorem State.modMove_xlat (s : State) (t id : Nat) (f : QMove → QMove) : (s.modMove t id f).xlat = s.xlat := rfl
@[simp] theorem State.modMove_faultQ (s : State) (t id : Nat) (f : QMove → QMove) : (s.modMove t id f).faultQ = s.faultQ := rfl
@[simp] theorem State.modMove_faultSeq (s : State) (t id : Nat) (f : QMove → QMove) : (s.modMove t id f).faultSeq = s.faultSeq := rfl
@[simp] theorem State.modMove_faultLost (s : State) (t id : Nat) (f : QMove → QMove) : (s.modMove t id f).faultLost = s.faultLost := rfl
@[simp] theorem State.modMove_moveFaults (s : State) (t id : Nat) (f : QMove → QMove) : (s.modMove t id f).moveFaults = s.moveFaults := rfl
@[simp] theorem State.modMove_jobs (s : State) (t id : Nat) (f : QMove → QMove) : (s.modMove t id f).jobs = s.jobs := rfl
@[simp] theorem State.modMove_fab (s : State) (t id : Nat) (f : QMove → QMove) : (s.modMove t id f).fab = s.fab := rfl
@[simp] theorem State.modMove_ports (s : State) (t id : Nat) (f : QMove → QMove) : (s.modMove t id f).ports = s.ports := rfl
@[simp] theorem State.modMove_coll (s : State) (t id : Nat) (f : QMove → QMove) : (s.modMove t id f).coll = s.coll := rfl
@[simp] theorem State.modMove_host (s : State) (t id : Nat) (f : QMove → QMove) : (s.modMove t id f).host = s.host := rfl
@[simp] theorem State.modMove_bays (s : State) (t id : Nat) (f : QMove → QMove) : (s.modMove t id f).bays = s.bays := rfl
@[simp] theorem State.modMove_ppe (s : State) (t id : Nat) (f : QMove → QMove) : (s.modMove t id f).ppe = s.ppe := rfl
@[simp] theorem State.modMove_outbox (s : State) (t id : Nat) (f : QMove → QMove) : (s.modMove t id f).outbox = s.outbox := rfl
@[simp] theorem State.modMove_pending (s : State) (t id : Nat) (f : QMove → QMove) : (s.modMove t id f).pending = s.pending := rfl

/-! ## State.modJob -/

@[simp] theorem State.modJob_clock (s : State) (j : BitVec 12) (f : Job → Job) : (s.modJob j f).clock = s.clock := rfl
@[simp] theorem State.modJob_fresh (s : State) (j : BitVec 12) (f : Job → Job) : (s.modJob j f).fresh = s.fresh := rfl
@[simp] theorem State.modJob_board (s : State) (j : BitVec 12) (f : Job → Job) : (s.modJob j f).board = s.board := rfl
@[simp] theorem State.modJob_flash (s : State) (j : BitVec 12) (f : Job → Job) : (s.modJob j f).flash = s.flash := rfl
@[simp] theorem State.modJob_boot (s : State) (j : BitVec 12) (f : Job → Job) : (s.modJob j f).boot = s.boot := rfl
@[simp] theorem State.modJob_sec (s : State) (j : BitVec 12) (f : Job → Job) : (s.modJob j f).sec = s.sec := rfl
@[simp] theorem State.modJob_time (s : State) (j : BitVec 12) (f : Job → Job) : (s.modJob j f).time = s.time := rfl
@[simp] theorem State.modJob_therm (s : State) (j : BitVec 12) (f : Job → Job) : (s.modJob j f).therm = s.therm := rfl
@[simp] theorem State.modJob_power (s : State) (j : BitVec 12) (f : Job → Job) : (s.modJob j f).power = s.power := rfl
@[simp] theorem State.modJob_steps (s : State) (j : BitVec 12) (f : Job → Job) : (s.modJob j f).steps = s.steps := rfl
@[simp] theorem State.modJob_counters (s : State) (j : BitVec 12) (f : Job → Job) : (s.modJob j f).counters = s.counters := rfl
@[simp] theorem State.modJob_zcp (s : State) (j : BitVec 12) (f : Job → Job) : (s.modJob j f).zcp = s.zcp := rfl
@[simp] theorem State.modJob_dbg (s : State) (j : BitVec 12) (f : Job → Job) : (s.modJob j f).dbg = s.dbg := rfl
@[simp] theorem State.modJob_tiles (s : State) (j : BitVec 12) (f : Job → Job) : (s.modJob j f).tiles = s.tiles := rfl
@[simp] theorem State.modJob_mem (s : State) (j : BitVec 12) (f : Job → Job) : (s.modJob j f).mem = s.mem := rfl
@[simp] theorem State.modJob_poison (s : State) (j : BitVec 12) (f : Job → Job) : (s.modJob j f).poison = s.poison := rfl
@[simp] theorem State.modJob_poisonWords (s : State) (j : BitVec 12) (f : Job → Job) : (s.modJob j f).poisonWords = s.poisonWords := rfl
@[simp] theorem State.modJob_hbm (s : State) (j : BitVec 12) (f : Job → Job) : (s.modJob j f).hbm = s.hbm := rfl
@[simp] theorem State.modJob_xlat (s : State) (j : BitVec 12) (f : Job → Job) : (s.modJob j f).xlat = s.xlat := rfl
@[simp] theorem State.modJob_faultQ (s : State) (j : BitVec 12) (f : Job → Job) : (s.modJob j f).faultQ = s.faultQ := rfl
@[simp] theorem State.modJob_faultSeq (s : State) (j : BitVec 12) (f : Job → Job) : (s.modJob j f).faultSeq = s.faultSeq := rfl
@[simp] theorem State.modJob_faultLost (s : State) (j : BitVec 12) (f : Job → Job) : (s.modJob j f).faultLost = s.faultLost := rfl
@[simp] theorem State.modJob_moveFaults (s : State) (j : BitVec 12) (f : Job → Job) : (s.modJob j f).moveFaults = s.moveFaults := rfl
@[simp] theorem State.modJob_fab (s : State) (j : BitVec 12) (f : Job → Job) : (s.modJob j f).fab = s.fab := rfl
@[simp] theorem State.modJob_ports (s : State) (j : BitVec 12) (f : Job → Job) : (s.modJob j f).ports = s.ports := rfl
@[simp] theorem State.modJob_coll (s : State) (j : BitVec 12) (f : Job → Job) : (s.modJob j f).coll = s.coll := rfl
@[simp] theorem State.modJob_host (s : State) (j : BitVec 12) (f : Job → Job) : (s.modJob j f).host = s.host := rfl
@[simp] theorem State.modJob_bays (s : State) (j : BitVec 12) (f : Job → Job) : (s.modJob j f).bays = s.bays := rfl
@[simp] theorem State.modJob_ppe (s : State) (j : BitVec 12) (f : Job → Job) : (s.modJob j f).ppe = s.ppe := rfl
@[simp] theorem State.modJob_outbox (s : State) (j : BitVec 12) (f : Job → Job) : (s.modJob j f).outbox = s.outbox := rfl
@[simp] theorem State.modJob_pending (s : State) (j : BitVec 12) (f : Job → Job) : (s.modJob j f).pending = s.pending := rfl

/-! ## State.modPeriod -/

@[simp] theorem State.modPeriod_clock (s : State) (j : BitVec 12) (f : Period → Period) : (s.modPeriod j f).clock = s.clock := rfl
@[simp] theorem State.modPeriod_fresh (s : State) (j : BitVec 12) (f : Period → Period) : (s.modPeriod j f).fresh = s.fresh := rfl
@[simp] theorem State.modPeriod_board (s : State) (j : BitVec 12) (f : Period → Period) : (s.modPeriod j f).board = s.board := rfl
@[simp] theorem State.modPeriod_flash (s : State) (j : BitVec 12) (f : Period → Period) : (s.modPeriod j f).flash = s.flash := rfl
@[simp] theorem State.modPeriod_boot (s : State) (j : BitVec 12) (f : Period → Period) : (s.modPeriod j f).boot = s.boot := rfl
@[simp] theorem State.modPeriod_sec (s : State) (j : BitVec 12) (f : Period → Period) : (s.modPeriod j f).sec = s.sec := rfl
@[simp] theorem State.modPeriod_time (s : State) (j : BitVec 12) (f : Period → Period) : (s.modPeriod j f).time = s.time := rfl
@[simp] theorem State.modPeriod_therm (s : State) (j : BitVec 12) (f : Period → Period) : (s.modPeriod j f).therm = s.therm := rfl
@[simp] theorem State.modPeriod_power (s : State) (j : BitVec 12) (f : Period → Period) : (s.modPeriod j f).power = s.power := rfl
@[simp] theorem State.modPeriod_steps (s : State) (j : BitVec 12) (f : Period → Period) : (s.modPeriod j f).steps = s.steps := rfl
@[simp] theorem State.modPeriod_counters (s : State) (j : BitVec 12) (f : Period → Period) : (s.modPeriod j f).counters = s.counters := rfl
@[simp] theorem State.modPeriod_zcp (s : State) (j : BitVec 12) (f : Period → Period) : (s.modPeriod j f).zcp = s.zcp := rfl
@[simp] theorem State.modPeriod_dbg (s : State) (j : BitVec 12) (f : Period → Period) : (s.modPeriod j f).dbg = s.dbg := rfl
@[simp] theorem State.modPeriod_tiles (s : State) (j : BitVec 12) (f : Period → Period) : (s.modPeriod j f).tiles = s.tiles := rfl
@[simp] theorem State.modPeriod_mem (s : State) (j : BitVec 12) (f : Period → Period) : (s.modPeriod j f).mem = s.mem := rfl
@[simp] theorem State.modPeriod_poison (s : State) (j : BitVec 12) (f : Period → Period) : (s.modPeriod j f).poison = s.poison := rfl
@[simp] theorem State.modPeriod_poisonWords (s : State) (j : BitVec 12) (f : Period → Period) : (s.modPeriod j f).poisonWords = s.poisonWords := rfl
@[simp] theorem State.modPeriod_hbm (s : State) (j : BitVec 12) (f : Period → Period) : (s.modPeriod j f).hbm = s.hbm := rfl
@[simp] theorem State.modPeriod_xlat (s : State) (j : BitVec 12) (f : Period → Period) : (s.modPeriod j f).xlat = s.xlat := rfl
@[simp] theorem State.modPeriod_faultQ (s : State) (j : BitVec 12) (f : Period → Period) : (s.modPeriod j f).faultQ = s.faultQ := rfl
@[simp] theorem State.modPeriod_faultSeq (s : State) (j : BitVec 12) (f : Period → Period) : (s.modPeriod j f).faultSeq = s.faultSeq := rfl
@[simp] theorem State.modPeriod_faultLost (s : State) (j : BitVec 12) (f : Period → Period) : (s.modPeriod j f).faultLost = s.faultLost := rfl
@[simp] theorem State.modPeriod_moveFaults (s : State) (j : BitVec 12) (f : Period → Period) : (s.modPeriod j f).moveFaults = s.moveFaults := rfl
@[simp] theorem State.modPeriod_fab (s : State) (j : BitVec 12) (f : Period → Period) : (s.modPeriod j f).fab = s.fab := rfl
@[simp] theorem State.modPeriod_ports (s : State) (j : BitVec 12) (f : Period → Period) : (s.modPeriod j f).ports = s.ports := rfl
@[simp] theorem State.modPeriod_coll (s : State) (j : BitVec 12) (f : Period → Period) : (s.modPeriod j f).coll = s.coll := rfl
@[simp] theorem State.modPeriod_host (s : State) (j : BitVec 12) (f : Period → Period) : (s.modPeriod j f).host = s.host := rfl
@[simp] theorem State.modPeriod_bays (s : State) (j : BitVec 12) (f : Period → Period) : (s.modPeriod j f).bays = s.bays := rfl
@[simp] theorem State.modPeriod_ppe (s : State) (j : BitVec 12) (f : Period → Period) : (s.modPeriod j f).ppe = s.ppe := rfl
@[simp] theorem State.modPeriod_outbox (s : State) (j : BitVec 12) (f : Period → Period) : (s.modPeriod j f).outbox = s.outbox := rfl
@[simp] theorem State.modPeriod_pending (s : State) (j : BitVec 12) (f : Period → Period) : (s.modPeriod j f).pending = s.pending := rfl

/-! ## State.modFab -/

@[simp] theorem State.modFab_clock (s : State) (f : Fabric → Fabric) : (s.modFab f).clock = s.clock := rfl
@[simp] theorem State.modFab_fresh (s : State) (f : Fabric → Fabric) : (s.modFab f).fresh = s.fresh := rfl
@[simp] theorem State.modFab_board (s : State) (f : Fabric → Fabric) : (s.modFab f).board = s.board := rfl
@[simp] theorem State.modFab_flash (s : State) (f : Fabric → Fabric) : (s.modFab f).flash = s.flash := rfl
@[simp] theorem State.modFab_boot (s : State) (f : Fabric → Fabric) : (s.modFab f).boot = s.boot := rfl
@[simp] theorem State.modFab_sec (s : State) (f : Fabric → Fabric) : (s.modFab f).sec = s.sec := rfl
@[simp] theorem State.modFab_time (s : State) (f : Fabric → Fabric) : (s.modFab f).time = s.time := rfl
@[simp] theorem State.modFab_therm (s : State) (f : Fabric → Fabric) : (s.modFab f).therm = s.therm := rfl
@[simp] theorem State.modFab_power (s : State) (f : Fabric → Fabric) : (s.modFab f).power = s.power := rfl
@[simp] theorem State.modFab_steps (s : State) (f : Fabric → Fabric) : (s.modFab f).steps = s.steps := rfl
@[simp] theorem State.modFab_counters (s : State) (f : Fabric → Fabric) : (s.modFab f).counters = s.counters := rfl
@[simp] theorem State.modFab_zcp (s : State) (f : Fabric → Fabric) : (s.modFab f).zcp = s.zcp := rfl
@[simp] theorem State.modFab_dbg (s : State) (f : Fabric → Fabric) : (s.modFab f).dbg = s.dbg := rfl
@[simp] theorem State.modFab_tiles (s : State) (f : Fabric → Fabric) : (s.modFab f).tiles = s.tiles := rfl
@[simp] theorem State.modFab_mem (s : State) (f : Fabric → Fabric) : (s.modFab f).mem = s.mem := rfl
@[simp] theorem State.modFab_poison (s : State) (f : Fabric → Fabric) : (s.modFab f).poison = s.poison := rfl
@[simp] theorem State.modFab_poisonWords (s : State) (f : Fabric → Fabric) : (s.modFab f).poisonWords = s.poisonWords := rfl
@[simp] theorem State.modFab_hbm (s : State) (f : Fabric → Fabric) : (s.modFab f).hbm = s.hbm := rfl
@[simp] theorem State.modFab_xlat (s : State) (f : Fabric → Fabric) : (s.modFab f).xlat = s.xlat := rfl
@[simp] theorem State.modFab_faultQ (s : State) (f : Fabric → Fabric) : (s.modFab f).faultQ = s.faultQ := rfl
@[simp] theorem State.modFab_faultSeq (s : State) (f : Fabric → Fabric) : (s.modFab f).faultSeq = s.faultSeq := rfl
@[simp] theorem State.modFab_faultLost (s : State) (f : Fabric → Fabric) : (s.modFab f).faultLost = s.faultLost := rfl
@[simp] theorem State.modFab_moveFaults (s : State) (f : Fabric → Fabric) : (s.modFab f).moveFaults = s.moveFaults := rfl
@[simp] theorem State.modFab_jobs (s : State) (f : Fabric → Fabric) : (s.modFab f).jobs = s.jobs := rfl
@[simp] theorem State.modFab_ports (s : State) (f : Fabric → Fabric) : (s.modFab f).ports = s.ports := rfl
@[simp] theorem State.modFab_coll (s : State) (f : Fabric → Fabric) : (s.modFab f).coll = s.coll := rfl
@[simp] theorem State.modFab_host (s : State) (f : Fabric → Fabric) : (s.modFab f).host = s.host := rfl
@[simp] theorem State.modFab_bays (s : State) (f : Fabric → Fabric) : (s.modFab f).bays = s.bays := rfl
@[simp] theorem State.modFab_ppe (s : State) (f : Fabric → Fabric) : (s.modFab f).ppe = s.ppe := rfl
@[simp] theorem State.modFab_outbox (s : State) (f : Fabric → Fabric) : (s.modFab f).outbox = s.outbox := rfl
@[simp] theorem State.modFab_pending (s : State) (f : Fabric → Fabric) : (s.modFab f).pending = s.pending := rfl

/-! ## State.modPort -/

@[simp] theorem State.modPort_clock (s : State) (p : PortIx) (f : Port → Port) : (s.modPort p f).clock = s.clock := rfl
@[simp] theorem State.modPort_fresh (s : State) (p : PortIx) (f : Port → Port) : (s.modPort p f).fresh = s.fresh := rfl
@[simp] theorem State.modPort_board (s : State) (p : PortIx) (f : Port → Port) : (s.modPort p f).board = s.board := rfl
@[simp] theorem State.modPort_flash (s : State) (p : PortIx) (f : Port → Port) : (s.modPort p f).flash = s.flash := rfl
@[simp] theorem State.modPort_boot (s : State) (p : PortIx) (f : Port → Port) : (s.modPort p f).boot = s.boot := rfl
@[simp] theorem State.modPort_sec (s : State) (p : PortIx) (f : Port → Port) : (s.modPort p f).sec = s.sec := rfl
@[simp] theorem State.modPort_time (s : State) (p : PortIx) (f : Port → Port) : (s.modPort p f).time = s.time := rfl
@[simp] theorem State.modPort_therm (s : State) (p : PortIx) (f : Port → Port) : (s.modPort p f).therm = s.therm := rfl
@[simp] theorem State.modPort_power (s : State) (p : PortIx) (f : Port → Port) : (s.modPort p f).power = s.power := rfl
@[simp] theorem State.modPort_steps (s : State) (p : PortIx) (f : Port → Port) : (s.modPort p f).steps = s.steps := rfl
@[simp] theorem State.modPort_counters (s : State) (p : PortIx) (f : Port → Port) : (s.modPort p f).counters = s.counters := rfl
@[simp] theorem State.modPort_zcp (s : State) (p : PortIx) (f : Port → Port) : (s.modPort p f).zcp = s.zcp := rfl
@[simp] theorem State.modPort_dbg (s : State) (p : PortIx) (f : Port → Port) : (s.modPort p f).dbg = s.dbg := rfl
@[simp] theorem State.modPort_tiles (s : State) (p : PortIx) (f : Port → Port) : (s.modPort p f).tiles = s.tiles := rfl
@[simp] theorem State.modPort_mem (s : State) (p : PortIx) (f : Port → Port) : (s.modPort p f).mem = s.mem := rfl
@[simp] theorem State.modPort_poison (s : State) (p : PortIx) (f : Port → Port) : (s.modPort p f).poison = s.poison := rfl
@[simp] theorem State.modPort_poisonWords (s : State) (p : PortIx) (f : Port → Port) : (s.modPort p f).poisonWords = s.poisonWords := rfl
@[simp] theorem State.modPort_hbm (s : State) (p : PortIx) (f : Port → Port) : (s.modPort p f).hbm = s.hbm := rfl
@[simp] theorem State.modPort_xlat (s : State) (p : PortIx) (f : Port → Port) : (s.modPort p f).xlat = s.xlat := rfl
@[simp] theorem State.modPort_faultQ (s : State) (p : PortIx) (f : Port → Port) : (s.modPort p f).faultQ = s.faultQ := rfl
@[simp] theorem State.modPort_faultSeq (s : State) (p : PortIx) (f : Port → Port) : (s.modPort p f).faultSeq = s.faultSeq := rfl
@[simp] theorem State.modPort_faultLost (s : State) (p : PortIx) (f : Port → Port) : (s.modPort p f).faultLost = s.faultLost := rfl
@[simp] theorem State.modPort_moveFaults (s : State) (p : PortIx) (f : Port → Port) : (s.modPort p f).moveFaults = s.moveFaults := rfl
@[simp] theorem State.modPort_jobs (s : State) (p : PortIx) (f : Port → Port) : (s.modPort p f).jobs = s.jobs := rfl
@[simp] theorem State.modPort_fab (s : State) (p : PortIx) (f : Port → Port) : (s.modPort p f).fab = s.fab := rfl
@[simp] theorem State.modPort_coll (s : State) (p : PortIx) (f : Port → Port) : (s.modPort p f).coll = s.coll := rfl
@[simp] theorem State.modPort_host (s : State) (p : PortIx) (f : Port → Port) : (s.modPort p f).host = s.host := rfl
@[simp] theorem State.modPort_bays (s : State) (p : PortIx) (f : Port → Port) : (s.modPort p f).bays = s.bays := rfl
@[simp] theorem State.modPort_ppe (s : State) (p : PortIx) (f : Port → Port) : (s.modPort p f).ppe = s.ppe := rfl
@[simp] theorem State.modPort_outbox (s : State) (p : PortIx) (f : Port → Port) : (s.modPort p f).outbox = s.outbox := rfl
@[simp] theorem State.modPort_pending (s : State) (p : PortIx) (f : Port → Port) : (s.modPort p f).pending = s.pending := rfl

/-! ## State.modColl -/

@[simp] theorem State.modColl_clock (s : State) (f : Coll → Coll) : (s.modColl f).clock = s.clock := rfl
@[simp] theorem State.modColl_fresh (s : State) (f : Coll → Coll) : (s.modColl f).fresh = s.fresh := rfl
@[simp] theorem State.modColl_board (s : State) (f : Coll → Coll) : (s.modColl f).board = s.board := rfl
@[simp] theorem State.modColl_flash (s : State) (f : Coll → Coll) : (s.modColl f).flash = s.flash := rfl
@[simp] theorem State.modColl_boot (s : State) (f : Coll → Coll) : (s.modColl f).boot = s.boot := rfl
@[simp] theorem State.modColl_sec (s : State) (f : Coll → Coll) : (s.modColl f).sec = s.sec := rfl
@[simp] theorem State.modColl_time (s : State) (f : Coll → Coll) : (s.modColl f).time = s.time := rfl
@[simp] theorem State.modColl_therm (s : State) (f : Coll → Coll) : (s.modColl f).therm = s.therm := rfl
@[simp] theorem State.modColl_power (s : State) (f : Coll → Coll) : (s.modColl f).power = s.power := rfl
@[simp] theorem State.modColl_steps (s : State) (f : Coll → Coll) : (s.modColl f).steps = s.steps := rfl
@[simp] theorem State.modColl_counters (s : State) (f : Coll → Coll) : (s.modColl f).counters = s.counters := rfl
@[simp] theorem State.modColl_zcp (s : State) (f : Coll → Coll) : (s.modColl f).zcp = s.zcp := rfl
@[simp] theorem State.modColl_dbg (s : State) (f : Coll → Coll) : (s.modColl f).dbg = s.dbg := rfl
@[simp] theorem State.modColl_tiles (s : State) (f : Coll → Coll) : (s.modColl f).tiles = s.tiles := rfl
@[simp] theorem State.modColl_mem (s : State) (f : Coll → Coll) : (s.modColl f).mem = s.mem := rfl
@[simp] theorem State.modColl_poison (s : State) (f : Coll → Coll) : (s.modColl f).poison = s.poison := rfl
@[simp] theorem State.modColl_poisonWords (s : State) (f : Coll → Coll) : (s.modColl f).poisonWords = s.poisonWords := rfl
@[simp] theorem State.modColl_hbm (s : State) (f : Coll → Coll) : (s.modColl f).hbm = s.hbm := rfl
@[simp] theorem State.modColl_xlat (s : State) (f : Coll → Coll) : (s.modColl f).xlat = s.xlat := rfl
@[simp] theorem State.modColl_faultQ (s : State) (f : Coll → Coll) : (s.modColl f).faultQ = s.faultQ := rfl
@[simp] theorem State.modColl_faultSeq (s : State) (f : Coll → Coll) : (s.modColl f).faultSeq = s.faultSeq := rfl
@[simp] theorem State.modColl_faultLost (s : State) (f : Coll → Coll) : (s.modColl f).faultLost = s.faultLost := rfl
@[simp] theorem State.modColl_moveFaults (s : State) (f : Coll → Coll) : (s.modColl f).moveFaults = s.moveFaults := rfl
@[simp] theorem State.modColl_jobs (s : State) (f : Coll → Coll) : (s.modColl f).jobs = s.jobs := rfl
@[simp] theorem State.modColl_fab (s : State) (f : Coll → Coll) : (s.modColl f).fab = s.fab := rfl
@[simp] theorem State.modColl_ports (s : State) (f : Coll → Coll) : (s.modColl f).ports = s.ports := rfl
@[simp] theorem State.modColl_host (s : State) (f : Coll → Coll) : (s.modColl f).host = s.host := rfl
@[simp] theorem State.modColl_bays (s : State) (f : Coll → Coll) : (s.modColl f).bays = s.bays := rfl
@[simp] theorem State.modColl_ppe (s : State) (f : Coll → Coll) : (s.modColl f).ppe = s.ppe := rfl
@[simp] theorem State.modColl_outbox (s : State) (f : Coll → Coll) : (s.modColl f).outbox = s.outbox := rfl
@[simp] theorem State.modColl_pending (s : State) (f : Coll → Coll) : (s.modColl f).pending = s.pending := rfl

/-! ## State.modPpe -/

@[simp] theorem State.modPpe_clock (s : State) (f : Ppe → Ppe) : (s.modPpe f).clock = s.clock := rfl
@[simp] theorem State.modPpe_fresh (s : State) (f : Ppe → Ppe) : (s.modPpe f).fresh = s.fresh := rfl
@[simp] theorem State.modPpe_board (s : State) (f : Ppe → Ppe) : (s.modPpe f).board = s.board := rfl
@[simp] theorem State.modPpe_flash (s : State) (f : Ppe → Ppe) : (s.modPpe f).flash = s.flash := rfl
@[simp] theorem State.modPpe_boot (s : State) (f : Ppe → Ppe) : (s.modPpe f).boot = s.boot := rfl
@[simp] theorem State.modPpe_sec (s : State) (f : Ppe → Ppe) : (s.modPpe f).sec = s.sec := rfl
@[simp] theorem State.modPpe_time (s : State) (f : Ppe → Ppe) : (s.modPpe f).time = s.time := rfl
@[simp] theorem State.modPpe_therm (s : State) (f : Ppe → Ppe) : (s.modPpe f).therm = s.therm := rfl
@[simp] theorem State.modPpe_power (s : State) (f : Ppe → Ppe) : (s.modPpe f).power = s.power := rfl
@[simp] theorem State.modPpe_steps (s : State) (f : Ppe → Ppe) : (s.modPpe f).steps = s.steps := rfl
@[simp] theorem State.modPpe_counters (s : State) (f : Ppe → Ppe) : (s.modPpe f).counters = s.counters := rfl
@[simp] theorem State.modPpe_zcp (s : State) (f : Ppe → Ppe) : (s.modPpe f).zcp = s.zcp := rfl
@[simp] theorem State.modPpe_dbg (s : State) (f : Ppe → Ppe) : (s.modPpe f).dbg = s.dbg := rfl
@[simp] theorem State.modPpe_tiles (s : State) (f : Ppe → Ppe) : (s.modPpe f).tiles = s.tiles := rfl
@[simp] theorem State.modPpe_mem (s : State) (f : Ppe → Ppe) : (s.modPpe f).mem = s.mem := rfl
@[simp] theorem State.modPpe_poison (s : State) (f : Ppe → Ppe) : (s.modPpe f).poison = s.poison := rfl
@[simp] theorem State.modPpe_poisonWords (s : State) (f : Ppe → Ppe) : (s.modPpe f).poisonWords = s.poisonWords := rfl
@[simp] theorem State.modPpe_hbm (s : State) (f : Ppe → Ppe) : (s.modPpe f).hbm = s.hbm := rfl
@[simp] theorem State.modPpe_xlat (s : State) (f : Ppe → Ppe) : (s.modPpe f).xlat = s.xlat := rfl
@[simp] theorem State.modPpe_faultQ (s : State) (f : Ppe → Ppe) : (s.modPpe f).faultQ = s.faultQ := rfl
@[simp] theorem State.modPpe_faultSeq (s : State) (f : Ppe → Ppe) : (s.modPpe f).faultSeq = s.faultSeq := rfl
@[simp] theorem State.modPpe_faultLost (s : State) (f : Ppe → Ppe) : (s.modPpe f).faultLost = s.faultLost := rfl
@[simp] theorem State.modPpe_moveFaults (s : State) (f : Ppe → Ppe) : (s.modPpe f).moveFaults = s.moveFaults := rfl
@[simp] theorem State.modPpe_jobs (s : State) (f : Ppe → Ppe) : (s.modPpe f).jobs = s.jobs := rfl
@[simp] theorem State.modPpe_fab (s : State) (f : Ppe → Ppe) : (s.modPpe f).fab = s.fab := rfl
@[simp] theorem State.modPpe_ports (s : State) (f : Ppe → Ppe) : (s.modPpe f).ports = s.ports := rfl
@[simp] theorem State.modPpe_coll (s : State) (f : Ppe → Ppe) : (s.modPpe f).coll = s.coll := rfl
@[simp] theorem State.modPpe_host (s : State) (f : Ppe → Ppe) : (s.modPpe f).host = s.host := rfl
@[simp] theorem State.modPpe_bays (s : State) (f : Ppe → Ppe) : (s.modPpe f).bays = s.bays := rfl
@[simp] theorem State.modPpe_outbox (s : State) (f : Ppe → Ppe) : (s.modPpe f).outbox = s.outbox := rfl
@[simp] theorem State.modPpe_pending (s : State) (f : Ppe → Ppe) : (s.modPpe f).pending = s.pending := rfl

/-! ## State.modTime -/

@[simp] theorem State.modTime_clock (s : State) (f : TimeBase → TimeBase) : (s.modTime f).clock = s.clock := rfl
@[simp] theorem State.modTime_fresh (s : State) (f : TimeBase → TimeBase) : (s.modTime f).fresh = s.fresh := rfl
@[simp] theorem State.modTime_board (s : State) (f : TimeBase → TimeBase) : (s.modTime f).board = s.board := rfl
@[simp] theorem State.modTime_flash (s : State) (f : TimeBase → TimeBase) : (s.modTime f).flash = s.flash := rfl
@[simp] theorem State.modTime_boot (s : State) (f : TimeBase → TimeBase) : (s.modTime f).boot = s.boot := rfl
@[simp] theorem State.modTime_sec (s : State) (f : TimeBase → TimeBase) : (s.modTime f).sec = s.sec := rfl
@[simp] theorem State.modTime_therm (s : State) (f : TimeBase → TimeBase) : (s.modTime f).therm = s.therm := rfl
@[simp] theorem State.modTime_power (s : State) (f : TimeBase → TimeBase) : (s.modTime f).power = s.power := rfl
@[simp] theorem State.modTime_steps (s : State) (f : TimeBase → TimeBase) : (s.modTime f).steps = s.steps := rfl
@[simp] theorem State.modTime_counters (s : State) (f : TimeBase → TimeBase) : (s.modTime f).counters = s.counters := rfl
@[simp] theorem State.modTime_zcp (s : State) (f : TimeBase → TimeBase) : (s.modTime f).zcp = s.zcp := rfl
@[simp] theorem State.modTime_dbg (s : State) (f : TimeBase → TimeBase) : (s.modTime f).dbg = s.dbg := rfl
@[simp] theorem State.modTime_tiles (s : State) (f : TimeBase → TimeBase) : (s.modTime f).tiles = s.tiles := rfl
@[simp] theorem State.modTime_mem (s : State) (f : TimeBase → TimeBase) : (s.modTime f).mem = s.mem := rfl
@[simp] theorem State.modTime_poison (s : State) (f : TimeBase → TimeBase) : (s.modTime f).poison = s.poison := rfl
@[simp] theorem State.modTime_poisonWords (s : State) (f : TimeBase → TimeBase) : (s.modTime f).poisonWords = s.poisonWords := rfl
@[simp] theorem State.modTime_hbm (s : State) (f : TimeBase → TimeBase) : (s.modTime f).hbm = s.hbm := rfl
@[simp] theorem State.modTime_xlat (s : State) (f : TimeBase → TimeBase) : (s.modTime f).xlat = s.xlat := rfl
@[simp] theorem State.modTime_faultQ (s : State) (f : TimeBase → TimeBase) : (s.modTime f).faultQ = s.faultQ := rfl
@[simp] theorem State.modTime_faultSeq (s : State) (f : TimeBase → TimeBase) : (s.modTime f).faultSeq = s.faultSeq := rfl
@[simp] theorem State.modTime_faultLost (s : State) (f : TimeBase → TimeBase) : (s.modTime f).faultLost = s.faultLost := rfl
@[simp] theorem State.modTime_moveFaults (s : State) (f : TimeBase → TimeBase) : (s.modTime f).moveFaults = s.moveFaults := rfl
@[simp] theorem State.modTime_jobs (s : State) (f : TimeBase → TimeBase) : (s.modTime f).jobs = s.jobs := rfl
@[simp] theorem State.modTime_fab (s : State) (f : TimeBase → TimeBase) : (s.modTime f).fab = s.fab := rfl
@[simp] theorem State.modTime_ports (s : State) (f : TimeBase → TimeBase) : (s.modTime f).ports = s.ports := rfl
@[simp] theorem State.modTime_coll (s : State) (f : TimeBase → TimeBase) : (s.modTime f).coll = s.coll := rfl
@[simp] theorem State.modTime_host (s : State) (f : TimeBase → TimeBase) : (s.modTime f).host = s.host := rfl
@[simp] theorem State.modTime_bays (s : State) (f : TimeBase → TimeBase) : (s.modTime f).bays = s.bays := rfl
@[simp] theorem State.modTime_ppe (s : State) (f : TimeBase → TimeBase) : (s.modTime f).ppe = s.ppe := rfl
@[simp] theorem State.modTime_outbox (s : State) (f : TimeBase → TimeBase) : (s.modTime f).outbox = s.outbox := rfl
@[simp] theorem State.modTime_pending (s : State) (f : TimeBase → TimeBase) : (s.modTime f).pending = s.pending := rfl

/-! ## State.modBay -/

@[simp] theorem State.modBay_clock (s : State) (b : BayIx) (f : Bay → Bay) : (s.modBay b f).clock = s.clock := rfl
@[simp] theorem State.modBay_fresh (s : State) (b : BayIx) (f : Bay → Bay) : (s.modBay b f).fresh = s.fresh := rfl
@[simp] theorem State.modBay_board (s : State) (b : BayIx) (f : Bay → Bay) : (s.modBay b f).board = s.board := rfl
@[simp] theorem State.modBay_flash (s : State) (b : BayIx) (f : Bay → Bay) : (s.modBay b f).flash = s.flash := rfl
@[simp] theorem State.modBay_boot (s : State) (b : BayIx) (f : Bay → Bay) : (s.modBay b f).boot = s.boot := rfl
@[simp] theorem State.modBay_sec (s : State) (b : BayIx) (f : Bay → Bay) : (s.modBay b f).sec = s.sec := rfl
@[simp] theorem State.modBay_time (s : State) (b : BayIx) (f : Bay → Bay) : (s.modBay b f).time = s.time := rfl
@[simp] theorem State.modBay_therm (s : State) (b : BayIx) (f : Bay → Bay) : (s.modBay b f).therm = s.therm := rfl
@[simp] theorem State.modBay_power (s : State) (b : BayIx) (f : Bay → Bay) : (s.modBay b f).power = s.power := rfl
@[simp] theorem State.modBay_steps (s : State) (b : BayIx) (f : Bay → Bay) : (s.modBay b f).steps = s.steps := rfl
@[simp] theorem State.modBay_counters (s : State) (b : BayIx) (f : Bay → Bay) : (s.modBay b f).counters = s.counters := rfl
@[simp] theorem State.modBay_zcp (s : State) (b : BayIx) (f : Bay → Bay) : (s.modBay b f).zcp = s.zcp := rfl
@[simp] theorem State.modBay_dbg (s : State) (b : BayIx) (f : Bay → Bay) : (s.modBay b f).dbg = s.dbg := rfl
@[simp] theorem State.modBay_tiles (s : State) (b : BayIx) (f : Bay → Bay) : (s.modBay b f).tiles = s.tiles := rfl
@[simp] theorem State.modBay_mem (s : State) (b : BayIx) (f : Bay → Bay) : (s.modBay b f).mem = s.mem := rfl
@[simp] theorem State.modBay_poison (s : State) (b : BayIx) (f : Bay → Bay) : (s.modBay b f).poison = s.poison := rfl
@[simp] theorem State.modBay_poisonWords (s : State) (b : BayIx) (f : Bay → Bay) : (s.modBay b f).poisonWords = s.poisonWords := rfl
@[simp] theorem State.modBay_hbm (s : State) (b : BayIx) (f : Bay → Bay) : (s.modBay b f).hbm = s.hbm := rfl
@[simp] theorem State.modBay_xlat (s : State) (b : BayIx) (f : Bay → Bay) : (s.modBay b f).xlat = s.xlat := rfl
@[simp] theorem State.modBay_faultQ (s : State) (b : BayIx) (f : Bay → Bay) : (s.modBay b f).faultQ = s.faultQ := rfl
@[simp] theorem State.modBay_faultSeq (s : State) (b : BayIx) (f : Bay → Bay) : (s.modBay b f).faultSeq = s.faultSeq := rfl
@[simp] theorem State.modBay_faultLost (s : State) (b : BayIx) (f : Bay → Bay) : (s.modBay b f).faultLost = s.faultLost := rfl
@[simp] theorem State.modBay_moveFaults (s : State) (b : BayIx) (f : Bay → Bay) : (s.modBay b f).moveFaults = s.moveFaults := rfl
@[simp] theorem State.modBay_jobs (s : State) (b : BayIx) (f : Bay → Bay) : (s.modBay b f).jobs = s.jobs := rfl
@[simp] theorem State.modBay_fab (s : State) (b : BayIx) (f : Bay → Bay) : (s.modBay b f).fab = s.fab := rfl
@[simp] theorem State.modBay_ports (s : State) (b : BayIx) (f : Bay → Bay) : (s.modBay b f).ports = s.ports := rfl
@[simp] theorem State.modBay_coll (s : State) (b : BayIx) (f : Bay → Bay) : (s.modBay b f).coll = s.coll := rfl
@[simp] theorem State.modBay_host (s : State) (b : BayIx) (f : Bay → Bay) : (s.modBay b f).host = s.host := rfl
@[simp] theorem State.modBay_ppe (s : State) (b : BayIx) (f : Bay → Bay) : (s.modBay b f).ppe = s.ppe := rfl
@[simp] theorem State.modBay_outbox (s : State) (b : BayIx) (f : Bay → Bay) : (s.modBay b f).outbox = s.outbox := rfl
@[simp] theorem State.modBay_pending (s : State) (b : BayIx) (f : Bay → Bay) : (s.modBay b f).pending = s.pending := rfl

/-! ## State.modHost -/

@[simp] theorem State.modHost_clock (s : State) (f : HostEth → HostEth) : (s.modHost f).clock = s.clock := rfl
@[simp] theorem State.modHost_fresh (s : State) (f : HostEth → HostEth) : (s.modHost f).fresh = s.fresh := rfl
@[simp] theorem State.modHost_board (s : State) (f : HostEth → HostEth) : (s.modHost f).board = s.board := rfl
@[simp] theorem State.modHost_flash (s : State) (f : HostEth → HostEth) : (s.modHost f).flash = s.flash := rfl
@[simp] theorem State.modHost_boot (s : State) (f : HostEth → HostEth) : (s.modHost f).boot = s.boot := rfl
@[simp] theorem State.modHost_sec (s : State) (f : HostEth → HostEth) : (s.modHost f).sec = s.sec := rfl
@[simp] theorem State.modHost_time (s : State) (f : HostEth → HostEth) : (s.modHost f).time = s.time := rfl
@[simp] theorem State.modHost_therm (s : State) (f : HostEth → HostEth) : (s.modHost f).therm = s.therm := rfl
@[simp] theorem State.modHost_power (s : State) (f : HostEth → HostEth) : (s.modHost f).power = s.power := rfl
@[simp] theorem State.modHost_steps (s : State) (f : HostEth → HostEth) : (s.modHost f).steps = s.steps := rfl
@[simp] theorem State.modHost_counters (s : State) (f : HostEth → HostEth) : (s.modHost f).counters = s.counters := rfl
@[simp] theorem State.modHost_zcp (s : State) (f : HostEth → HostEth) : (s.modHost f).zcp = s.zcp := rfl
@[simp] theorem State.modHost_dbg (s : State) (f : HostEth → HostEth) : (s.modHost f).dbg = s.dbg := rfl
@[simp] theorem State.modHost_tiles (s : State) (f : HostEth → HostEth) : (s.modHost f).tiles = s.tiles := rfl
@[simp] theorem State.modHost_mem (s : State) (f : HostEth → HostEth) : (s.modHost f).mem = s.mem := rfl
@[simp] theorem State.modHost_poison (s : State) (f : HostEth → HostEth) : (s.modHost f).poison = s.poison := rfl
@[simp] theorem State.modHost_poisonWords (s : State) (f : HostEth → HostEth) : (s.modHost f).poisonWords = s.poisonWords := rfl
@[simp] theorem State.modHost_hbm (s : State) (f : HostEth → HostEth) : (s.modHost f).hbm = s.hbm := rfl
@[simp] theorem State.modHost_xlat (s : State) (f : HostEth → HostEth) : (s.modHost f).xlat = s.xlat := rfl
@[simp] theorem State.modHost_faultQ (s : State) (f : HostEth → HostEth) : (s.modHost f).faultQ = s.faultQ := rfl
@[simp] theorem State.modHost_faultSeq (s : State) (f : HostEth → HostEth) : (s.modHost f).faultSeq = s.faultSeq := rfl
@[simp] theorem State.modHost_faultLost (s : State) (f : HostEth → HostEth) : (s.modHost f).faultLost = s.faultLost := rfl
@[simp] theorem State.modHost_moveFaults (s : State) (f : HostEth → HostEth) : (s.modHost f).moveFaults = s.moveFaults := rfl
@[simp] theorem State.modHost_jobs (s : State) (f : HostEth → HostEth) : (s.modHost f).jobs = s.jobs := rfl
@[simp] theorem State.modHost_fab (s : State) (f : HostEth → HostEth) : (s.modHost f).fab = s.fab := rfl
@[simp] theorem State.modHost_ports (s : State) (f : HostEth → HostEth) : (s.modHost f).ports = s.ports := rfl
@[simp] theorem State.modHost_coll (s : State) (f : HostEth → HostEth) : (s.modHost f).coll = s.coll := rfl
@[simp] theorem State.modHost_bays (s : State) (f : HostEth → HostEth) : (s.modHost f).bays = s.bays := rfl
@[simp] theorem State.modHost_ppe (s : State) (f : HostEth → HostEth) : (s.modHost f).ppe = s.ppe := rfl
@[simp] theorem State.modHost_outbox (s : State) (f : HostEth → HostEth) : (s.modHost f).outbox = s.outbox := rfl
@[simp] theorem State.modHost_pending (s : State) (f : HostEth → HostEth) : (s.modHost f).pending = s.pending := rfl

/-! ## State.modHostPort -/

@[simp] theorem State.modHostPort_clock (s : State) (h : HostIx) (f : HostPort → HostPort) : (s.modHostPort h f).clock = s.clock := rfl
@[simp] theorem State.modHostPort_fresh (s : State) (h : HostIx) (f : HostPort → HostPort) : (s.modHostPort h f).fresh = s.fresh := rfl
@[simp] theorem State.modHostPort_board (s : State) (h : HostIx) (f : HostPort → HostPort) : (s.modHostPort h f).board = s.board := rfl
@[simp] theorem State.modHostPort_flash (s : State) (h : HostIx) (f : HostPort → HostPort) : (s.modHostPort h f).flash = s.flash := rfl
@[simp] theorem State.modHostPort_boot (s : State) (h : HostIx) (f : HostPort → HostPort) : (s.modHostPort h f).boot = s.boot := rfl
@[simp] theorem State.modHostPort_sec (s : State) (h : HostIx) (f : HostPort → HostPort) : (s.modHostPort h f).sec = s.sec := rfl
@[simp] theorem State.modHostPort_time (s : State) (h : HostIx) (f : HostPort → HostPort) : (s.modHostPort h f).time = s.time := rfl
@[simp] theorem State.modHostPort_therm (s : State) (h : HostIx) (f : HostPort → HostPort) : (s.modHostPort h f).therm = s.therm := rfl
@[simp] theorem State.modHostPort_power (s : State) (h : HostIx) (f : HostPort → HostPort) : (s.modHostPort h f).power = s.power := rfl
@[simp] theorem State.modHostPort_steps (s : State) (h : HostIx) (f : HostPort → HostPort) : (s.modHostPort h f).steps = s.steps := rfl
@[simp] theorem State.modHostPort_counters (s : State) (h : HostIx) (f : HostPort → HostPort) : (s.modHostPort h f).counters = s.counters := rfl
@[simp] theorem State.modHostPort_zcp (s : State) (h : HostIx) (f : HostPort → HostPort) : (s.modHostPort h f).zcp = s.zcp := rfl
@[simp] theorem State.modHostPort_dbg (s : State) (h : HostIx) (f : HostPort → HostPort) : (s.modHostPort h f).dbg = s.dbg := rfl
@[simp] theorem State.modHostPort_tiles (s : State) (h : HostIx) (f : HostPort → HostPort) : (s.modHostPort h f).tiles = s.tiles := rfl
@[simp] theorem State.modHostPort_mem (s : State) (h : HostIx) (f : HostPort → HostPort) : (s.modHostPort h f).mem = s.mem := rfl
@[simp] theorem State.modHostPort_poison (s : State) (h : HostIx) (f : HostPort → HostPort) : (s.modHostPort h f).poison = s.poison := rfl
@[simp] theorem State.modHostPort_poisonWords (s : State) (h : HostIx) (f : HostPort → HostPort) : (s.modHostPort h f).poisonWords = s.poisonWords := rfl
@[simp] theorem State.modHostPort_hbm (s : State) (h : HostIx) (f : HostPort → HostPort) : (s.modHostPort h f).hbm = s.hbm := rfl
@[simp] theorem State.modHostPort_xlat (s : State) (h : HostIx) (f : HostPort → HostPort) : (s.modHostPort h f).xlat = s.xlat := rfl
@[simp] theorem State.modHostPort_faultQ (s : State) (h : HostIx) (f : HostPort → HostPort) : (s.modHostPort h f).faultQ = s.faultQ := rfl
@[simp] theorem State.modHostPort_faultSeq (s : State) (h : HostIx) (f : HostPort → HostPort) : (s.modHostPort h f).faultSeq = s.faultSeq := rfl
@[simp] theorem State.modHostPort_faultLost (s : State) (h : HostIx) (f : HostPort → HostPort) : (s.modHostPort h f).faultLost = s.faultLost := rfl
@[simp] theorem State.modHostPort_moveFaults (s : State) (h : HostIx) (f : HostPort → HostPort) : (s.modHostPort h f).moveFaults = s.moveFaults := rfl
@[simp] theorem State.modHostPort_jobs (s : State) (h : HostIx) (f : HostPort → HostPort) : (s.modHostPort h f).jobs = s.jobs := rfl
@[simp] theorem State.modHostPort_fab (s : State) (h : HostIx) (f : HostPort → HostPort) : (s.modHostPort h f).fab = s.fab := rfl
@[simp] theorem State.modHostPort_ports (s : State) (h : HostIx) (f : HostPort → HostPort) : (s.modHostPort h f).ports = s.ports := rfl
@[simp] theorem State.modHostPort_coll (s : State) (h : HostIx) (f : HostPort → HostPort) : (s.modHostPort h f).coll = s.coll := rfl
@[simp] theorem State.modHostPort_bays (s : State) (h : HostIx) (f : HostPort → HostPort) : (s.modHostPort h f).bays = s.bays := rfl
@[simp] theorem State.modHostPort_ppe (s : State) (h : HostIx) (f : HostPort → HostPort) : (s.modHostPort h f).ppe = s.ppe := rfl
@[simp] theorem State.modHostPort_outbox (s : State) (h : HostIx) (f : HostPort → HostPort) : (s.modHostPort h f).outbox = s.outbox := rfl
@[simp] theorem State.modHostPort_pending (s : State) (h : HostIx) (f : HostPort → HostPort) : (s.modHostPort h f).pending = s.pending := rfl

/-! ## State.modIface -/

@[simp] theorem State.modIface_clock (s : State) (i : IfIx) (f : Iface → Iface) : (s.modIface i f).clock = s.clock := rfl
@[simp] theorem State.modIface_fresh (s : State) (i : IfIx) (f : Iface → Iface) : (s.modIface i f).fresh = s.fresh := rfl
@[simp] theorem State.modIface_board (s : State) (i : IfIx) (f : Iface → Iface) : (s.modIface i f).board = s.board := rfl
@[simp] theorem State.modIface_flash (s : State) (i : IfIx) (f : Iface → Iface) : (s.modIface i f).flash = s.flash := rfl
@[simp] theorem State.modIface_boot (s : State) (i : IfIx) (f : Iface → Iface) : (s.modIface i f).boot = s.boot := rfl
@[simp] theorem State.modIface_sec (s : State) (i : IfIx) (f : Iface → Iface) : (s.modIface i f).sec = s.sec := rfl
@[simp] theorem State.modIface_time (s : State) (i : IfIx) (f : Iface → Iface) : (s.modIface i f).time = s.time := rfl
@[simp] theorem State.modIface_therm (s : State) (i : IfIx) (f : Iface → Iface) : (s.modIface i f).therm = s.therm := rfl
@[simp] theorem State.modIface_power (s : State) (i : IfIx) (f : Iface → Iface) : (s.modIface i f).power = s.power := rfl
@[simp] theorem State.modIface_steps (s : State) (i : IfIx) (f : Iface → Iface) : (s.modIface i f).steps = s.steps := rfl
@[simp] theorem State.modIface_counters (s : State) (i : IfIx) (f : Iface → Iface) : (s.modIface i f).counters = s.counters := rfl
@[simp] theorem State.modIface_zcp (s : State) (i : IfIx) (f : Iface → Iface) : (s.modIface i f).zcp = s.zcp := rfl
@[simp] theorem State.modIface_dbg (s : State) (i : IfIx) (f : Iface → Iface) : (s.modIface i f).dbg = s.dbg := rfl
@[simp] theorem State.modIface_tiles (s : State) (i : IfIx) (f : Iface → Iface) : (s.modIface i f).tiles = s.tiles := rfl
@[simp] theorem State.modIface_mem (s : State) (i : IfIx) (f : Iface → Iface) : (s.modIface i f).mem = s.mem := rfl
@[simp] theorem State.modIface_poison (s : State) (i : IfIx) (f : Iface → Iface) : (s.modIface i f).poison = s.poison := rfl
@[simp] theorem State.modIface_poisonWords (s : State) (i : IfIx) (f : Iface → Iface) : (s.modIface i f).poisonWords = s.poisonWords := rfl
@[simp] theorem State.modIface_hbm (s : State) (i : IfIx) (f : Iface → Iface) : (s.modIface i f).hbm = s.hbm := rfl
@[simp] theorem State.modIface_xlat (s : State) (i : IfIx) (f : Iface → Iface) : (s.modIface i f).xlat = s.xlat := rfl
@[simp] theorem State.modIface_faultQ (s : State) (i : IfIx) (f : Iface → Iface) : (s.modIface i f).faultQ = s.faultQ := rfl
@[simp] theorem State.modIface_faultSeq (s : State) (i : IfIx) (f : Iface → Iface) : (s.modIface i f).faultSeq = s.faultSeq := rfl
@[simp] theorem State.modIface_faultLost (s : State) (i : IfIx) (f : Iface → Iface) : (s.modIface i f).faultLost = s.faultLost := rfl
@[simp] theorem State.modIface_moveFaults (s : State) (i : IfIx) (f : Iface → Iface) : (s.modIface i f).moveFaults = s.moveFaults := rfl
@[simp] theorem State.modIface_jobs (s : State) (i : IfIx) (f : Iface → Iface) : (s.modIface i f).jobs = s.jobs := rfl
@[simp] theorem State.modIface_fab (s : State) (i : IfIx) (f : Iface → Iface) : (s.modIface i f).fab = s.fab := rfl
@[simp] theorem State.modIface_ports (s : State) (i : IfIx) (f : Iface → Iface) : (s.modIface i f).ports = s.ports := rfl
@[simp] theorem State.modIface_coll (s : State) (i : IfIx) (f : Iface → Iface) : (s.modIface i f).coll = s.coll := rfl
@[simp] theorem State.modIface_bays (s : State) (i : IfIx) (f : Iface → Iface) : (s.modIface i f).bays = s.bays := rfl
@[simp] theorem State.modIface_ppe (s : State) (i : IfIx) (f : Iface → Iface) : (s.modIface i f).ppe = s.ppe := rfl
@[simp] theorem State.modIface_outbox (s : State) (i : IfIx) (f : Iface → Iface) : (s.modIface i f).outbox = s.outbox := rfl
@[simp] theorem State.modIface_pending (s : State) (i : IfIx) (f : Iface → Iface) : (s.modIface i f).pending = s.pending := rfl

/-! ## State.modQp -/

@[simp] theorem State.modQp_clock (s : State) (n : Nat) (f : Qp → Qp) : (s.modQp n f).clock = s.clock := rfl
@[simp] theorem State.modQp_fresh (s : State) (n : Nat) (f : Qp → Qp) : (s.modQp n f).fresh = s.fresh := rfl
@[simp] theorem State.modQp_board (s : State) (n : Nat) (f : Qp → Qp) : (s.modQp n f).board = s.board := rfl
@[simp] theorem State.modQp_flash (s : State) (n : Nat) (f : Qp → Qp) : (s.modQp n f).flash = s.flash := rfl
@[simp] theorem State.modQp_boot (s : State) (n : Nat) (f : Qp → Qp) : (s.modQp n f).boot = s.boot := rfl
@[simp] theorem State.modQp_sec (s : State) (n : Nat) (f : Qp → Qp) : (s.modQp n f).sec = s.sec := rfl
@[simp] theorem State.modQp_time (s : State) (n : Nat) (f : Qp → Qp) : (s.modQp n f).time = s.time := rfl
@[simp] theorem State.modQp_therm (s : State) (n : Nat) (f : Qp → Qp) : (s.modQp n f).therm = s.therm := rfl
@[simp] theorem State.modQp_power (s : State) (n : Nat) (f : Qp → Qp) : (s.modQp n f).power = s.power := rfl
@[simp] theorem State.modQp_steps (s : State) (n : Nat) (f : Qp → Qp) : (s.modQp n f).steps = s.steps := rfl
@[simp] theorem State.modQp_counters (s : State) (n : Nat) (f : Qp → Qp) : (s.modQp n f).counters = s.counters := rfl
@[simp] theorem State.modQp_zcp (s : State) (n : Nat) (f : Qp → Qp) : (s.modQp n f).zcp = s.zcp := rfl
@[simp] theorem State.modQp_dbg (s : State) (n : Nat) (f : Qp → Qp) : (s.modQp n f).dbg = s.dbg := rfl
@[simp] theorem State.modQp_tiles (s : State) (n : Nat) (f : Qp → Qp) : (s.modQp n f).tiles = s.tiles := rfl
@[simp] theorem State.modQp_mem (s : State) (n : Nat) (f : Qp → Qp) : (s.modQp n f).mem = s.mem := rfl
@[simp] theorem State.modQp_poison (s : State) (n : Nat) (f : Qp → Qp) : (s.modQp n f).poison = s.poison := rfl
@[simp] theorem State.modQp_poisonWords (s : State) (n : Nat) (f : Qp → Qp) : (s.modQp n f).poisonWords = s.poisonWords := rfl
@[simp] theorem State.modQp_hbm (s : State) (n : Nat) (f : Qp → Qp) : (s.modQp n f).hbm = s.hbm := rfl
@[simp] theorem State.modQp_xlat (s : State) (n : Nat) (f : Qp → Qp) : (s.modQp n f).xlat = s.xlat := rfl
@[simp] theorem State.modQp_faultQ (s : State) (n : Nat) (f : Qp → Qp) : (s.modQp n f).faultQ = s.faultQ := rfl
@[simp] theorem State.modQp_faultSeq (s : State) (n : Nat) (f : Qp → Qp) : (s.modQp n f).faultSeq = s.faultSeq := rfl
@[simp] theorem State.modQp_faultLost (s : State) (n : Nat) (f : Qp → Qp) : (s.modQp n f).faultLost = s.faultLost := rfl
@[simp] theorem State.modQp_moveFaults (s : State) (n : Nat) (f : Qp → Qp) : (s.modQp n f).moveFaults = s.moveFaults := rfl
@[simp] theorem State.modQp_jobs (s : State) (n : Nat) (f : Qp → Qp) : (s.modQp n f).jobs = s.jobs := rfl
@[simp] theorem State.modQp_fab (s : State) (n : Nat) (f : Qp → Qp) : (s.modQp n f).fab = s.fab := rfl
@[simp] theorem State.modQp_ports (s : State) (n : Nat) (f : Qp → Qp) : (s.modQp n f).ports = s.ports := rfl
@[simp] theorem State.modQp_coll (s : State) (n : Nat) (f : Qp → Qp) : (s.modQp n f).coll = s.coll := rfl
@[simp] theorem State.modQp_bays (s : State) (n : Nat) (f : Qp → Qp) : (s.modQp n f).bays = s.bays := rfl
@[simp] theorem State.modQp_ppe (s : State) (n : Nat) (f : Qp → Qp) : (s.modQp n f).ppe = s.ppe := rfl
@[simp] theorem State.modQp_outbox (s : State) (n : Nat) (f : Qp → Qp) : (s.modQp n f).outbox = s.outbox := rfl
@[simp] theorem State.modQp_pending (s : State) (n : Nat) (f : Qp → Qp) : (s.modQp n f).pending = s.pending := rfl

/-! ## State.modBook -/

@[simp] theorem State.modBook_clock (s : State) (p : PortIx) (f : EscBook → EscBook) : (s.modBook p f).clock = s.clock := rfl
@[simp] theorem State.modBook_fresh (s : State) (p : PortIx) (f : EscBook → EscBook) : (s.modBook p f).fresh = s.fresh := rfl
@[simp] theorem State.modBook_board (s : State) (p : PortIx) (f : EscBook → EscBook) : (s.modBook p f).board = s.board := rfl
@[simp] theorem State.modBook_flash (s : State) (p : PortIx) (f : EscBook → EscBook) : (s.modBook p f).flash = s.flash := rfl
@[simp] theorem State.modBook_boot (s : State) (p : PortIx) (f : EscBook → EscBook) : (s.modBook p f).boot = s.boot := rfl
@[simp] theorem State.modBook_sec (s : State) (p : PortIx) (f : EscBook → EscBook) : (s.modBook p f).sec = s.sec := rfl
@[simp] theorem State.modBook_time (s : State) (p : PortIx) (f : EscBook → EscBook) : (s.modBook p f).time = s.time := rfl
@[simp] theorem State.modBook_therm (s : State) (p : PortIx) (f : EscBook → EscBook) : (s.modBook p f).therm = s.therm := rfl
@[simp] theorem State.modBook_power (s : State) (p : PortIx) (f : EscBook → EscBook) : (s.modBook p f).power = s.power := rfl
@[simp] theorem State.modBook_steps (s : State) (p : PortIx) (f : EscBook → EscBook) : (s.modBook p f).steps = s.steps := rfl
@[simp] theorem State.modBook_counters (s : State) (p : PortIx) (f : EscBook → EscBook) : (s.modBook p f).counters = s.counters := rfl
@[simp] theorem State.modBook_zcp (s : State) (p : PortIx) (f : EscBook → EscBook) : (s.modBook p f).zcp = s.zcp := rfl
@[simp] theorem State.modBook_dbg (s : State) (p : PortIx) (f : EscBook → EscBook) : (s.modBook p f).dbg = s.dbg := rfl
@[simp] theorem State.modBook_tiles (s : State) (p : PortIx) (f : EscBook → EscBook) : (s.modBook p f).tiles = s.tiles := rfl
@[simp] theorem State.modBook_mem (s : State) (p : PortIx) (f : EscBook → EscBook) : (s.modBook p f).mem = s.mem := rfl
@[simp] theorem State.modBook_poison (s : State) (p : PortIx) (f : EscBook → EscBook) : (s.modBook p f).poison = s.poison := rfl
@[simp] theorem State.modBook_poisonWords (s : State) (p : PortIx) (f : EscBook → EscBook) : (s.modBook p f).poisonWords = s.poisonWords := rfl
@[simp] theorem State.modBook_hbm (s : State) (p : PortIx) (f : EscBook → EscBook) : (s.modBook p f).hbm = s.hbm := rfl
@[simp] theorem State.modBook_xlat (s : State) (p : PortIx) (f : EscBook → EscBook) : (s.modBook p f).xlat = s.xlat := rfl
@[simp] theorem State.modBook_faultQ (s : State) (p : PortIx) (f : EscBook → EscBook) : (s.modBook p f).faultQ = s.faultQ := rfl
@[simp] theorem State.modBook_faultSeq (s : State) (p : PortIx) (f : EscBook → EscBook) : (s.modBook p f).faultSeq = s.faultSeq := rfl
@[simp] theorem State.modBook_faultLost (s : State) (p : PortIx) (f : EscBook → EscBook) : (s.modBook p f).faultLost = s.faultLost := rfl
@[simp] theorem State.modBook_moveFaults (s : State) (p : PortIx) (f : EscBook → EscBook) : (s.modBook p f).moveFaults = s.moveFaults := rfl
@[simp] theorem State.modBook_jobs (s : State) (p : PortIx) (f : EscBook → EscBook) : (s.modBook p f).jobs = s.jobs := rfl
@[simp] theorem State.modBook_fab (s : State) (p : PortIx) (f : EscBook → EscBook) : (s.modBook p f).fab = s.fab := rfl
@[simp] theorem State.modBook_ports (s : State) (p : PortIx) (f : EscBook → EscBook) : (s.modBook p f).ports = s.ports := rfl
@[simp] theorem State.modBook_host (s : State) (p : PortIx) (f : EscBook → EscBook) : (s.modBook p f).host = s.host := rfl
@[simp] theorem State.modBook_bays (s : State) (p : PortIx) (f : EscBook → EscBook) : (s.modBook p f).bays = s.bays := rfl
@[simp] theorem State.modBook_ppe (s : State) (p : PortIx) (f : EscBook → EscBook) : (s.modBook p f).ppe = s.ppe := rfl
@[simp] theorem State.modBook_outbox (s : State) (p : PortIx) (f : EscBook → EscBook) : (s.modBook p f).outbox = s.outbox := rfl
@[simp] theorem State.modBook_pending (s : State) (p : PortIx) (f : EscBook → EscBook) : (s.modBook p f).pending = s.pending := rfl

/-! ## State.modCtx -/

@[simp] theorem State.modCtx_clock (s : State) (g : BitVec 16) (q : BitVec 32) (f : Ctx → Ctx) : (s.modCtx g q f).clock = s.clock := rfl
@[simp] theorem State.modCtx_fresh (s : State) (g : BitVec 16) (q : BitVec 32) (f : Ctx → Ctx) : (s.modCtx g q f).fresh = s.fresh := rfl
@[simp] theorem State.modCtx_board (s : State) (g : BitVec 16) (q : BitVec 32) (f : Ctx → Ctx) : (s.modCtx g q f).board = s.board := rfl
@[simp] theorem State.modCtx_flash (s : State) (g : BitVec 16) (q : BitVec 32) (f : Ctx → Ctx) : (s.modCtx g q f).flash = s.flash := rfl
@[simp] theorem State.modCtx_boot (s : State) (g : BitVec 16) (q : BitVec 32) (f : Ctx → Ctx) : (s.modCtx g q f).boot = s.boot := rfl
@[simp] theorem State.modCtx_sec (s : State) (g : BitVec 16) (q : BitVec 32) (f : Ctx → Ctx) : (s.modCtx g q f).sec = s.sec := rfl
@[simp] theorem State.modCtx_time (s : State) (g : BitVec 16) (q : BitVec 32) (f : Ctx → Ctx) : (s.modCtx g q f).time = s.time := rfl
@[simp] theorem State.modCtx_therm (s : State) (g : BitVec 16) (q : BitVec 32) (f : Ctx → Ctx) : (s.modCtx g q f).therm = s.therm := rfl
@[simp] theorem State.modCtx_power (s : State) (g : BitVec 16) (q : BitVec 32) (f : Ctx → Ctx) : (s.modCtx g q f).power = s.power := rfl
@[simp] theorem State.modCtx_steps (s : State) (g : BitVec 16) (q : BitVec 32) (f : Ctx → Ctx) : (s.modCtx g q f).steps = s.steps := rfl
@[simp] theorem State.modCtx_counters (s : State) (g : BitVec 16) (q : BitVec 32) (f : Ctx → Ctx) : (s.modCtx g q f).counters = s.counters := rfl
@[simp] theorem State.modCtx_zcp (s : State) (g : BitVec 16) (q : BitVec 32) (f : Ctx → Ctx) : (s.modCtx g q f).zcp = s.zcp := rfl
@[simp] theorem State.modCtx_dbg (s : State) (g : BitVec 16) (q : BitVec 32) (f : Ctx → Ctx) : (s.modCtx g q f).dbg = s.dbg := rfl
@[simp] theorem State.modCtx_tiles (s : State) (g : BitVec 16) (q : BitVec 32) (f : Ctx → Ctx) : (s.modCtx g q f).tiles = s.tiles := rfl
@[simp] theorem State.modCtx_mem (s : State) (g : BitVec 16) (q : BitVec 32) (f : Ctx → Ctx) : (s.modCtx g q f).mem = s.mem := rfl
@[simp] theorem State.modCtx_poison (s : State) (g : BitVec 16) (q : BitVec 32) (f : Ctx → Ctx) : (s.modCtx g q f).poison = s.poison := rfl
@[simp] theorem State.modCtx_poisonWords (s : State) (g : BitVec 16) (q : BitVec 32) (f : Ctx → Ctx) : (s.modCtx g q f).poisonWords = s.poisonWords := rfl
@[simp] theorem State.modCtx_hbm (s : State) (g : BitVec 16) (q : BitVec 32) (f : Ctx → Ctx) : (s.modCtx g q f).hbm = s.hbm := rfl
@[simp] theorem State.modCtx_xlat (s : State) (g : BitVec 16) (q : BitVec 32) (f : Ctx → Ctx) : (s.modCtx g q f).xlat = s.xlat := rfl
@[simp] theorem State.modCtx_faultQ (s : State) (g : BitVec 16) (q : BitVec 32) (f : Ctx → Ctx) : (s.modCtx g q f).faultQ = s.faultQ := rfl
@[simp] theorem State.modCtx_faultSeq (s : State) (g : BitVec 16) (q : BitVec 32) (f : Ctx → Ctx) : (s.modCtx g q f).faultSeq = s.faultSeq := rfl
@[simp] theorem State.modCtx_faultLost (s : State) (g : BitVec 16) (q : BitVec 32) (f : Ctx → Ctx) : (s.modCtx g q f).faultLost = s.faultLost := rfl
@[simp] theorem State.modCtx_moveFaults (s : State) (g : BitVec 16) (q : BitVec 32) (f : Ctx → Ctx) : (s.modCtx g q f).moveFaults = s.moveFaults := rfl
@[simp] theorem State.modCtx_jobs (s : State) (g : BitVec 16) (q : BitVec 32) (f : Ctx → Ctx) : (s.modCtx g q f).jobs = s.jobs := rfl
@[simp] theorem State.modCtx_fab (s : State) (g : BitVec 16) (q : BitVec 32) (f : Ctx → Ctx) : (s.modCtx g q f).fab = s.fab := rfl
@[simp] theorem State.modCtx_ports (s : State) (g : BitVec 16) (q : BitVec 32) (f : Ctx → Ctx) : (s.modCtx g q f).ports = s.ports := rfl
@[simp] theorem State.modCtx_host (s : State) (g : BitVec 16) (q : BitVec 32) (f : Ctx → Ctx) : (s.modCtx g q f).host = s.host := rfl
@[simp] theorem State.modCtx_bays (s : State) (g : BitVec 16) (q : BitVec 32) (f : Ctx → Ctx) : (s.modCtx g q f).bays = s.bays := rfl
@[simp] theorem State.modCtx_ppe (s : State) (g : BitVec 16) (q : BitVec 32) (f : Ctx → Ctx) : (s.modCtx g q f).ppe = s.ppe := rfl
@[simp] theorem State.modCtx_outbox (s : State) (g : BitVec 16) (q : BitVec 32) (f : Ctx → Ctx) : (s.modCtx g q f).outbox = s.outbox := rfl
@[simp] theorem State.modCtx_pending (s : State) (g : BitVec 16) (q : BitVec 32) (f : Ctx → Ctx) : (s.modCtx g q f).pending = s.pending := rfl

/-! ## State.handOver -/

@[simp] theorem State.handOver_clock (s : State) (p : PortIx) (tag : BitVec 6) (f : BitVec 256) : (s.handOver p tag f).clock = s.clock := rfl
@[simp] theorem State.handOver_fresh (s : State) (p : PortIx) (tag : BitVec 6) (f : BitVec 256) : (s.handOver p tag f).fresh = s.fresh := rfl
@[simp] theorem State.handOver_board (s : State) (p : PortIx) (tag : BitVec 6) (f : BitVec 256) : (s.handOver p tag f).board = s.board := rfl
@[simp] theorem State.handOver_flash (s : State) (p : PortIx) (tag : BitVec 6) (f : BitVec 256) : (s.handOver p tag f).flash = s.flash := rfl
@[simp] theorem State.handOver_boot (s : State) (p : PortIx) (tag : BitVec 6) (f : BitVec 256) : (s.handOver p tag f).boot = s.boot := rfl
@[simp] theorem State.handOver_sec (s : State) (p : PortIx) (tag : BitVec 6) (f : BitVec 256) : (s.handOver p tag f).sec = s.sec := rfl
@[simp] theorem State.handOver_time (s : State) (p : PortIx) (tag : BitVec 6) (f : BitVec 256) : (s.handOver p tag f).time = s.time := rfl
@[simp] theorem State.handOver_therm (s : State) (p : PortIx) (tag : BitVec 6) (f : BitVec 256) : (s.handOver p tag f).therm = s.therm := rfl
@[simp] theorem State.handOver_power (s : State) (p : PortIx) (tag : BitVec 6) (f : BitVec 256) : (s.handOver p tag f).power = s.power := rfl
@[simp] theorem State.handOver_steps (s : State) (p : PortIx) (tag : BitVec 6) (f : BitVec 256) : (s.handOver p tag f).steps = s.steps := rfl
@[simp] theorem State.handOver_counters (s : State) (p : PortIx) (tag : BitVec 6) (f : BitVec 256) : (s.handOver p tag f).counters = s.counters := rfl
@[simp] theorem State.handOver_zcp (s : State) (p : PortIx) (tag : BitVec 6) (f : BitVec 256) : (s.handOver p tag f).zcp = s.zcp := rfl
@[simp] theorem State.handOver_dbg (s : State) (p : PortIx) (tag : BitVec 6) (f : BitVec 256) : (s.handOver p tag f).dbg = s.dbg := rfl
@[simp] theorem State.handOver_tiles (s : State) (p : PortIx) (tag : BitVec 6) (f : BitVec 256) : (s.handOver p tag f).tiles = s.tiles := rfl
@[simp] theorem State.handOver_mem (s : State) (p : PortIx) (tag : BitVec 6) (f : BitVec 256) : (s.handOver p tag f).mem = s.mem := rfl
@[simp] theorem State.handOver_poison (s : State) (p : PortIx) (tag : BitVec 6) (f : BitVec 256) : (s.handOver p tag f).poison = s.poison := rfl
@[simp] theorem State.handOver_poisonWords (s : State) (p : PortIx) (tag : BitVec 6) (f : BitVec 256) : (s.handOver p tag f).poisonWords = s.poisonWords := rfl
@[simp] theorem State.handOver_hbm (s : State) (p : PortIx) (tag : BitVec 6) (f : BitVec 256) : (s.handOver p tag f).hbm = s.hbm := rfl
@[simp] theorem State.handOver_xlat (s : State) (p : PortIx) (tag : BitVec 6) (f : BitVec 256) : (s.handOver p tag f).xlat = s.xlat := rfl
@[simp] theorem State.handOver_faultQ (s : State) (p : PortIx) (tag : BitVec 6) (f : BitVec 256) : (s.handOver p tag f).faultQ = s.faultQ := rfl
@[simp] theorem State.handOver_faultSeq (s : State) (p : PortIx) (tag : BitVec 6) (f : BitVec 256) : (s.handOver p tag f).faultSeq = s.faultSeq := rfl
@[simp] theorem State.handOver_faultLost (s : State) (p : PortIx) (tag : BitVec 6) (f : BitVec 256) : (s.handOver p tag f).faultLost = s.faultLost := rfl
@[simp] theorem State.handOver_moveFaults (s : State) (p : PortIx) (tag : BitVec 6) (f : BitVec 256) : (s.handOver p tag f).moveFaults = s.moveFaults := rfl
@[simp] theorem State.handOver_jobs (s : State) (p : PortIx) (tag : BitVec 6) (f : BitVec 256) : (s.handOver p tag f).jobs = s.jobs := rfl
@[simp] theorem State.handOver_fab (s : State) (p : PortIx) (tag : BitVec 6) (f : BitVec 256) : (s.handOver p tag f).fab = s.fab := rfl
@[simp] theorem State.handOver_coll (s : State) (p : PortIx) (tag : BitVec 6) (f : BitVec 256) : (s.handOver p tag f).coll = s.coll := rfl
@[simp] theorem State.handOver_host (s : State) (p : PortIx) (tag : BitVec 6) (f : BitVec 256) : (s.handOver p tag f).host = s.host := rfl
@[simp] theorem State.handOver_bays (s : State) (p : PortIx) (tag : BitVec 6) (f : BitVec 256) : (s.handOver p tag f).bays = s.bays := rfl
@[simp] theorem State.handOver_ppe (s : State) (p : PortIx) (tag : BitVec 6) (f : BitVec 256) : (s.handOver p tag f).ppe = s.ppe := rfl
@[simp] theorem State.handOver_outbox (s : State) (p : PortIx) (tag : BitVec 6) (f : BitVec 256) : (s.handOver p tag f).outbox = s.outbox := rfl
@[simp] theorem State.handOver_pending (s : State) (p : PortIx) (tag : BitVec 6) (f : BitVec 256) : (s.handOver p tag f).pending = s.pending := rfl

/-! ## State.sendControl -/

@[simp] theorem State.sendControl_clock (s : State) (p : PortIx) (f : BitVec 256) : (s.sendControl p f).clock = s.clock := rfl
@[simp] theorem State.sendControl_fresh (s : State) (p : PortIx) (f : BitVec 256) : (s.sendControl p f).fresh = s.fresh := rfl
@[simp] theorem State.sendControl_board (s : State) (p : PortIx) (f : BitVec 256) : (s.sendControl p f).board = s.board := rfl
@[simp] theorem State.sendControl_flash (s : State) (p : PortIx) (f : BitVec 256) : (s.sendControl p f).flash = s.flash := rfl
@[simp] theorem State.sendControl_boot (s : State) (p : PortIx) (f : BitVec 256) : (s.sendControl p f).boot = s.boot := rfl
@[simp] theorem State.sendControl_sec (s : State) (p : PortIx) (f : BitVec 256) : (s.sendControl p f).sec = s.sec := rfl
@[simp] theorem State.sendControl_time (s : State) (p : PortIx) (f : BitVec 256) : (s.sendControl p f).time = s.time := rfl
@[simp] theorem State.sendControl_therm (s : State) (p : PortIx) (f : BitVec 256) : (s.sendControl p f).therm = s.therm := rfl
@[simp] theorem State.sendControl_power (s : State) (p : PortIx) (f : BitVec 256) : (s.sendControl p f).power = s.power := rfl
@[simp] theorem State.sendControl_steps (s : State) (p : PortIx) (f : BitVec 256) : (s.sendControl p f).steps = s.steps := rfl
@[simp] theorem State.sendControl_counters (s : State) (p : PortIx) (f : BitVec 256) : (s.sendControl p f).counters = s.counters := rfl
@[simp] theorem State.sendControl_zcp (s : State) (p : PortIx) (f : BitVec 256) : (s.sendControl p f).zcp = s.zcp := rfl
@[simp] theorem State.sendControl_dbg (s : State) (p : PortIx) (f : BitVec 256) : (s.sendControl p f).dbg = s.dbg := rfl
@[simp] theorem State.sendControl_tiles (s : State) (p : PortIx) (f : BitVec 256) : (s.sendControl p f).tiles = s.tiles := rfl
@[simp] theorem State.sendControl_mem (s : State) (p : PortIx) (f : BitVec 256) : (s.sendControl p f).mem = s.mem := rfl
@[simp] theorem State.sendControl_poison (s : State) (p : PortIx) (f : BitVec 256) : (s.sendControl p f).poison = s.poison := rfl
@[simp] theorem State.sendControl_poisonWords (s : State) (p : PortIx) (f : BitVec 256) : (s.sendControl p f).poisonWords = s.poisonWords := rfl
@[simp] theorem State.sendControl_hbm (s : State) (p : PortIx) (f : BitVec 256) : (s.sendControl p f).hbm = s.hbm := rfl
@[simp] theorem State.sendControl_xlat (s : State) (p : PortIx) (f : BitVec 256) : (s.sendControl p f).xlat = s.xlat := rfl
@[simp] theorem State.sendControl_faultQ (s : State) (p : PortIx) (f : BitVec 256) : (s.sendControl p f).faultQ = s.faultQ := rfl
@[simp] theorem State.sendControl_faultSeq (s : State) (p : PortIx) (f : BitVec 256) : (s.sendControl p f).faultSeq = s.faultSeq := rfl
@[simp] theorem State.sendControl_faultLost (s : State) (p : PortIx) (f : BitVec 256) : (s.sendControl p f).faultLost = s.faultLost := rfl
@[simp] theorem State.sendControl_moveFaults (s : State) (p : PortIx) (f : BitVec 256) : (s.sendControl p f).moveFaults = s.moveFaults := rfl
@[simp] theorem State.sendControl_jobs (s : State) (p : PortIx) (f : BitVec 256) : (s.sendControl p f).jobs = s.jobs := rfl
@[simp] theorem State.sendControl_fab (s : State) (p : PortIx) (f : BitVec 256) : (s.sendControl p f).fab = s.fab := rfl
@[simp] theorem State.sendControl_coll (s : State) (p : PortIx) (f : BitVec 256) : (s.sendControl p f).coll = s.coll := rfl
@[simp] theorem State.sendControl_host (s : State) (p : PortIx) (f : BitVec 256) : (s.sendControl p f).host = s.host := rfl
@[simp] theorem State.sendControl_bays (s : State) (p : PortIx) (f : BitVec 256) : (s.sendControl p f).bays = s.bays := rfl
@[simp] theorem State.sendControl_ppe (s : State) (p : PortIx) (f : BitVec 256) : (s.sendControl p f).ppe = s.ppe := rfl
@[simp] theorem State.sendControl_pending (s : State) (p : PortIx) (f : BitVec 256) : (s.sendControl p f).pending = s.pending := rfl

/-! ## State.modRegion -/

@[simp] theorem State.modRegion_clock (s : State) (k : Nat) (f : ThermRegion → ThermRegion) : (s.modRegion k f).clock = s.clock := rfl
@[simp] theorem State.modRegion_fresh (s : State) (k : Nat) (f : ThermRegion → ThermRegion) : (s.modRegion k f).fresh = s.fresh := rfl
@[simp] theorem State.modRegion_board (s : State) (k : Nat) (f : ThermRegion → ThermRegion) : (s.modRegion k f).board = s.board := rfl
@[simp] theorem State.modRegion_flash (s : State) (k : Nat) (f : ThermRegion → ThermRegion) : (s.modRegion k f).flash = s.flash := rfl
@[simp] theorem State.modRegion_boot (s : State) (k : Nat) (f : ThermRegion → ThermRegion) : (s.modRegion k f).boot = s.boot := rfl
@[simp] theorem State.modRegion_sec (s : State) (k : Nat) (f : ThermRegion → ThermRegion) : (s.modRegion k f).sec = s.sec := rfl
@[simp] theorem State.modRegion_time (s : State) (k : Nat) (f : ThermRegion → ThermRegion) : (s.modRegion k f).time = s.time := rfl
@[simp] theorem State.modRegion_power (s : State) (k : Nat) (f : ThermRegion → ThermRegion) : (s.modRegion k f).power = s.power := rfl
@[simp] theorem State.modRegion_steps (s : State) (k : Nat) (f : ThermRegion → ThermRegion) : (s.modRegion k f).steps = s.steps := rfl
@[simp] theorem State.modRegion_counters (s : State) (k : Nat) (f : ThermRegion → ThermRegion) : (s.modRegion k f).counters = s.counters := rfl
@[simp] theorem State.modRegion_zcp (s : State) (k : Nat) (f : ThermRegion → ThermRegion) : (s.modRegion k f).zcp = s.zcp := rfl
@[simp] theorem State.modRegion_dbg (s : State) (k : Nat) (f : ThermRegion → ThermRegion) : (s.modRegion k f).dbg = s.dbg := rfl
@[simp] theorem State.modRegion_tiles (s : State) (k : Nat) (f : ThermRegion → ThermRegion) : (s.modRegion k f).tiles = s.tiles := rfl
@[simp] theorem State.modRegion_mem (s : State) (k : Nat) (f : ThermRegion → ThermRegion) : (s.modRegion k f).mem = s.mem := rfl
@[simp] theorem State.modRegion_poison (s : State) (k : Nat) (f : ThermRegion → ThermRegion) : (s.modRegion k f).poison = s.poison := rfl
@[simp] theorem State.modRegion_poisonWords (s : State) (k : Nat) (f : ThermRegion → ThermRegion) : (s.modRegion k f).poisonWords = s.poisonWords := rfl
@[simp] theorem State.modRegion_hbm (s : State) (k : Nat) (f : ThermRegion → ThermRegion) : (s.modRegion k f).hbm = s.hbm := rfl
@[simp] theorem State.modRegion_xlat (s : State) (k : Nat) (f : ThermRegion → ThermRegion) : (s.modRegion k f).xlat = s.xlat := rfl
@[simp] theorem State.modRegion_faultQ (s : State) (k : Nat) (f : ThermRegion → ThermRegion) : (s.modRegion k f).faultQ = s.faultQ := rfl
@[simp] theorem State.modRegion_faultSeq (s : State) (k : Nat) (f : ThermRegion → ThermRegion) : (s.modRegion k f).faultSeq = s.faultSeq := rfl
@[simp] theorem State.modRegion_faultLost (s : State) (k : Nat) (f : ThermRegion → ThermRegion) : (s.modRegion k f).faultLost = s.faultLost := rfl
@[simp] theorem State.modRegion_moveFaults (s : State) (k : Nat) (f : ThermRegion → ThermRegion) : (s.modRegion k f).moveFaults = s.moveFaults := rfl
@[simp] theorem State.modRegion_jobs (s : State) (k : Nat) (f : ThermRegion → ThermRegion) : (s.modRegion k f).jobs = s.jobs := rfl
@[simp] theorem State.modRegion_fab (s : State) (k : Nat) (f : ThermRegion → ThermRegion) : (s.modRegion k f).fab = s.fab := rfl
@[simp] theorem State.modRegion_ports (s : State) (k : Nat) (f : ThermRegion → ThermRegion) : (s.modRegion k f).ports = s.ports := rfl
@[simp] theorem State.modRegion_coll (s : State) (k : Nat) (f : ThermRegion → ThermRegion) : (s.modRegion k f).coll = s.coll := rfl
@[simp] theorem State.modRegion_host (s : State) (k : Nat) (f : ThermRegion → ThermRegion) : (s.modRegion k f).host = s.host := rfl
@[simp] theorem State.modRegion_bays (s : State) (k : Nat) (f : ThermRegion → ThermRegion) : (s.modRegion k f).bays = s.bays := rfl
@[simp] theorem State.modRegion_ppe (s : State) (k : Nat) (f : ThermRegion → ThermRegion) : (s.modRegion k f).ppe = s.ppe := rfl
@[simp] theorem State.modRegion_outbox (s : State) (k : Nat) (f : ThermRegion → ThermRegion) : (s.modRegion k f).outbox = s.outbox := rfl
@[simp] theorem State.modRegion_pending (s : State) (k : Nat) (f : ThermRegion → ThermRegion) : (s.modRegion k f).pending = s.pending := rfl

/-! ## State.touchSource -/

@[simp] theorem State.touchSource_clock (s : State) (src : ZcpSrc) : (s.touchSource src).clock = s.clock := rfl
@[simp] theorem State.touchSource_fresh (s : State) (src : ZcpSrc) : (s.touchSource src).fresh = s.fresh := rfl
@[simp] theorem State.touchSource_board (s : State) (src : ZcpSrc) : (s.touchSource src).board = s.board := rfl
@[simp] theorem State.touchSource_flash (s : State) (src : ZcpSrc) : (s.touchSource src).flash = s.flash := rfl
@[simp] theorem State.touchSource_boot (s : State) (src : ZcpSrc) : (s.touchSource src).boot = s.boot := rfl
@[simp] theorem State.touchSource_sec (s : State) (src : ZcpSrc) : (s.touchSource src).sec = s.sec := rfl
@[simp] theorem State.touchSource_time (s : State) (src : ZcpSrc) : (s.touchSource src).time = s.time := rfl
@[simp] theorem State.touchSource_therm (s : State) (src : ZcpSrc) : (s.touchSource src).therm = s.therm := rfl
@[simp] theorem State.touchSource_power (s : State) (src : ZcpSrc) : (s.touchSource src).power = s.power := rfl
@[simp] theorem State.touchSource_steps (s : State) (src : ZcpSrc) : (s.touchSource src).steps = s.steps := rfl
@[simp] theorem State.touchSource_counters (s : State) (src : ZcpSrc) : (s.touchSource src).counters = s.counters := rfl
@[simp] theorem State.touchSource_dbg (s : State) (src : ZcpSrc) : (s.touchSource src).dbg = s.dbg := rfl
@[simp] theorem State.touchSource_tiles (s : State) (src : ZcpSrc) : (s.touchSource src).tiles = s.tiles := rfl
@[simp] theorem State.touchSource_mem (s : State) (src : ZcpSrc) : (s.touchSource src).mem = s.mem := rfl
@[simp] theorem State.touchSource_poison (s : State) (src : ZcpSrc) : (s.touchSource src).poison = s.poison := rfl
@[simp] theorem State.touchSource_poisonWords (s : State) (src : ZcpSrc) : (s.touchSource src).poisonWords = s.poisonWords := rfl
@[simp] theorem State.touchSource_hbm (s : State) (src : ZcpSrc) : (s.touchSource src).hbm = s.hbm := rfl
@[simp] theorem State.touchSource_xlat (s : State) (src : ZcpSrc) : (s.touchSource src).xlat = s.xlat := rfl
@[simp] theorem State.touchSource_faultQ (s : State) (src : ZcpSrc) : (s.touchSource src).faultQ = s.faultQ := rfl
@[simp] theorem State.touchSource_faultSeq (s : State) (src : ZcpSrc) : (s.touchSource src).faultSeq = s.faultSeq := rfl
@[simp] theorem State.touchSource_faultLost (s : State) (src : ZcpSrc) : (s.touchSource src).faultLost = s.faultLost := rfl
@[simp] theorem State.touchSource_moveFaults (s : State) (src : ZcpSrc) : (s.touchSource src).moveFaults = s.moveFaults := rfl
@[simp] theorem State.touchSource_jobs (s : State) (src : ZcpSrc) : (s.touchSource src).jobs = s.jobs := rfl
@[simp] theorem State.touchSource_fab (s : State) (src : ZcpSrc) : (s.touchSource src).fab = s.fab := rfl
@[simp] theorem State.touchSource_ports (s : State) (src : ZcpSrc) : (s.touchSource src).ports = s.ports := rfl
@[simp] theorem State.touchSource_coll (s : State) (src : ZcpSrc) : (s.touchSource src).coll = s.coll := rfl
@[simp] theorem State.touchSource_host (s : State) (src : ZcpSrc) : (s.touchSource src).host = s.host := rfl
@[simp] theorem State.touchSource_bays (s : State) (src : ZcpSrc) : (s.touchSource src).bays = s.bays := rfl
@[simp] theorem State.touchSource_ppe (s : State) (src : ZcpSrc) : (s.touchSource src).ppe = s.ppe := rfl
@[simp] theorem State.touchSource_outbox (s : State) (src : ZcpSrc) : (s.touchSource src).outbox = s.outbox := rfl
@[simp] theorem State.touchSource_pending (s : State) (src : ZcpSrc) : (s.touchSource src).pending = s.pending := rfl

/-! ## State.bump -/

@[simp] theorem State.bump_clock (s : State) (id : CtrId) (i j n : Nat) : (s.bump id i j n).clock = s.clock := by unfold State.bump; split <;> rfl
@[simp] theorem State.bump_fresh (s : State) (id : CtrId) (i j n : Nat) : (s.bump id i j n).fresh = s.fresh := by unfold State.bump; split <;> rfl
@[simp] theorem State.bump_board (s : State) (id : CtrId) (i j n : Nat) : (s.bump id i j n).board = s.board := by unfold State.bump; split <;> rfl
@[simp] theorem State.bump_flash (s : State) (id : CtrId) (i j n : Nat) : (s.bump id i j n).flash = s.flash := by unfold State.bump; split <;> rfl
@[simp] theorem State.bump_boot (s : State) (id : CtrId) (i j n : Nat) : (s.bump id i j n).boot = s.boot := by unfold State.bump; split <;> rfl
@[simp] theorem State.bump_sec (s : State) (id : CtrId) (i j n : Nat) : (s.bump id i j n).sec = s.sec := by unfold State.bump; split <;> rfl
@[simp] theorem State.bump_time (s : State) (id : CtrId) (i j n : Nat) : (s.bump id i j n).time = s.time := by unfold State.bump; split <;> rfl
@[simp] theorem State.bump_therm (s : State) (id : CtrId) (i j n : Nat) : (s.bump id i j n).therm = s.therm := by unfold State.bump; split <;> rfl
@[simp] theorem State.bump_power (s : State) (id : CtrId) (i j n : Nat) : (s.bump id i j n).power = s.power := by unfold State.bump; split <;> rfl
@[simp] theorem State.bump_steps (s : State) (id : CtrId) (i j n : Nat) : (s.bump id i j n).steps = s.steps := by unfold State.bump; split <;> rfl
@[simp] theorem State.bump_zcp (s : State) (id : CtrId) (i j n : Nat) : (s.bump id i j n).zcp = s.zcp := by unfold State.bump; split <;> rfl
@[simp] theorem State.bump_dbg (s : State) (id : CtrId) (i j n : Nat) : (s.bump id i j n).dbg = s.dbg := by unfold State.bump; split <;> rfl
@[simp] theorem State.bump_tiles (s : State) (id : CtrId) (i j n : Nat) : (s.bump id i j n).tiles = s.tiles := by unfold State.bump; split <;> rfl
@[simp] theorem State.bump_mem (s : State) (id : CtrId) (i j n : Nat) : (s.bump id i j n).mem = s.mem := by unfold State.bump; split <;> rfl
@[simp] theorem State.bump_poison (s : State) (id : CtrId) (i j n : Nat) : (s.bump id i j n).poison = s.poison := by unfold State.bump; split <;> rfl
@[simp] theorem State.bump_poisonWords (s : State) (id : CtrId) (i j n : Nat) : (s.bump id i j n).poisonWords = s.poisonWords := by unfold State.bump; split <;> rfl
@[simp] theorem State.bump_hbm (s : State) (id : CtrId) (i j n : Nat) : (s.bump id i j n).hbm = s.hbm := by unfold State.bump; split <;> rfl
@[simp] theorem State.bump_xlat (s : State) (id : CtrId) (i j n : Nat) : (s.bump id i j n).xlat = s.xlat := by unfold State.bump; split <;> rfl
@[simp] theorem State.bump_faultQ (s : State) (id : CtrId) (i j n : Nat) : (s.bump id i j n).faultQ = s.faultQ := by unfold State.bump; split <;> rfl
@[simp] theorem State.bump_faultSeq (s : State) (id : CtrId) (i j n : Nat) : (s.bump id i j n).faultSeq = s.faultSeq := by unfold State.bump; split <;> rfl
@[simp] theorem State.bump_faultLost (s : State) (id : CtrId) (i j n : Nat) : (s.bump id i j n).faultLost = s.faultLost := by unfold State.bump; split <;> rfl
@[simp] theorem State.bump_moveFaults (s : State) (id : CtrId) (i j n : Nat) : (s.bump id i j n).moveFaults = s.moveFaults := by unfold State.bump; split <;> rfl
@[simp] theorem State.bump_jobs (s : State) (id : CtrId) (i j n : Nat) : (s.bump id i j n).jobs = s.jobs := by unfold State.bump; split <;> rfl
@[simp] theorem State.bump_fab (s : State) (id : CtrId) (i j n : Nat) : (s.bump id i j n).fab = s.fab := by unfold State.bump; split <;> rfl
@[simp] theorem State.bump_ports (s : State) (id : CtrId) (i j n : Nat) : (s.bump id i j n).ports = s.ports := by unfold State.bump; split <;> rfl
@[simp] theorem State.bump_coll (s : State) (id : CtrId) (i j n : Nat) : (s.bump id i j n).coll = s.coll := by unfold State.bump; split <;> rfl
@[simp] theorem State.bump_host (s : State) (id : CtrId) (i j n : Nat) : (s.bump id i j n).host = s.host := by unfold State.bump; split <;> rfl
@[simp] theorem State.bump_bays (s : State) (id : CtrId) (i j n : Nat) : (s.bump id i j n).bays = s.bays := by unfold State.bump; split <;> rfl
@[simp] theorem State.bump_ppe (s : State) (id : CtrId) (i j n : Nat) : (s.bump id i j n).ppe = s.ppe := by unfold State.bump; split <;> rfl
@[simp] theorem State.bump_outbox (s : State) (id : CtrId) (i j n : Nat) : (s.bump id i j n).outbox = s.outbox := by unfold State.bump; split <;> rfl
@[simp] theorem State.bump_pending (s : State) (id : CtrId) (i j n : Nat) : (s.bump id i j n).pending = s.pending := by unfold State.bump; split <;> rfl

end Sys2Proof.Machine
end

