-- ==== Sys2Proof/Laws/Moves.lean ====
section
/-! SUPPORT. What a decoded move does, said once for every move (R135 to R143, R167, R168). -/

namespace Sys2Proof.Machine

/-! ## Tiles -/

theorem setTile_setTile_list (t : Nat) (x y : Tile) (l : List (Nat × Tile)) :
    Machine.setTile t y (Machine.setTile t x l) = Machine.setTile t y l := by
  induction l with
  | nil => simp [Machine.setTile]
  | cons p ps ih => simp only [Machine.setTile]; split <;> simp_all [Machine.setTile]

/-- A tile that was written is the one read. -/
@[simp] theorem State.tile_setTile (s : State) (t : Nat) (x : Tile) : (s.setTile t x).tile t = x := by
  simp only [State.tile, State.setTile]
  induction s.tiles with
  | nil => simp [Machine.setTile]
  | cons p ps ih => unfold Machine.setTile; split <;> simp_all

/-- Another tile is as it was. -/
theorem State.tile_setTile_ne (s : State) (t u : Nat) (x : Tile) (h : u ≠ t) : (s.setTile t x).tile u = s.tile u := by
  simp only [State.tile, State.setTile]
  congr 2
  induction s.tiles with
  | nil => simp [Machine.setTile, Ne.symm h]
  | cons p ps ih =>
    unfold Machine.setTile
    by_cases hp : p.1 = t
    · have h1 : (t == u) = false := by simpa using Ne.symm h
      have h2 : (p.1 == u) = false := by rw [hp]; exact h1
      simp [hp, h1]
    · simp [hp, List.find?_cons, ih]

@[simp] theorem State.setTile_setTile (s : State) (t : Nat) (x y : Tile) : (s.setTile t x).setTile t y = s.setTile t y := by
  simp [State.setTile, setTile_setTile_list]

@[simp] theorem State.bump_tile (s : State) (c : CtrId) (i k n t : Nat) : (s.bump c i k n).tile t = s.tile t := by
  unfold State.bump; split <;> rfl

theorem State.bump_setTile (s : State) (c : CtrId) (i k n t : Nat) (x : Tile) :
    (s.bump c i k n).setTile t x = (s.setTile t x).bump c i k n := by
  unfold State.bump; split <;> rfl

/-- The tile of a sequencer that has decoded a move. -/
@[simp] theorem State.decoded_tile (s : State) (t : Nat) : (s.decoded t).tile t = (s.tile t).decoding := by
  simp [State.decoded]

/-- A tally arrival changes no tile but in its tallies. -/
theorem State.addTally_tile (s : State) (t tal n u : Nat) :
    ∃ v, (s.addTally t tal n).tile u = { s.tile u with tallies := v } := by
  simp only [State.addTally, State.bump_tile]
  by_cases h : u = t
  · subst h; exact ⟨_, State.tile_setTile _ _ _⟩
  · rw [State.tile_setTile_ne _ _ _ _ h]; exact ⟨_, rfl⟩

/-- So does a write of a tally. -/
theorem State.setTally_tile (s : State) (t tal v u : Nat) :
    ∃ x, (s.setTally t tal v).tile u = { s.tile u with tallies := x } := by
  have h : ∃ x, (s.setTile t { s.tile t with
      tallies := (s.tile t).tallies.setIfInBounds tal (BitVec.ofNat 32 v) }).tile u = { s.tile u with tallies := x } := by
    by_cases h : u = t
    · subst h; exact ⟨_, State.tile_setTile _ _ _⟩
    · rw [State.tile_setTile_ne _ _ _ _ h]; exact ⟨_, rfl⟩
  unfold State.setTally
  dsimp only
  split
  · exact h
  · exact h

/-- An arrival of a job changes no tile but in its tallies. -/
theorem State.arrive_tile (s : State) (j : BitVec 12) (t tal n u : Nat) :
    ∃ v, (s.arrive j t tal n).tile u = { s.tile u with tallies := v } := by
  unfold State.arrive
  split
  · exact ⟨_, rfl⟩
  · dsimp only
    split
    · exact s.addTally_tile t tal n u
    · exact ⟨_, rfl⟩

/-! ## Decoding -/

/-- A move that is fetched is decoded, and one that executes is checked and completed on the state after decode. -/
theorem Executes.decode_eq {s : State} {t : TileIx} {w : MoveWord} {j : Job} (h : Executes s t w j) {op : Nat} (ho : Hdr.op w = op)
    (body : State → Job → Tile → Decoded) (hu : (unitOf op).isNone = false := by decide) :
    s.decode t w op body = (s.decoded t).finishDecode t w j.id (body (s.decoded t) j (s.tile t).decoding) := by
  unfold State.decode State.decodeMove State.fetch
  simp only [ho, ne_eq, not_true, if_false, h.decodes, h.word, h.clean, h.predicate, h.room, h.ready, h.stays, h.reserved]
  simp [State.decoded, Tile.decoding, hu]

/-- A fetch that finds the next move in the program goes on. -/
theorem State.fetchCheck_eq (s : State) (t : Nat) (h : (s.tile t).seq = .running → (s.tile t).pc < (s.tile t).len) :
    s.fetchCheck t = s := by
  unfold State.fetchCheck
  dsimp only
  rw [if_neg]
  simp only [decide_eq_true_eq, Bool.and_eq_true, not_and]
  intro h1
  have := h h1.1
  omega

/-- The same after a tally arrival. -/
theorem State.fetchCheck_arrive (s : State) (j : BitVec 12) (t u tal n : Nat)
    (h : (s.tile u).seq = .running → (s.tile u).pc < (s.tile u).len) : (s.arrive j t tal n).fetchCheck u = s.arrive j t tal n := by
  obtain ⟨v, hv⟩ := s.arrive_tile j t tal n u
  apply State.fetchCheck_eq
  rw [hv]
  exact h

/-- A decoded move whose checks pass: the program counter goes past it or to its target, and its DTEN tally counts where
it completes now. -/
theorem State.finishDecode_ok (s d : State) (t : Nat) (w : MoveWord) (j : BitVec 12) (taken : Option Nat) (c : Bool)
    (h : ((d.tile t).advance taken).seq = .running → ((d.tile t).advance taken).pc < ((d.tile t).advance taken).len) :
    s.finishDecode t w j (.ok d taken c) =
      (if c && Hdr.dten w then (d.modTile t fun x => x.advance taken).arrive j t (Hdr.dtal w) 1
       else d.modTile t fun x => x.advance taken) := by
  unfold State.finishDecode
  dsimp only
  have h' : ((d.modTile t fun x => x.advance taken).tile t).seq = .running →
      ((d.modTile t fun x => x.advance taken).tile t).pc < ((d.modTile t fun x => x.advance taken).tile t).len := by
    simpa [State.modTile] using h
  split
  · exact State.fetchCheck_arrive _ _ _ _ _ _ h'
  · exact State.fetchCheck_eq _ _ h'

/-! ## Move commands -/

/-- A tile that decodes has no pre-emption request pending (R248). -/
theorem decodes_preempt {s : State} {t : TileIx} {j : Job} (h : s.decodes t = some j) : (s.holder t).bind Job.preempt = none := by
  unfold State.decodes at h
  dsimp only at h
  generalize (s.tileRuns t && _ && _ && _ && _) = b at h
  cases b
  · cases h
  · cases hh : s.holder t with
    | none => rfl
    | some k =>
      simp only [hh, Option.bind_some, if_true] at h ⊢
      split at h
      · rename_i h2; simp at h2; exact h2.1
      · cases h

/-- A well-formed move command carries its row's opcode. -/
theorem move_op (c : Instr) (op : Nat) (w : MoveWord) (h2 : c.opcode = some (op, w)) (h3 : c.wellFormed = true) :
    Hdr.op w = op := by
  cases c <;> cases h2 <;> simp only [Instr.wellFormed, Instr.opcode, Bool.and_eq_true, beq_iff_eq, bne_iff_ne] at h3 <;>
    first | exact h3 | exact h3.1 | exact h3.1.1

theorem after_id {K : State → State} (hK : ∀ u, K u = u) (X : State) :
    (Host.Outcome.next X : Out) = .next (K X) := by rw [hK]

/-- Every move command is a decode, with what follows at once on it. -/
theorem exec_move (c : Instr) (s : State) (t : TileIx) (op : Nat) (w : MoveWord) (j : Job) (h1 : moveTile c = some t)
    (h2 : c.opcode = some (op, w)) (h3 : c.wellFormed = true) (h4 : s.decodes t = some j) :
    ∃ body, exec c s = .next (afterDecode c t (s.decode t w op body)) := by
  have hp := decodes_preempt h4
  cases c <;> cases h1 <;> cases h2
  case jump => exact ⟨_, Eq.trans (Eq.refl _) (after_id (K := afterDecode (.jump t w) t) (fun _ => rfl) _)⟩
  case branch => exact ⟨_, Eq.trans (Eq.refl _) (after_id (K := afterDecode (.branch t w) t) (fun _ => rfl) _)⟩
  case loop => exact ⟨_, Eq.trans (Eq.refl _) (after_id (K := afterDecode (.loop t w) t) (fun _ => rfl) _)⟩
  case call => exact ⟨_, Eq.trans (Eq.refl _) (after_id (K := afterDecode (.call t w) t) (fun _ => rfl) _)⟩
  case return_ => exact ⟨_, Eq.trans (Eq.refl _) (after_id (K := afterDecode (.return_ t w) t) (fun _ => rfl) _)⟩
  case waitTally => exact ⟨_, Eq.trans (Eq.refl _) (after_id (K := afterDecode (.waitTally t w) t) (fun _ => rfl) _)⟩
  case yield_ =>
    refine ⟨fun s _ _ => if !onlyUses w [] then .refuse .reservedValue else .ok s, Eq.trans ?_ (after_id (K := afterDecode (.yield_ t w) t) (fun _ => rfl) _)⟩
    show execYield t w s = _
    unfold execYield State.decode
    simp only [hp]
    split <;> rfl
  case salu =>
    simp only [Instr.wellFormed, bne_iff_ne, beq_iff_eq, Bool.and_eq_true] at h3
    exact ⟨_, Eq.trans (if_neg (by simp [h3])) (after_id (K := afterDecode (.salu t w) t) (fun _ => rfl) _)⟩
  case tset =>
    simp only [Instr.wellFormed, beq_iff_eq, Bool.and_eq_true] at h3
    exact ⟨_, Eq.trans (if_neg (by simp [h3])) (after_id (K := afterDecode (.tset t w) t) (fun _ => rfl) _)⟩
  case tadd =>
    simp only [Instr.wellFormed, beq_iff_eq, Bool.and_eq_true] at h3
    exact ⟨_, Eq.trans (if_neg (by simp [h3])) (after_id (K := afterDecode (.tadd t w) t) (fun _ => rfl) _)⟩
  case scmp => exact ⟨_, Eq.trans (Eq.refl _) (after_id (K := afterDecode (.scmp t w) t) (fun _ => rfl) _)⟩
  case sldi => exact ⟨_, Eq.trans (Eq.refl _) (after_id (K := afterDecode (.sldi t w) t) (fun _ => rfl) _)⟩
  case sld => exact ⟨_, Eq.trans (Eq.refl _) (after_id (K := afterDecode (.sld t w) t) (fun _ => rfl) _)⟩
  case sst => exact ⟨_, Eq.trans (Eq.refl _) (after_id (K := afterDecode (.sst t w) t) (fun _ => rfl) _)⟩
  case sread => exact ⟨_, Eq.trans (Eq.refl _) (after_id (K := afterDecode (.sread t w) t) (fun _ => rfl) _)⟩
  case pass => exact ⟨_, Eq.trans (Eq.refl _) (after_id (K := afterDecode (.pass t w) t) (fun _ => rfl) _)⟩
  case passSplit => exact ⟨_, Eq.trans (Eq.refl _) (after_id (K := afterDecode (.passSplit t w) t) (fun _ => rfl) _)⟩
  case copy => exact ⟨_, Eq.trans (Eq.refl _) (after_id (K := afterDecode (.copy t w) t) (fun _ => rfl) _)⟩
  case fence => exact ⟨_, Eq.trans (Eq.refl _) (after_id (K := afterDecode (.fence t w) t) (fun _ => rfl) _)⟩
  case project => exact ⟨_, Eq.trans (Eq.refl _) (after_id (K := afterDecode (.project t w) t) (fun _ => rfl) _)⟩
  case periodMark => exact ⟨_, Eq.trans (Eq.refl _) (after_id (K := afterDecode (.periodMark t w) t) (fun _ => rfl) _)⟩
  case trace => exact ⟨_, Eq.trans (Eq.refl _) (after_id (K := afterDecode (.trace t w) t) (fun _ => rfl) _)⟩
  case break_ => exact ⟨_, Eq.trans (Eq.refl _) (after_id (K := afterDecode (.break_ t w) t) (fun _ => rfl) _)⟩
  all_goals exact ⟨_, rfl⟩

end Sys2Proof.Machine
end

