-- ==== Sys2Proof/Laws/Zcp.lean ====
section
/-! SUPPORT. What a ZCP command does, said once for every command (R433 to R450). -/

namespace Sys2Proof.Machine

/-- A Use that says what a row of R450 says, with nothing reserved in the request. -/
structure ZcpRow.Fits (z : ZcpRow) (u : Use) : Prop where
  op : u.op = z.op
  target : u.target = z.target
  change : u.change = z.change
  early : u.early = z.early
  frozen : u.frozen = z.frozen
  free : u.free = z.free
  bad : u.bad = none

/-! ## The lock that ends (R448) -/

theorem State.sendListener_zcp (s : State) (l : Listener) (bs : List Byte) : (s.sendListener l bs).zcp = s.zcp := by
  unfold State.sendListener; split <;> rfl

theorem State.foldl_zcp {α : Type} (f : State → α → State) (h : ∀ s x, (f s x).zcp = s.zcp) (l : List α) (s : State) :
    (l.foldl f s).zcp = s.zcp := by
  induction l generalizing s with
  | nil => rfl
  | cons x l ih => exact (ih _).trans (h s x)

/-- An event leaves the lock. -/
theorem State.event_lock (s : State) (c : EventCode) (t : Target) (d : List Byte) (a : Option (BitVec 64)) :
    (s.event c t d a).zcp.lock = s.zcp.lock := by
  unfold State.event
  dsimp only
  rw [State.bump_zcp, State.foldl_zcp (fun s (p : Listener × List Byte) => State.sendListener s p.1 p.2) fun s p => s.sendListener_zcp p.1 p.2]

/-- A lock ends at its lease, and before that it stays. -/
theorem State.dropLock_lock (s : State) : s.dropLock.zcp.lock = s.zcp.lock.filter fun l => decide (s.clock < l.2) := by
  unfold State.dropLock
  split
  · rename_i h t hl
    rw [hl]
    split
    · rename_i h1
      rw [State.event_lock]
      simp [Option.filter, Nat.not_lt.mpr h1]
    · rename_i h1
      rw [hl]
      simp [Option.filter, Nat.lt_of_not_le h1]
  · rename_i hl; rw [hl]; rfl

@[simp] theorem State.touchSource_live (s : State) (a : ZcpSrc) : (s.touchSource a).live = s.live := rfl

/-! ## What a command with no effect leaves -/

/-- What SameBut lets change, said outright. -/
theorem sameBut_iff (s t : State) :
    SameBut s t ↔ ∃ z o c i, t = { s with zcp := z, outbox := o, counters := c, fab := { s.fab with inject := i } } := by
  constructor
  · intro h
    refine ⟨t.zcp, t.outbox, t.counters, t.fab.inject, ?_⟩
    unfold SameBut at h
    rw [← h]
  · rintro ⟨z, o, c, i, rfl⟩; rfl

theorem SameBut.refl (s : State) : SameBut s s := rfl

theorem SameBut.trans {s t u : State} (h1 : SameBut s t) (h2 : SameBut t u) : SameBut s u := by
  rw [sameBut_iff] at *
  obtain ⟨z, o, c, i, rfl⟩ := h1
  obtain ⟨z', o', c', i', rfl⟩ := h2
  exact ⟨z', o', c', i', rfl⟩

theorem SameBut.bump (s : State) (c : CtrId) (i j n : Nat) : SameBut s (s.bump c i j n) := by
  unfold State.bump; split <;> rfl

theorem SameBut.touch (s : State) (a : ZcpSrc) : SameBut s (s.touchSource a) := rfl

theorem SameBut.sendZcp (s : State) (a : ZcpSrc) (p : List Byte) : SameBut s (s.sendZcp a p) := by
  unfold State.sendZcp; split <;> rfl

theorem SameBut.foldl {α : Type} (f : State → α → State) (h : ∀ s x, SameBut s (f s x)) (l : List α) (s : State) :
    SameBut s (l.foldl f s) := by
  induction l generalizing s with
  | nil => rfl
  | cons x l ih => exact (h s x).trans (ih _)

theorem SameBut.sendListener (s : State) (l : Listener) (bs : List Byte) : SameBut s (s.sendListener l bs) := by
  unfold State.sendListener; split <;> rfl

theorem SameBut.event (s : State) (c : EventCode) (t : Target) (d : List Byte) (a : Option (BitVec 64)) :
    SameBut s (s.event c t d a) := by
  unfold State.event
  dsimp only
  refine SameBut.trans ?_ (SameBut.bump _ .zcpEventDropped 0 0 _)
  refine SameBut.trans ?_ (SameBut.foldl (fun s (p : Listener × List Byte) => State.sendListener s p.1 p.2) (fun s p => SameBut.sendListener s p.1 p.2) _ _)
  rfl

theorem SameBut.dropLock (s : State) : SameBut s s.dropLock := by
  unfold State.dropLock
  split
  · split
    · exact SameBut.trans (t := { s with zcp := { s.zcp with lock := none } }) rfl (SameBut.event _ _ _ _ _)
    · rfl
  · rfl

/-- A request that runs meets no refusal before its command's own conditions. -/
theorem ZcpRow.Runs.noRefusal {z : ZcpRow} {s s₀ : State} {w : Waiting} (h : z.Runs s s₀ w) {u : Use} (hu : z.Fits u) :
    s₀.refusal z.req u = none ∧ s₀.stateRefusal u = none := by
  have hs : s₀.zcp.lock = (s.zcp.lock.filter fun l => decide (s.clock < l.2)) ∧ s₀.boot = s.boot ∧ s₀.dbg = s.dbg := by
    rcases h.heard.taken with ⟨-, -, -, -, rfl⟩ | ⟨-, -, -, -, rfl⟩ <;>
      refine ⟨State.dropLock_lock _, ?_⟩ <;> obtain ⟨z, o, c, i, he⟩ := (sameBut_iff _ _).mp (SameBut.dropLock _) <;>
      rw [he] <;> exact ⟨rfl, rfl⟩
  obtain ⟨hl, hb, hd⟩ := hs
  have ha := h.allowed
  have hz := h.size
  simp only [ZcpRow.barred] at ha
  refine ⟨?_, ?_⟩
  · simp only [State.refusal, hu.bad, hu.change, hu.free, hl]
    have hz' : (z.req.ver2 && decide (z.req.maxReply ≠ 0) && (decide (z.req.maxReply < 512) || decide (z.req.maxReply > 9000))) = false := by
      simpa using hz
    rw [if_neg (by simpa using hz')]
    cases hc : z.change
    · simp
    · cases hk : s.zcp.lock with
      | none => simp
      | some l =>
        simp only [hc, hk] at ha
        by_cases hlt : s.clock < l.2 <;> simp [Option.filter, hlt] at ha ⊢
        exact ha.1.1
  · simp only [State.stateRefusal, hu.change, hu.early, hu.frozen, hb, hd]
    cases hc : z.change
    · simp
    · simp only [hc] at ha
      cases h1 : s.boot.ready <;> cases h2 : z.early <;> cases h3 : s.dbg.frozen <;> cases h4 : z.frozen <;> simp_all

/-- A request that runs executes its command's body on the state s₀, in which a lock has ended that was over. -/
theorem ZcpRow.Runs.step {z : ZcpRow} {s s₀ : State} {w : Waiting} (h : z.Runs s s₀ w) {u : Use} (hu : z.Fits u)
    (body : State → Ans) : ∃ s₁ : State, s₀ = s₁.dropLock ∧ s.zcpStep z.req u body = s₁.runZcp w u z.req body := by
  unfold State.zcpStep
  rcases h.heard.taken with ⟨h1, h2, h0, h3, h4⟩ | ⟨h1, h2, h3, h4, h5⟩
  · have hw : requestInHand z.req u s.clock = w := by
      rw [h3]; simp [requestInHand, ZcpRow.inHand, hu.op, hu.target]
    have h0 : s.zcp.takes w = true := by rw [h3]; exact h0
    exact ⟨_, h4, by simp [h.heard.live, h.heard.reaches, h.heard.passes, h1, h2, hw, h0]⟩
  · exact ⟨_, h5, by simp [h.heard.live, h.heard.reaches, h.heard.passes, h1, h2, h3, h4, hu.op]⟩

/-- A command whose own conditions hold has its effect and replies SUCCESS. -/
theorem ZcpRow.Runs.ok {z : ZcpRow} {s s₀ t : State} {w : Waiting} (h : z.Runs s s₀ w) {u : Use} (hu : z.Fits u)
    {body : State → Ans} {vs : List (List Byte)} (hb : body s₀ = .ok t vs) :
    s.zcpStep z.req u body = t.reply w z.change .success (items vs) := by
  obtain ⟨s₁, rfl, hs⟩ := h.step hu body
  rw [hs]
  unfold State.runZcp
  obtain ⟨h1, h2⟩ := h.noRefusal hu
  simp [h1, h2, hb, hu.change]

/-- A command that completes later goes on executing. -/
theorem ZcpRow.Runs.later {z : ZcpRow} {s s₀ t : State} {w : Waiting} (h : z.Runs s s₀ w) {u : Use} (hu : z.Fits u)
    {body : State → Ans} (hb : body s₀ = .later t) : s.zcpStep z.req u body = t.leaveLater w := by
  obtain ⟨s₁, rfl, hs⟩ := h.step hu body
  rw [hs]
  unfold State.runZcp
  obtain ⟨h1, h2⟩ := h.noRefusal hu
  simp [h1, h2, hb, State.leaveLater]

/-- A command's own refusal: its status, its counter, and no effect but that of the body. -/
theorem ZcpRow.Runs.err {z : ZcpRow} {s s₀ t : State} {w : Waiting} (h : z.Runs s s₀ w) {u : Use} (hu : z.Fits u)
    {body : State → Ans} {st : Status} {p : Option Nat} {i : List Byte} (hb : body s₀ = .err t st p i) :
    s.zcpStep z.req u body = (match u.count with | some (c, k) => t.bump c k | none => t).reply w z.change st
      (match p with | some k => items [leBytes 2 k] | none => if i.isEmpty then [] else items [i]) := by
  obtain ⟨s₁, rfl, hs⟩ := h.step hu body
  rw [hs]
  unfold State.runZcp
  obtain ⟨h1, h2⟩ := h.noRefusal hu
  cases hc : u.count <;> cases p <;> simp [h1, h2, hb, hu.change]

/-! ## What a reply leaves -/

theorem SameBut.sendReply (s : State) (a : ZcpSrc) (e : ReplayEntry) (m k : Nat) (b : List Byte) :
    SameBut s (s.sendReply a e m k b) := SameBut.foldl _ (fun s p => SameBut.sendZcp s a p) _ _

theorem SameBut.answerDuplicate (s : State) (a : ZcpSrc) (e : ReplayEntry) (m r : Nat) :
    SameBut s (s.answerDuplicate a e m r) := by
  unfold State.answerDuplicate
  dsimp only
  split <;> exact ((SameBut.bump _ _ _ _ _).trans (SameBut.touch _ _)).trans (SameBut.sendReply _ _ _ _ _ _)

theorem SameBut.cacheReply (s : State) (a : ZcpSrc) (e : ReplayEntry) : SameBut s (s.cacheReply a e) := by
  have key : ∀ (cs : List ReplayCache) (ev : Bool), SameBut s
      (let t : State := { s with zcp := { s.zcp with caches := trimBodies 16384 cs } }
       if ev then t.bump .zcpReplaySourceEvicted else t) := by
    intro cs ev
    have h : SameBut s { s with zcp := { s.zcp with caches := trimBodies 16384 cs } } := rfl
    cases ev
    · exact h
    · exact h.trans (SameBut.bump _ .zcpReplaySourceEvicted 0 0 1)
  unfold State.cacheReply
  dsimp only
  split <;> exact key _ _

theorem SameBut.startQueued (s : State) : SameBut s s.startQueued := rfl

/-- A reply to a command that does not change the module, or that is refused, changes nothing else. -/
theorem SameBut.reply (s : State) (w : Waiting) (c : Bool) (st : Status) (b : List Byte) (hc : c = false ∨ st ≠ .success) :
    SameBut s (s.reply w c st b) := by
  have key : ∀ (t : State) (a : ZcpSrc) (e : ReplayEntry) (m : Nat) (b : List Byte), SameBut s t →
      SameBut s (((t.sendReply a e m 0 b).cacheReply a e).startQueued) := fun t a e m b h =>
    h.trans ((SameBut.sendReply t a e m 0 b).trans ((SameBut.cacheReply _ a e).trans (SameBut.startQueued _)))
  unfold State.reply
  dsimp only
  rw [if_neg]
  · exact key _ _ _ _ _ rfl
  · rcases hc with hc | hc
    · simp [hc]
    · split <;> simp [hc]

/-- What a refusal before the command's own conditions answers: a status other than SUCCESS, and no effect. -/
theorem State.earlyRefusal (s : State) (r : ZcpReq) (u : Use) (a : Ans) (hb : u.bad ≠ some .success)
    (h : ((s.refusal r u).orElse fun _ => s.stateRefusal u) = some a) :
    ∃ t st p i, a = .err t st p i ∧ st ≠ .success ∧ SameBut s t := by
  cases hr : s.refusal r u with
  | some x =>
    simp [hr] at h
    subst h
    unfold State.refusal at hr
    split at hr
    · rename_i e he
      cases hr
      exact ⟨_, _, _, _, rfl, fun h => hb (by rw [he, h]), rfl⟩
    · split at hr
      · cases hr; exact ⟨_, _, _, _, rfl, by simp, rfl⟩
      · split at hr
        · cases hr
        · split at hr
          · split at hr
            · cases hr; exact ⟨_, _, _, _, rfl, by simp, rfl⟩
            · cases hr
          · cases hr
  | none =>
    simp [hr] at h
    unfold State.stateRefusal at h
    split at h
    · cases h
    · split at h
      · cases h; exact ⟨_, _, _, _, rfl, by simp, SameBut.bump _ _ _ _ _⟩
      · split at h
        · cases h; exact ⟨_, _, _, _, rfl, by simp, SameBut.bump _ _ _ _ _⟩
        · cases h

/-- What an answer leaves unchanged. -/
def Ans.same (s : State) : Ans → Prop
  | .ok t _ => SameBut s t
  | .err t _ _ _ => SameBut s t
  | .later t => SameBut s t

/-- A command that does not change the module, whose own body changes nothing, changes nothing. -/
theorem SameBut.zcpStep (s : State) (r : ZcpReq) (u : Use) (body : State → Ans) (hc : u.change = false)
    (hu : u.bad ≠ some .success) (hb : ∀ s, (body s).same s) : SameBut s (s.zcpStep r u body) := by
  have run : ∀ (s : State) w, SameBut s (s.runZcp w u r body) := by
    intro s₁ w
    refine (SameBut.dropLock s₁).trans ?_
    unfold State.runZcp
    dsimp only
    generalize s₁.dropLock = s
    have h1 : ∀ a, ((s.refusal r u).orElse fun _ => s.stateRefusal u).getD (body s) = a → a.same s := by
      rintro a rfl
      cases h : (s.refusal r u).orElse fun _ => s.stateRefusal u with
      | none => exact hb s
      | some a => obtain ⟨t, st, p, i, rfl, -, ht⟩ := State.earlyRefusal _ _ _ _ hu h; exact ht
    generalize ((s.refusal r u).orElse fun _ => s.stateRefusal u).getD (body s) = a at h1
    have h1 := h1 a rfl
    cases a with
    | ok t vs => exact SameBut.trans h1 (SameBut.reply _ _ _ _ _ (.inl hc))
    | err t st p i =>
      refine SameBut.trans h1 (SameBut.trans ?_ (SameBut.reply _ _ _ _ _ (.inl hc)))
      split
      · exact SameBut.bump _ _ _ _ _
      · rfl
    | later t => exact SameBut.trans h1 rfl
  unfold State.zcpStep
  split
  · rfl
  split
  · exact SameBut.bump _ _ _ _ _
  split
  · split
    · exact run _ _
    · exact ((SameBut.bump _ _ _ _ _).trans (SameBut.touch _ _)).trans (SameBut.sendReply _ _ _ _ _ _)
  · split
    · exact SameBut.answerDuplicate _ _ _ _ _
    · dsimp only
      split
      · exact (SameBut.touch _ _).trans (run _ _)
      split
      · exact ((SameBut.touch _ _).trans (SameBut.bump _ _ _ _ _)).trans (SameBut.sendReply _ _ _ _ _ _)
      · rfl

/-! ## Every ZCP command -/

/-- A Use that says what a row of R450 says; what it finds reserved is refused. -/
structure ZcpRow.Says (z : ZcpRow) (u : Use) : Prop where
  op : u.op = z.op
  target : u.target = z.target
  change : u.change = z.change
  early : u.early = z.early
  frozen : u.frozen = z.frozen
  free : u.free = z.free
  bad : u.bad ≠ some .success

theorem jobLoadBad_ne (j : BitVec 12) (p : JobParams) : jobLoadBad j p ≠ some .success := by
  unfold jobLoadBad; split
  · simp
  · split <;> simp

theorem State.badSource_ne (s : State) (x : TimeSource) : s.badSource x ≠ some .success := by
  unfold State.badSource; split
  · split <;> simp
  · simp

theorem triggerBad_ne (c : TriggerCfg) : triggerBad c ≠ some .success := by
  unfold triggerBad; split
  · simp
  · split <;> simp

/-- Every ZCP command is the shared step of ZCP commands, whose use is its row of R450. THAW, AUDIT and MODULE_RESTART have
more to do where they have an effect. -/
theorem exec_zcp (c : Instr) (z : ZcpRow) (s : State) (h : zcpRow c = some z) :
    ∃ u body, (SameBut s (s.zcpStep z.req u body) → exec c s = .next (s.zcpStep z.req u body)) ∧ z.Says u := by
  cases c <;> cases h
  case thaw =>
    exact ⟨_, _, fun h => congrArg Host.Outcome.next (if_pos (congrArg (fun (x : State) => x.dbg.thaws) h :)),
      rfl, rfl, rfl, rfl, rfl, rfl, by simp⟩
  case audit r p vc =>
    refine ⟨_, _, fun h => congrArg Host.Outcome.next (if_pos (congrArg (fun (x : State) => x.ports[p].audit) h :)),
      rfl, rfl, rfl, rfl, rfl, rfl, ?_⟩
    dsimp only
    split <;> simp
  case moduleRestart =>
    exact ⟨_, _, fun h => congrArg Host.Outcome.next (if_pos (congrArg (fun (x : State) => x.boot.restart) h :)),
      rfl, rfl, rfl, rfl, rfl, rfl, by simp⟩
  case jobLoad => exact ⟨_, _, fun _ => rfl, rfl, rfl, rfl, rfl, rfl, rfl, jobLoadBad_ne _ _⟩
  case timeConfig => exact ⟨_, _, fun _ => rfl, rfl, rfl, rfl, rfl, rfl, rfl, State.badSource_ne _ _⟩
  case freezeTrigger => exact ⟨_, _, fun _ => rfl, rfl, rfl, rfl, rfl, rfl, rfl, triggerBad_ne _⟩
  all_goals exact ⟨_, _, fun _ => rfl, rfl, rfl, rfl, rfl, rfl, rfl, by simp⟩

end Sys2Proof.Machine
end

