-- ==== Sys2Proof/Tests/Slice0.lean ====
section
/-! SUPPORT. Tests: ill-formed commands are refused, small values worked out from the spec, and for every statement
states and operands that meet its hypotheses. -/

namespace Sys2Proof.Tests

set_option Elab.async false

open Sys2Proof Sys2Proof.Machine

/-! ## What the witnesses are built from -/

/-- A module that runs: rails on, READY, nothing loaded, every host interface up. -/
def up : State := { State.reset with
  board := { rails := true, pgood := true }
  boot := { step := .running, ready := true }
  host := { ifaces := Vector.replicate 16 { up := true } } }

/-- A request in one packet from interface 0. -/
def req : ZcpReq := { src := .udp 0 1 5000, seq := 7 }

/-- A request from `req.src` is heard, and executes as it arrives, whoever holds the lock. -/
def quiet (s : State) : Bool :=
  s.live && s.accepts req.src && s.zcp.filter == [] && s.zcp.waiting == [] && s.zcp.caches == [] &&
    s.zcp.lock.all fun l => decide (s.clock < l.2)

/-- Marking a source active changes nothing when no replay is kept. -/
theorem touch_nothing (s : State) (a : ZcpSrc) (h : s.zcp.caches = []) : s.touchSource a = s := by
  have hz : ({ s.zcp with caches := [] } : Zcp) = s.zcp := by rw [← h]
  show ({ s with zcp := { s.zcp with caches := mapIf _ _ s.zcp.caches } } : State) = s
  rw [h]
  exact congrArg (fun z => ({ s with zcp := z } : State)) hz

/-- A lock whose lease runs stays. -/
theorem lock_stays (s : State) (h : (s.zcp.lock.all fun l => decide (s.clock < l.2)) = true) : s.dropLock = s := by
  unfold State.dropLock
  split
  · rename_i a t hl
    rw [hl] at h
    simp only [Option.all_some, decide_eq_true_eq] at h
    rw [if_neg (by omega)]
  · rfl

/-- A command that is heard and runs, on a state that meets its own conditions. -/
def Meets (c : Instr) (s : State) (ok : State → Prop) : Prop :=
  ∃ u s₀ w, zcpRow c = some u ∧ u.Runs s s₀ w ∧ ok s₀

theorem meets {c : Instr} {s : State} {ok : State → Prop} {u : ZcpRow} (hc : zcpRow c = some u) (hr : u.req = req)
    (hq : quiet s = true) (hb : u.barred s = false) (hok : ok s) : Meets c s ok := by
  simp only [quiet, Bool.and_eq_true, beq_iff_eq] at hq
  obtain ⟨⟨⟨⟨⟨h1, h2⟩, h6⟩, h7⟩, h8⟩, h9⟩ := hq
  refine ⟨u, s, u.inHand s, hc, ⟨⟨h1, by rw [hr]; exact h2, by rw [h6]; rfl, .inl ⟨?_, ?_, ?_, rfl, ?_⟩⟩, hb, by rw [hr]; decide⟩, hok⟩
  · simp [Zcp.inHand, h7]
  · simp [Zcp.cached, h8]
  · simp [Zcp.takes, mayStartZcp, h7]
  · rw [touch_nothing s _ h8, lock_stays s h9]

/-- A barred command that is heard. -/
theorem heard {s : State} {u : ZcpRow} (hr : u.req = req) (hq : quiet s = true) : u.Heard s s (u.inHand s) := by
  simp only [quiet, Bool.and_eq_true, beq_iff_eq] at hq
  obtain ⟨⟨⟨⟨⟨h1, h2⟩, h6⟩, h7⟩, h8⟩, h9⟩ := hq
  refine ⟨h1, by rw [hr]; exact h2, by rw [h6]; rfl, .inl ⟨?_, ?_, ?_, rfl, ?_⟩⟩
  · simp [Zcp.inHand, h7]
  · simp [Zcp.cached, h8]
  · simp [Zcp.takes, mayStartZcp, h7]
  · rw [touch_nothing s _ h8, lock_stays s h9]

theorem test_quiet : quiet up = true := by decide +kernel

/-! ## The block as a whole -/

/-- EmptyQueueTicks: rails off; rails on and no firmware; time that only counts. -/
theorem wit_EmptyQueueTicks :
    State.reset.pending = [] ∧ State.reset.board.rails = false ∧ State.reset.live = false ∧
    (let s : State := { State.reset with board := { rails := true } }
     s.pending = [] ∧ s.board.rails = true ∧ s.live = false) ∧
    (let s : State := { up with clock := 63, time := { slew := 5 } }
     s.pending = [] ∧ s.clock % 64 ≠ 0) ∧ (up.pending = [] ∧ up.time.slew = 0) := by decide +kernel

/-- StepKeepsInvariant and FusesNeverUnblown: a state with the invariant, all fuses blown, that a command steps from. -/
theorem wit_StepKeepsInvariant :
    let s : State := { up with mem := [(0, 1)], pending := [.railFault], flash := { rollback := 64 } }
    s.Inv ∧ s.flash.rollback ≤ 64 ∧ (∃ t, step s = .next t) ∧ (∃ c cs, s.pending = c :: cs ∧ c ≠ .ready) :=
  ⟨⟨by decide, by decide, by decide⟩, by decide, ⟨_, rfl⟩, ⟨_, _, rfl, by decide⟩⟩

/-- ConstantRegisters: a move predicated on p0. -/
theorem wit_ConstantRegisters : Hdr.psel 0x10 = 0 ∧ Hdr.pneg 0x10 = false := by decide

/-- RequestPacketsRoundTrip: a PUT of 256 bytes and a GET of 256. -/
theorem wit_RequestPacketsRoundTrip :
    let put : Request := { dst := 1, src := 2, cls := 3, job := 4, op := 0, seq := 5, len := 256, waddr := 64
                           payload := List.replicate 256 0xFF }
    put.payload.length = (if put.op = 1 then 0 else put.len.toNat) ∧
    (let get : Request := { put with op := 1, payload := [] }
     get.payload.length = (if get.op = 1 then 0 else get.len.toNat)) := by decide +kernel

/-- NumberFormatsRoundTrip: the largest BF16, the smallest E5M2 code, and E8M0, INT4 and T2 at their ends. -/
theorem wit_NumberFormatsRoundTrip :
    Fmt.bf16.decode 0x7F7F = .fin false 255 120 ∧ Fmt.e5m2.decode 1 = .fin false 1 (-16) ∧ Fmt.int4.decode 8 = .fin true 8 0 ∧
    Fmt.t2.decode 3 = .fin true 1 0 ∧ Fmt.e8m0.decode 0 = .fin false 1 (-127) := by decide +kernel

/-! ## Board and boot -/

/-- InputRange at the ends of each range. -/
theorem wit_InputRange :
    36999 < 37000 ∧ 63000 < 63001 ∧ State.reset.board.mayStart 39001 = true ∧ State.reset.board.mayStart 39000 = false ∧
    (let b : Board := { inputOff := true }
     b.mayStart 60000 = true ∧ b.mayStart 60001 = false ∧ b.rails = false ∧ b.thermtrip = false ∧ b.railFault = false) := by decide

/-- LossOfInput: a module without 48 V; one without it whose THERMTRIP_N is latched; the ends of an input that is out of
range but present. -/
theorem wit_LossOfInput :
    State.reset.board.vin = 0 ∧ 25 ≠ 26 ∧ 0 < 1 ∧ 1 < 37000 ∧ 63000 < 63001 ∧
    (let s : State := { up with board := { thermtrip := true } }; s.board.thermtrip = true) := by decide

/-- ResetAndPins. -/
theorem wit_ResetAndPins :
    (up.board.rails = true ∧ up.board.thermtrip = false ∧ up.board.resetLow = false) ∧
    (let s : State := { up with board := { thermtrip := true } }; s.board.thermtrip = true) ∧
    (let s : State := { up with board := { rails := true, resetLow := true } }
     s.board.resetLow = true ∧ s.board.rails = true ∧ s.board.thermtrip = false) ∧
    (let s : State := { up with clock := 40000000001, boot := { step := .running, fwStartT := 1 } }
     s.live = true ∧ s.boot.ready = false ∧ s.boot.fwStartT + 40000000000 ≤ s.clock) ∧
    (let s : State := { up with clock := 5, boot := { step := .running, ethernetNs := some 4, fabricNs := some 3 } }
     s.live = true ∧ s.boot.ready = false ∧ s.dbg.frozen = false ∧ s.boot.ethernetNs.isSome = true ∧
       s.boot.fabricNs.isSome = true) ∧
    (up.live = true ∧ up.boot.ready = true ∧ up.dbg.frozen = false) ∧ State.reset.boot.ready = false ∧
    (up.board.rails = true ∧ (3 : BitVec 4) ≠ up.board.slotPins) ∧ State.reset.board.rails = false := by decide +kernel

/-- TestPort. -/
theorem wit_TestPort :
    up.board.pgood = true ∧
    (let s : State := { up with board := { pgood := true, tap := .extest, bsr := 5, vin := 48000 } }
     s.board.pgood = true ∧ s.board.tap = .extest ∧ s.board.vin ≠ 0) ∧ 21 < 22 := by decide +kernel

/-- FreezeEvents. -/
theorem wit_FreezeEvents :
    (let x : Trigger := { id := 3, key := some ⟨.zcpBusy, 0, 0, 0⟩, cmp := 0, value := 0, snapshot := false, base := 0 }
     let s : State := { up with dbg := { triggers := (Vector.replicate 8 none).set 2 (some x) } }
     s.live = true ∧ s.dbg.triggers[(2 : Fin 8)] = some x ∧ x.met (s.ctrNow x.id x.key) = true) ∧
    (FreezeCause.command ≠ .pin ∧ FreezeCause.command ≠ .peer) ∧ (up.live = true ∧ up.boot.ready = true ∧ up.dbg.frozen = false ∧ up.dbg.accept = true) ∧
    (let s : State := { up with dbg := { accept := false } }; s.live = true ∧ s.dbg.accept = false) ∧
    (let s : State := { up with dbg := { frozen := true, dump := some (0, 2 ^ 28, false, false) } }
     s.live = true ∧ s.dbg.dump = some (0, 2 ^ 28, false, false) ∧ s.dbg.frozen = true ∧ s.scanOver = false ∧ s.dbg.dumpReads = [] ∧
       s.dbg.thaws = []) ∧
    (let s : State := { up with dbg := { frozen := true, thaws := [(req.src, 7, some 0)] } }
     s.dbg.thaws = [(req.src, 7, some 0)] ∧ (∀ t : BitVec 64, some 0 = some t → t.toNat ≤ s.now.toNat) ∧ s.dbg.frozen = true ∧ s.scanOver = true ∧
       s.board.freezeInLow = false) := by
  refine ⟨by decide +kernel, by decide +kernel, by decide +kernel, by decide +kernel, by decide +kernel, by decide +kernel, ?_, by decide +kernel⟩
  intro t h; cases h; decide +kernel

/-- RestartKeepsAndLoses has no hypothesis; READY and a lit module are where it matters. -/
theorem wit_RestartKeepsAndLoses : up.live = true ∧ up.boot.ready = true := by decide +kernel

/-! ## The control processor -/

/-- A running module whose lock a source holds. -/
def locked (a : ZcpSrc) : State := { up with zcp := { lock := some (a, 9) } }

/-- The capability list is never shorter than its first header. -/
theorem capList_long (s : State) : 8 ≤ (capList 0 s.capBodies).length := by
  simp only [State.capBodies, capList]
  simp [leBytes]
  omega

/-- ControlProcessorCommands, the commands that any state lets run. -/
theorem wit_ControlProcessorCommands :
    Meets (.deviceInfo req) up (fun _ => True) ∧
    Meets (.capRead req 0 8) up
      (fun s => 0 % 8 = 0 ∧ 8 ≤ 8 ∧ 8 ≤ 1024 ∧ 0 + 8 ≤ (capList 0 s.capBodies).length) ∧
    Meets (.ping req (List.replicate 1024 0) 5) up (fun _ => (List.replicate 1024 (0 : Byte)).length ≤ 1024) ∧
    Meets (.eventRegister req (.fid 3) 1) up (fun s => s.zcp.listeners[(0 : Fin 8)] = none ∧
      ∀ k : Fin 8, k < (0 : Fin 8) → s.zcp.listeners[k] ≠ none) ∧
    Meets (.eventDeregister req 7) up (fun _ => True) ∧
    Meets (.eventRead req 0 64) up (fun _ => 1 ≤ 64 ∧ 64 ≤ 64) ∧
    Meets (.flagRead req) up (fun _ => True) ∧
    Meets (.flagClear req {} 0x0101) up (fun _ => FlagId.ofCode 0x0101 = some .lockForced ∧
      FlagId.lockForced.kinds.contains ({} : Target).kind.toNat = true ∧ ({} : Target).index.toNat < kindSize 0) ∧
    Meets (.mgmtLock req 600) up (fun s => 1 ≤ 600 ∧ 600 ≤ 600 ∧ s.zcp.lock = none) ∧
    Meets (.mgmtLock req 1) (locked req.src) (fun s => 1 ≤ 1 ∧ 1 ≤ 600 ∧ s.zcp.lock = some (req.src, 9)) ∧
    Meets (.mgmtUnlock req false) (locked req.src) (fun s => s.zcp.lock = some (req.src, 9)) ∧
    Meets (.mgmtUnlock req true) (locked (.mfp 3 9))
      (fun s => s.zcp.lock = some (.mfp 3 9, 9) ∧ ZcpSrc.mfp 3 9 ≠ req.src) ∧
    Meets (.sourceFilter req [.ip 1 128]) up (fun _ => filterAllows [.ip 1 128] req.src = true ∧ [FilterEntry.ip 1 128].length ≤ 16) ∧
    Meets (.sourceFilterRead req) up (fun _ => True) ∧ Meets (.zcpUnknownOpcode req 0x0F00) up (fun _ => True) := by
  refine ⟨?_, ?_, ?_, ?_, ?_, ?_, ?_, ?_, ?_, ?_, ?_, ?_, ?_, ?_, ?_⟩
  case refine_2 => exact meets rfl rfl (by decide +kernel) (by decide +kernel) ⟨rfl, by decide, by decide, capList_long _⟩
  all_goals exact meets rfl rfl (by decide +kernel) (by decide +kernel) (by decide +kernel)

/-- ReadCommandsChangeNothing: PLAN_READ answers. -/
theorem wit_ReadCommandsChangeNothing : readsOnly (.planRead req) = true ∧ ∃ t, exec (.planRead req) up = .next t :=
  ⟨rfl, _, rfl⟩

/-- BarredCommandsAreRefused: the lock of another source; a module that is not READY; a frozen one. -/
theorem wit_BarredCommandsAreRefused :
    (∃ u, zcpRow (.windowClose req 16383) = some u ∧ u.Heard (locked (.mfp 3 9)) (locked (.mfp 3 9)) (u.inHand (locked (.mfp 3 9))) ∧
      u.barred (locked (.mfp 3 9)) = true ∧ (req.ver2 = true → req.maxReply = 0) ∧
      (locked (.mfp 3 9)).zcp.lock.filter (fun l => l.1 != req.src) = some (.mfp 3 9, 9)) ∧
    (let s : State := { up with boot := { step := .running } }
     ∃ u, zcpRow (.windowClose req 16383) = some u ∧ u.Heard s s (u.inHand s) ∧ u.barred s = true ∧
       s.zcp.lock.filter (fun l => l.1 != req.src) = none ∧ s.boot.ready = false) ∧
    (let s : State := { up with dbg := { frozen := true } }
     (∃ u, zcpRow (.windowClose req 16383) = some u ∧ u.Heard s s (u.inHand s) ∧ u.barred s = true ∧
       s.zcp.lock.filter (fun l => l.1 != req.src) = none ∧ s.boot.ready = true ∧ s.dbg.frozen = true) ∧
     (∃ u, zcpRow (.ppeCalibrate req) = some u ∧ u.Heard s s (u.inHand s) ∧ s.zcp.lock = none ∧ s.dbg.frozen = true)) := by
  refine ⟨⟨_, rfl, heard rfl (by decide +kernel), ?_⟩, ⟨_, rfl, heard rfl (by decide +kernel), ?_⟩,
    ⟨_, rfl, heard rfl (by decide +kernel), ?_⟩, ⟨_, rfl, heard rfl (by decide +kernel), ?_⟩⟩
  all_goals decide +kernel

/-- DuplicatesAreNotExecuted: a reply that is kept, and a request that still executes. -/
theorem wit_DuplicatesAreNotExecuted :
    ∃ u, zcpRow (.planRead req) = some u ∧
      (let e : ReplayEntry := { seq := 7, op := 0x0402, target := {}, ver2 := true, tag := 0, status := 0, body := none }
       let s : State := { up with zcp := { caches := [{ src := req.src, last := 0, entries := [e] }] } }
       s.live = true ∧ s.accepts u.req.src = true ∧ filterAllows s.zcp.filter u.req.src = true ∧
         s.zcp.inHand u.req.src u.req.seq = none ∧ s.zcp.cached u.req.src u.req.seq = some e) ∧
      (let w : Waiting := { u.inHand up with later := true }
       let s : State := { up with zcp := { waiting := [w] } }
       s.live = true ∧ s.accepts u.req.src = true ∧ filterAllows s.zcp.filter u.req.src = true ∧
         s.zcp.inHand u.req.src u.req.seq = some w ∧ w.later = true) := by
  refine ⟨_, rfl, ?_⟩; decide +kernel

/-- FilteredRequestsAreDropped. -/
theorem wit_FilteredRequestsAreDropped :
    ∃ u, zcpRow (.planRead req) = some u ∧
      (let s : State := { up with zcp := { filter := [.port 3] } }
       s.live = true ∧ s.accepts u.req.src = true ∧ filterAllows s.zcp.filter u.req.src = false) ∧ State.reset.live = false := by
  refine ⟨_, rfl, ?_⟩; decide +kernel

/-- ControlTransport: a packet that is no ZCP packet, one that is, a filtered one, a reassembly of one second, a request
100 ms old, and a lease that has ended. -/
theorem wit_ControlTransport :
    let a := req.src
    let pkt := zcpPacket 2 0 7 0x0402 0 0 0 0 1 []
    up.live = true ∧ up.accepts a = true ∧ (leNat (([] : List Byte).take 2) ≠ 0x5A4D) ∧
    (leNat (pkt.take 2) = 0x5A4D ∧ 32 ≤ pkt.length ∧ (zcpHead pkt).flags % 4 = 0 ∧ filterAllows up.zcp.filter a = true ∧
      (zcpHead pkt).ver = 2 ∧ (zcpHead pkt).flags / 8 = 0 ∧ (zcpHead pkt).len = (zcpHead pkt).body.length ∧
      (zcpHead pkt).frag = 0 ∧ (zcpHead pkt).nfrag = 1 ∧
      (let h := zcpHead pkt
       up.zcp.inHand a h.seq = none ∧ up.zcp.cached a h.seq = none ∧ h.body.length ≤ 65536 ∧
         (up.zcp.waiting.filter fun w => w.started.isNone).length < 64 ∧
         (let w : Waiting :=
           { src := a, seq := h.seq, op := h.op, target := targetOf h.target, ver2 := h.ver == 2, tag := h.tag
             maxReply := h.maxReply, bytes := h.body, started := none }
          encodingRefusal w = none))) ∧
    (let pkt := zcpPacket 2 0 7 0x0402 0 0 0 1 2 [0]
     let h := zcpHead pkt
     leNat (pkt.take 2) = 0x5A4D ∧ 32 ≤ pkt.length ∧ h.flags % 4 = 0 ∧ h.flags / 8 = 0 ∧ h.len = h.body.length ∧ h.ver = 2 ∧
       h.frag < h.nfrag ∧ 2 ≤ h.nfrag ∧ (∀ x ∈ up.zcp.reassembly, x.src = a → x.seq ≠ h.seq) ∧ up.zcp.reassembly.length < 16) ∧
    filterAllows [.port 3] a = false ∧
    (let x : Reassembly := { src := a, seq := 7, op := 2, target := 0, nfrag := 2, first := 1 }
     let s : State := { up with clock := 1000000001, zcp := { reassembly := [x] } }
     s.live = true ∧ x ∈ s.zcp.reassembly ∧ x.src = a ∧ x.seq = 7 ∧ x.first + 1000000000 ≤ s.clock) ∧
    (let w : Waiting := { src := a, seq := 7, op := 2, target := {}, ver2 := true, tag := 0, maxReply := 0, bytes := [], started := some 1 }
     let s : State := { up with clock := 100000001, zcp := { waiting := [w] } }
     s.live = true ∧ s.zcp.inHand a 7 = some w ∧ w.started = some 1 ∧ 1 + 100000000 + 1000000000 * w.interims ≤ s.clock) ∧
    (let s : State := { up with clock := 9, zcp := { lock := some (a, 9) } }
     s.live = true ∧ s.zcp.lock = some (a, 9) ∧ 9 ≤ s.clock) := by decide +kernel

/-- ControlTransport: eight requests execute and none waits, and then 64 wait. -/
theorem wit_ControlTransport_queue :
    let w (k : Nat) (t : Option Nat) : Waiting :=
      { src := .mfp 3 9, seq := BitVec.ofNat 32 k, op := 2, target := {}, ver2 := true, tag := 0, maxReply := 0, bytes := [], started := t }
    let s (n : Nat) : State := { up with zcp := {
      waiting := ((List.range 8).map fun k => w k (some 1)) ++ (List.range n).map fun k => w (8 + k) none } }
    ∃ u, zcpRow (.planRead req) = some u ∧ ∀ n ∈ [0, 64],
      (s n).live = true ∧ (s n).accepts u.req.src = true ∧ filterAllows (s n).zcp.filter u.req.src = true ∧
      (s n).zcp.inHand u.req.src u.req.seq = none ∧ (s n).zcp.cached u.req.src u.req.seq = none ∧
      (s n).zcp.takes (u.inHand (s n)) = false ∧ ((s n).zcp.waiting.filter fun x => x.started.isNone).length = n := by
  refine ⟨_, rfl, ?_⟩; decide +kernel

/-! ## Host interfaces and queue pairs -/

/-- Parameters of a job of one tile, with a save area in each stack of its die. -/
def params : JobParams := { saveBases := [[2 ^ 30, stackBase 1, stackBase 2, stackBase 3]], imageMoves := 16 }

/-- A loaded job. -/
def job1 : Job := { id := 1, p := params, poolNext := 8 }

/-- Job 1 is loaded, with its first GB of job addresses mapped. -/
def loaded : State := { up with
  jobs := [job1]
  mem := Memory.writeN [] 0 (leBytes 8 (leafBits 0x40000000 true true)) }

/-- A queue pair of job 1, in a state. -/
def qp (st : QpState) : Qp := { qpn := 1, job := 1, p := { timeout := 1, poll := true }, state := st }

/-- Job 1 is loaded, interface 0 has an address, and job 1 has a memory region and a queue pair. -/
def hosted (st : QpState) : State := { loaded with
  host := { ifaces := Vector.replicate 16 { up := true, addrs := (Vector.replicate 8 none).set 0 (some 9) }
            qps := [qp st], mrs := [{ index := 2, job := 1, base := 0, len := 64, rights := 7, gen := 3 }] } }

theorem wit_HostCommands :
    (hostCfgBad { mgmtPort := some 1024, watchdogMs := some 10000, gInv := some 16 } = false ∧
      Meets (.hostConfig req 15 { mgmtPort := some 1024, watchdogMs := some 10000, gInv := some 16 }) up (fun _ => True)) ∧
    Meets (.hostStatus req 15) up (fun _ => True) ∧
    Meets (.mrRegister req 1 0 (2 ^ 48) 7) loaded
      (fun s => s.job 1 = some job1 ∧ s.host.mrs.length < 65536 ∧ 1 ≤ 2 ^ 48 ∧ 0 + 2 ^ 48 ≤ 2 ^ 48 ∧
        (List.range 65536).find? (fun k => !s.host.mrs.any fun m => m.index == k) = some 0) ∧
    Meets (.mrDeregister req 1 0x00020003) (hosted .rts)
      (fun s => s.job 1 = some job1 ∧ s.memRegion 1 0x00020003 =
        some { index := 2, job := 1, base := 0, len := 64, rights := 7, gen := 3 }) ∧
    Meets (.qpCreate req 1 {}) (hosted .rts)
      (fun s => s.job 1 = some job1 ∧ s.qpCheck job1 {} = none ∧ s.host.qps.length < 8192 ∧
        ((List.range 8192).map (· + 1)).find? (fun n => (s.qp n).isNone) = some 2) ∧
    Meets (.qpModify req 1 .rtr (some {})) (hosted .init)
      (fun s => s.qp 1 = some (qp .init) ∧ s.job (qp .init).job = some job1 ∧ qpMoves (qp .init).state .rtr = true ∧
        (some ({} : QpParams)).bind (s.qpCheck job1) = none) ∧
    Meets (.qpDestroy req 1) (hosted .rts) (fun s => s.qp 1 = some (qp .rts)) ∧
    Meets (.qpDoorbell req 1) (hosted .rts) (fun s => s.qp 1 = some (qp .rts)) ∧
    Meets (.qpQuery req 1) (hosted .rts) (fun s => s.qp 1 = some (qp .rts)) := by
  refine ⟨⟨by decide +kernel, ?_⟩, ?_, ?_, ?_, ?_, ?_, ?_, ?_, ?_⟩
  all_goals exact meets rfl rfl (by decide +kernel) (by decide +kernel) (by decide +kernel)

/-! ## Jobs, maps and stacks -/

/-- Another state with one job. -/
def withJob (j : Job) : State := { loaded with jobs := [j] }

theorem wit_JobCommands :
    (jobLoadBad 1 params = none ∧ Meets (.jobLoad req 1 params) up (fun s => s.jobLoadCheck 1 params = none)) ∧
    Meets (.jobStart req 1) loaded (fun s => s.job 1 = some job1 ∧ job1.state = .loaded ∧ job1.startWanted = false) ∧
    Meets (.jobStop req 1) loaded (fun s => s.job 1 = some job1) ∧
    Meets (.jobUnload req 1) loaded (fun s => s.job 1 = some job1 ∧
      (job1.state = .loaded ∨ job1.state = .done ∨ job1.state = .ended)) ∧
    (let j : Job := { job1 with state := .ended }
     Meets (.jobUnload req 1) (withJob j) (fun s => s.job 1 = some j ∧
       (j.state = .loaded ∨ j.state = .done ∨ j.state = .ended))) ∧
    Meets (.jobResume req 1 (.entry 15) (some 0)) loaded (fun s => s.job 1 = some job1 ∧
      (∀ k, ResumeAction.entry 15 = .entry k → k < job1.p.imageMoves) ∧ (∀ t : TileIx, some 0 = some t → jobHas job1.p t.val = true)) ∧
    ((some 7).getD 0 ≤ 7 ∧ Meets (.jobPreempt req 1 true (some 7)) loaded (fun s => s.job 1 = some job1 ∧
      ∀ k ∈ s.jobs, k.id ≠ 1 → groupsOverlap k.p (job1.preempted true (some 7)) = true →
        k.p.priority ≠ (job1.preempted true (some 7)).priority)) ∧
    Meets (.jobStatus req 0) up (fun _ => True) ∧
    Meets (.jobStatus req 1) loaded (fun s => (1 : BitVec 12) ≠ 0 ∧ s.job 1 = some job1) ∧
    Meets (.faultRead req 0 64) up (fun _ => 1 ≤ 64 ∧ 64 ≤ 64) ∧
    Meets (.faultRead req 1 64) loaded (fun s => (1 : BitVec 12) ≠ 0 ∧ s.job 1 = some job1 ∧ 1 ≤ 64 ∧ 64 ≤ 64) ∧
    (let p : Period := { slot := 0 }
     let j : Job := { job1 with period := some p }
     Meets (.periodReportRead req 1 0 64) (withJob j) (fun s => s.job 1 = some j ∧ j.period = some p ∧ 1 ≤ 64 ∧ 64 ≤ 64 ∧
       (match (s.readReports j p 0 64).2 with | .ok b => b == [] | .error _ => false) = true)) ∧
    Meets (.breakArm req 1 true) loaded (fun s => s.job 1 = some job1) := by
  refine ⟨⟨by decide +kernel, ?_⟩, ?_, ?_, ?_, ?_, ?_, ⟨by decide, ?_⟩, ?_, ?_, ?_, ?_, ?_, ?_⟩
  case refine_6 =>
    refine meets rfl rfl (by decide +kernel) (by decide +kernel) ⟨by decide +kernel, ?_, ?_⟩
    · intro k h; cases h; decide
    · intro t h; cases h; decide +kernel
  all_goals exact meets rfl rfl (by decide +kernel) (by decide +kernel) (by decide +kernel)

theorem wit_MapAndStackCommands :
    (mapBad (2 ^ 30) (2 ^ 30) false true = false ∧ ∃ s' next, Meets (.mapRange req 1 0 (2 ^ 30) (2 ^ 30) (2 ^ 30) false true) { loaded with mem := [] }
      (fun s => s.job 1 = some job1 ∧ 2 ^ 30 ≠ 0 ∧ 0 + 2 ^ 30 ≤ job1.p.rootLen * 2 ^ 30 ∧ 0 + 2 ^ 30 ≤ 2 ^ 48 ∧
        0 % 2 ^ 30 = 0 ∧ 2 ^ 30 % 2 ^ 30 = 0 ∧ 2 ^ 30 % 2 ^ 30 = 0 ∧ (∀ e ∈ s.mapEntries job1 0 (2 ^ 30), e.kind ≠ .leaf) ∧
        s.mapPages job1 0 (2 ^ 30) (2 ^ 30) (2 ^ 30) false true = some (s', next) ∧ s.pagesCheck (2 ^ 30) (2 ^ 30) (2 ^ 30) = none)) ∧
    Meets (.mapRange req 1 5 0 0 1 false false) loaded (fun s => s.job 1 = some job1) ∧
    Meets (.unmapRange req 1 0 (2 ^ 30)) loaded (fun s => s.job 1 = some job1 ∧ 2 ^ 30 ≠ 0 ∧ 0 + 2 ^ 30 ≤ job1.p.rootLen * 2 ^ 30 ∧
      0 + 2 ^ 30 ≤ 2 ^ 48 ∧ ∀ e ∈ s.mapEntries job1 0 (2 ^ 30), e.kind = .leaf → e.within 0 (2 ^ 30) = true) ∧
    (true || false) = true ∧ Meets (.protectRange req 1 0 (2 ^ 30) true false) loaded (fun s => s.job 1 = some job1 ∧ 2 ^ 30 ≠ 0 ∧
      0 + 2 ^ 30 ≤ job1.p.rootLen * 2 ^ 30 ∧ 0 + 2 ^ 30 ≤ 2 ^ 48 ∧
      ∀ e ∈ s.mapEntries job1 0 (2 ^ 30), e.kind = .leaf → e.within 0 (2 ^ 30) = true) ∧
    (∃ e, Meets (.mapRead req 1 0x3FFFFFFF) loaded (fun s => s.job 1 = some job1 ∧
      (0x3FFFFFFF : BitVec 48).toNat < job1.p.rootLen * 2 ^ 30 ∧
      (s.mapEntries job1 (0x3FFFFFFF : BitVec 48).toNat 1).find? (fun e => e.kind == .leaf) = some e)) ∧
    Meets (.memFlush req 23 none) up (fun s => s.hbm[(23 : StackIx)].offline = false) ∧
    Meets (.memFlush req 0 (some (0, stackSize))) up (fun s => stackOf 0 = some 0 ∧ 0 % 0x2000000000 + stackSize ≤ stackSize ∧
      s.hbm[(0 : StackIx)].offline = false) ∧
    Meets (.memStatus req 23) up (fun _ => True) := by
  refine ⟨⟨by decide +kernel, ?_⟩, ?_, ?_, rfl, ?_, ?_, ?_, ?_, ?_⟩
  case refine_1 =>
    have h : (({ loaded with mem := [] } : State).mapPages job1 0 (2 ^ 30) (2 ^ 30) (2 ^ 30) false true).isSome = true := by decide +kernel
    obtain ⟨⟨s', next⟩, h⟩ := Option.isSome_iff_exists.1 h
    exact ⟨s', next, meets rfl rfl (by decide +kernel) (by decide +kernel)
      ⟨by decide +kernel, by decide, by decide, by decide, by decide, by decide, by decide, by decide +kernel, h, by decide +kernel⟩⟩
  case refine_5 =>
    refine ⟨⟨0, 1, 0, leafBits 0x40000000 true true, .leaf⟩, meets rfl rfl (by decide +kernel) (by decide +kernel) ?_⟩
    decide +kernel
  all_goals exact meets rfl rfl (by decide +kernel) (by decide +kernel) (by decide +kernel)

/-! ## The fabric, groups, cartridges, and the photonic engine -/

/-- A plan that reserves nothing: plan 1, module 5. -/
def plan : List Byte := [1, 0, 0, 0, 5, 0] ++ List.replicate 826 0

/-- A running module with a plan, whose port 15 is in a state. -/
def port (x : Port) : State := { up with
  fab := { plan := some plan }, ports := (Vector.replicate 16 {}).set 15 x }

/-- A window of job 1 on its first 4,096 bytes, for job 1, with permissions. -/
def window (perm : Nat) : BitVec 256 := BitVec.ofNat 256 (1 + 2 * perm + 2 ^ 20 + 2 ^ 32 + 4096 * 2 ^ 192)

theorem wit_FabricCommands :
    (plan.length = 832 ∧ planBad plan = false ∧ Meets (.planLoad req plan) up (fun _ => True)) ∧
    Meets (.planRead req) up (fun _ => True) ∧
    Meets (.planAccept req 15) (port { state := .held, peer := some {} })
      (fun s => s.ports[(15 : PortIx)].state = .held ∧ s.ports[(15 : PortIx)].peer = some {} ∧ s.fab.plan = some plan) ∧
    (let c : FabCfg := { vcSplit := some ((8192 - 64 * 11) :: List.replicate 11 64), stallNs := some 100, ceThresh := some 255 }
     fabCfgBad c = false ∧ (∀ w, c.vcSplit = some w → splitOk w = true) ∧ Meets (.fabricConfig req none c) up (fun _ => True)) ∧
    Meets (.portStatus req 15) up (fun _ => True) ∧
    Meets (.portRetrain req 15) (port { state := .active }) (fun s => s.ports[(15 : PortIx)].state ≠ .down) ∧
    Meets (.portRetrain req 15) up (fun s => s.ports[(15 : PortIx)].state = .down) ∧
    (let es : List (BitVec 64) := [0x1000000001]
     (∀ e ∈ es, rtFld e 35 1 = 0 ∧ (e.getLsbD 0 = true → rtFld e 41 36 ≠ 0)) ∧ 1 ≤ es.length ∧ es.length ≤ 1024 ∧
       65535 + es.length ≤ 65536 ∧ Meets (.routeWrite req 65535 es) up (fun _ => True)) ∧
    Meets (.routeRead req 64512 1024) up (fun _ => 1 ≤ 1024 ∧ 1024 ≤ 1024 ∧ 64512 + 1024 ≤ 65536) ∧
    (winBad (window 7) = false ∧ Meets (.windowOpen req 16383 (window 7)) loaded
      (fun s => (∀ x ∈ s.fab.windows, x.1 ≠ 16383 ∧ ¬(winJob x.2 = winJob (window 7) ∧
          winWbase x.2 < winWbase (window 7) + winLen (window 7) ∧ winWbase (window 7) < winWbase x.2 + winLen x.2)) ∧
        winWbase (window 7) % 4096 = 0 ∧ winLbase (window 7) % 4096 = 0 ∧ winLen (window 7) % 4096 = 0 ∧ winLen (window 7) ≠ 0 ∧
        winWbase (window 7) + winLen (window 7) ≤ 2 ^ 48 ∧ winLbase (window 7) + winLen (window 7) ≤ 2 ^ 48 ∧
        s.job (winOwner (window 7)) = some job1)) ∧
    16383 ≤ 16383 ∧ Meets (.windowClose req 16383) up (fun _ => True) ∧ Meets (.windowRead req 16383) up (fun _ => True) ∧
    Meets (.fabricCongRead req) up (fun _ => True) ∧
    ((15 ≤ 11 ∨ 15 = 15) ∧ (port { state := .held }).ports[(15 : PortIx)].audit = none ∧ Meets (.audit req 15 15) (port { state := .held })
      (fun s => s.ports[(15 : PortIx)].usable = true ∨ s.ports[(15 : PortIx)].state = .held)) := by
  refine ⟨⟨by decide +kernel, by decide +kernel, ?_⟩, ?_, ?_, ⟨by decide +kernel, ?_, ?_⟩, ?_, ?_, ?_,
    ⟨by simp; decide +kernel, by simp, by simp, by simp, ?_⟩, ?_, ⟨by decide +kernel, ?_⟩, by decide, ?_, ?_, ?_,
    ⟨by decide, by decide +kernel, ?_⟩⟩
  case refine_4 => intro w h; cases h; decide +kernel
  all_goals exact meets rfl rfl (by decide +kernel) (by decide +kernel) (by decide +kernel)

/-- A group of job 1, numbered 2: this module alone, with its window at its first byte. -/
def group2 : GroupRecord := BitVec.ofNat 1024 (2 + 2 ^ 16 + 1 * 2 ^ (8 * 56))

/-- Job 1 has a topology of one module, this one, and a window that lets collectives in. -/
def topo : State := { loaded with
  fab := { plan := some plan, windows := [(3, window 2)] }
  coll := { topos := [{ job := 1, naxes := 1, sizes := [1, 1, 1, 1], fids := [5] }] } }

/-- Group 2 as the module keeps it. -/
def grp : Machine.Group := { id := 2, job := 1, record := group2, rank := 0, fids := [5] }

theorem wit_GroupCommands :
    (topoBad 1 4 [16, 16, 16, 16] = false ∧ 1 ≤ [(5 : BitVec 16)].length ∧ [(5 : BitVec 16)].length ≤ 16384 ∧ (let t : Topo := { job := 1, naxes := 4, sizes := [16, 16, 16, 16], fids := [5] }
     Meets (.topoLoad req 1 4 [16, 16, 16, 16] 0 [5]) loaded
      (fun s => s.job 1 = some job1 ∧ s.topoPart 1 4 [16, 16, 16, 16] 0 [5] = some t ∧
        t.fids.length ≤ [16, 16, 16, 16].foldl (· * ·) 1 ∧ (t.complete = true → (t.fids.filter fun f => s.fid == some f).length = 1) ∧
        ((s.coll.topos.filter fun x => x.job != 1).map Topo.positions).sum + [16, 16, 16, 16].foldl (· * ·) 1 ≤ 262144 ∧
        (0 = 0 → ∀ g ∈ s.coll.groups, g.job ≠ 1)))) ∧
    (groupReserved group2 = false ∧ Meets (.groupDefine req group2) topo
      (fun s => (match s.groupCheck group2 with | .ok p => p == (0, [5]) | .error _ => false) = true)) ∧
    (let s : State := { topo with coll := { groups := [grp] } }
     Meets (.groupDelete req 2) s (fun s => s.group 2 = some grp ∧ ∀ c ∈ s.coll.ctxs, c.group ≠ 2) ∧
     Meets (.groupRead req 2) s (fun s => s.group 2 = some grp) ∧
     1024 ≤ 1024 ∧ Meets (.collStatus req (some 2) 1024) s (fun s => ∀ k, some 2 = some k → s.group k ≠ none)) := by
  refine ⟨⟨by decide, by decide, by decide, ?_⟩, ⟨by decide +kernel, ?_⟩, ?_, ?_, by decide, ?_⟩
  case refine_5 =>
    refine meets rfl rfl (by decide +kernel) (by decide +kernel) ?_
    intro k h; cases h; decide +kernel
  all_goals exact meets rfl rfl (by decide +kernel) (by decide +kernel) (by decide +kernel)

/-- Bay 10 in a state. -/
def bay (st : BayState) : State := { up with bays := (Vector.replicate 11 {}).set 10 { present := true, state := st } }

theorem wit_CartridgeAndPpeCommands :
    Meets (.cartStatus req 10) up (fun _ => True) ∧
    Meets (.cartLedgerRead req 10) (bay .active) (fun s => s.bays[(10 : BayIx)].present = true) ∧
    Meets (.cartDrain req 10) (bay .active) (fun s => s.bays[(10 : BayIx)].present = true ∧ s.bays[(10 : BayIx)].state = .active ∧
      s.spareInRuns 10 = false) ∧
    Meets (.cartDrain req 10) { bay .active with ppe := { state := .switching } }
      (fun s => s.bays[(10 : BayIx)].present = true ∧ s.bays[(10 : BayIx)].state = .active ∧ s.spareInRuns 10 = true) ∧
    Meets (.cartResume req 10) (bay .drained) (fun s => s.bays[(10 : BayIx)].present = true ∧ s.bays[(10 : BayIx)].state = .drained) ∧
    Meets (.cartReauth req 10) (bay .fault) (fun s => s.bays[(10 : BayIx)].present = true ∧
      (s.bays[(10 : BayIx)].state = .authFailed ∨ s.bays[(10 : BayIx)].state = .drained ∨ s.bays[(10 : BayIx)].state = .fault)) ∧
    (let p : SlotParams := { kind := 1, owner := 1 }
     let s : State := { loaded with
       ppe := { state := .ready }
       xlat := (Vector.replicate 7 {}).set 6 { cache := [⟨1, 16, 0, 0x30000000000, true, true, 3⟩] } }
     p.kind ≤ 1 ∧ p.smode ≤ 1 ∧ Meets (.ppeSlotLoad req 7 p) s
       (fun s => (match s.slotCheck 7 p with | .ok x => x == (.seeded 0, List.replicate 128 0) | .error _ => false) = true)) ∧
    Meets (.ppeSlotClear req 7) up (fun s => s.slotPending (7 : SlotIx).val = false) ∧
    Meets (.ppeStatus req none) up (fun _ => True) ∧
    Meets (.ppeCalibrate req) (bay .ramping) (fun s => s.ppeLit = true ∧ s.ppe.state ≠ .calibrating) ∧
    Meets (.ppeCalibrate req) { bay .active with ppe := { state := .calibrating } }
      (fun s => s.ppeLit = true ∧ s.ppe.state = .calibrating) := by
  refine ⟨?_, ?_, ?_, ?_, ?_, ?_, ⟨by decide, by decide, ?_⟩, ?_, ?_, ?_, ?_⟩
  all_goals exact meets rfl rfl (by decide +kernel) (by decide +kernel) (by decide +kernel)

/-! ## Temperature, power, time, debug and security -/

theorem wit_ThermalPowerTimeCommands :
    (statusRegions { kind := 3, index := 23 } = some [119] ∧ Meets (.thermalStatus req { kind := 3, index := 23 }) up (fun _ => True)) ∧
    Meets (.powerStatus req) up (fun _ => True) ∧ Meets (.powerCapSet req 1500 none) up (fun _ => 1500 ≤ 1500 ∧ 1500 ≤ 3600) ∧
    ((∀ k : Fin 6, (Vector.replicate 6 (25 : BitVec 8))[k].toNat ≤ 25) ∧
      Meets (.powerCapSet req 3600 (some (Vector.replicate 6 25))) up (fun _ => 1500 ≤ 3600 ∧ 3600 ≤ 3600)) ∧
    Meets (.timeRead req) up (fun _ => True) ∧ Meets (.timeConfig req .freeRunning none) up (fun _ => True) ∧
    Meets (.timeConfig req .freeRunning (some 5)) up (fun s => s.periodJobs = false) ∧
    (TimeSource.ptp 12 ≠ .freeRunning ∧ up.badSource (.ptp 12) = none ∧
      Meets (.timeConfig req (.ptp 12) none) up (fun s => TimeSource.ptp 12 ≠ s.time.source)) ∧
    (TimeSource.mfp 0xFFFF ≠ .freeRunning ∧ up.badSource (.mfp 0xFFFF) = none ∧
      Meets (.timeConfig req (.mfp 0xFFFF) none) up (fun s => TimeSource.mfp 0xFFFF = s.time.source)) := by
  refine ⟨⟨by decide, ?_⟩, ?_, ?_, ⟨by decide, ?_⟩, ?_, ?_, ?_, ⟨by decide, by decide +kernel, ?_⟩, ⟨by decide, by decide +kernel, ?_⟩⟩
  all_goals exact meets rfl rfl (by decide +kernel) (by decide +kernel) (by decide +kernel)

/-- The ID of `zcp.busy` may be named by a trigger (R505). -/
theorem trigger_ok : ∃ id, id < Config.numCounters ∧ triggerBad { counter := id, cmp := 2, value := 1, index := some 7 } = none ∧
    triggerBad { counter := id, cmp := 3, value := 1, index := some 7 } = none := by
  obtain ⟨id, h1, h2⟩ := named_has_id .zcpBusy 0 0 0 (by decide +kernel) (by decide)
  refine ⟨id, h1, ?_, ?_⟩ <;> simp [triggerBad, idKind, h2, CtrId.kind, h1]

theorem ids_ok (n : Nat) (h : 1 ≤ n) : idsRefuse 21999 n n = none := by
  have := numCounters_eq
  simp only [idsRefuse]
  rw [if_neg, if_neg] <;> simp <;> omega

theorem wit_DebugCommands :
    Meets (.freeze req 3) up (fun _ => True) ∧ Meets (.thaw req none) up (fun s => s.dbg.frozen = false) ∧
    (let s : State := { up with dbg := { frozen := true } }
     Meets (.thaw req (some 160000000000)) s (fun s => s.dbg.frozen = true ∧ ∀ t : BitVec 64, some 160000000000 = some t →
       s.now.toNat ≤ t.toNat ∧ t.toNat ≤ s.now.toNat + 160000000000)) ∧
    (∃ c k, triggerBad c = none ∧ c.cmp < 3 ∧ c.index = some (k : Fin 8).val ∧ Meets (.freezeTrigger req c) up (fun _ => True)) ∧
    (∃ c k, triggerBad c = none ∧ c.cmp = 3 ∧ c.index = some (k : Fin 8).val ∧ Meets (.freezeTrigger req c) up (fun _ => True)) ∧
    (let c : DumpCfg := { base := 0, size := 2 ^ 33, accs := true, sram := true, propagate := some 15, faultMask := some 255 }
     c.propagate.getD 0 ≤ 15 ∧ (c.faultMask.getD 0).toNat < 256 ∧ Meets (.dumpConfig req c) up
       (fun s => s.rangeCheck c.base c.size = none ∧ c.size % 2 ^ 20 = 0 ∧ c.size ≤ 2 ^ 33 ∧ dumpNeeds c.accs c.sram ≤ c.size ∧
        c.base % 2 ^ 20 = 0)) ∧
    (let s : State := { up with
       dbg := { dump := some (0, 2 ^ 30, false, false) }
       hbm := (Vector.replicate 24 {}).set 0 { wcb := [{ line := 2 ^ 24 - 1, mask := BitVec.allOnes 64, first := 0 }] } }
     1 ≤ 1 ∧ 1 ≤ 32768 ∧ 2 ^ 30 - 1 + 1 ≤ 2 ^ 30 ∧ Meets (.dumpRead req (2 ^ 30 - 1) 1) s
       (fun s => s.dbg.dump = some (0, 2 ^ 30, false, false) ∧ (s.dbg.frozen = false ∨ s.scanOver = true) ∧
        (s.checkRead (0 + (2 ^ 30 - 1)) 1).2 = none)) ∧
    (let s : State := { up with dbg := { frozen := true, dump := some (0, 2 ^ 30, false, false) } }
     Meets (.dumpRead req 0 1) s
       (fun s => s.dbg.dump = some (0, 2 ^ 30, false, false) ∧ s.dbg.frozen = true ∧ s.scanOver = false)) ∧
    (idsRefuse 21999 1024 1024 = none ∧ Meets (.counterCatalogue req 21999 1024) up (fun _ => True)) ∧
    (idsRefuse 21999 4096 4096 = none ∧ Meets (.counterRead req 21999 4096) up (fun _ => True)) ∧
    Meets (.counterSnapshot req) up (fun _ => True) ∧
    (let x : Snapshot := { number := 0, time := 0, values := [], logs := [] }
     Meets (.snapshotRead req 21999 4096) { up with dbg := { snapshot := some x } } (fun s => s.dbg.snapshot = some x)) := by
  obtain ⟨id, -, h1, h2⟩ := trigger_ok
  refine ⟨?_, ?_, ?_, ⟨_, 7, h1, by simp, rfl, ?_⟩, ⟨_, 7, h2, rfl, rfl, ?_⟩, ⟨by decide, by decide, ?_⟩,
    ⟨by decide, by decide, by decide, ?_⟩, ?_,
    ⟨ids_ok _ (by decide), ?_⟩, ⟨ids_ok _ (by decide), ?_⟩, ?_, ?_⟩
  case refine_3 =>
    refine meets rfl rfl (by decide +kernel) (by decide +kernel) ⟨by decide +kernel, ?_⟩
    intro t h; cases h; decide +kernel
  all_goals exact meets rfl rfl (by decide +kernel) (by decide +kernel) (by decide +kernel)

theorem wit_SecurityCommands :
    ((List.replicate 32 (0 : Byte)).length = 32 ∧ [21999].length ≤ 256 ∧ (∀ k ∈ [21999], k < Config.numCounters) ∧
      Meets (.attest req (List.replicate 32 0) [21999]) up (fun _ => True)) ∧
    Meets (.certRead req) up (fun _ => True) ∧ Meets (.measureRead req) up (fun _ => True) ∧ Meets (.fwStatus req) up (fun _ => True) ∧
    Meets (.fwWrite req 0 (List.replicate 32768 1)) up
      (fun s => (0 = 0 ∨ 0 = (s.flash.bank (!s.boot.running)).ptr ∧ (s.flash.bank (!s.boot.running)).manufactured = false) ∧
        List.replicate 32768 (1 : Byte) ≠ [] ∧ (List.replicate 32768 (1 : Byte)).length ≤ 32768 ∧
        0 + (List.replicate 32768 (1 : Byte)).length ≤ 117440512) ∧
    Meets (.fwVerify req) up (fun _ => True) ∧
    Meets (.fwActivate req) { up with flash := { sel := true } }
      (fun s => (s.flash.bank (!s.boot.running)).state = .verified ∧ s.flash.sel = !s.boot.running) ∧
    Meets (.fwActivate req) up (fun s => (s.flash.bank (!s.boot.running)).state = .verified ∧ s.flash.sel = s.boot.running) ∧
    (Meets (.moduleRestart req) up (fun _ => True) ∧ up.boot.restart = false) := by
  refine ⟨⟨by decide, by decide, ?_, ?_⟩, ?_, ?_, ?_, ?_, ?_, ?_, ?_, ?_, by decide⟩
  case refine_1 => have := numCounters_eq; simp; omega
  all_goals exact meets rfl rfl (by decide +kernel) (by decide +kernel) (by decide +kernel)

/-! ## Moves -/

/-- A move by its fields: lowest bit and value. -/
def word (fs : List (Nat × Nat)) : MoveWord := BitVec.ofNat 256 (fs.map fun f => f.2 * 2 ^ f.1).sum

/-- A job on every tile of die C0. -/
def wide : JobParams := { params with nrows := 16, ncols := 32 }

/-- Job 1 runs. -/
def running (p : JobParams) : Job := { job1 with p := p, state := .running }

/-- A running module with a fabric identity. -/
def based : State := { up with fab := { plan := some plan } }

/-- Job 1 runs on tile 0, whose program counter stands at a move. -/
def prog (w : MoveWord) (x : Tile := { len := 16 }) (j : Job := running wide) (b : State := based) : State := { b with
  jobs := [j]
  tiles := [(0, { x with job := 1, prepared := true, seq := .running })]
  mem := Memory.writeN [] (sramBase 0 + x.fetchAddr) (leBytes 32 w.toNat) }

/-- The tests of `Fetches`, in Bool. -/
def fetches (s : State) (w : MoveWord) (j : Job) : Bool :=
  s.decodes 0 == some j && s.moveAt 0 == w && s.sramPoison 0 (s.tile 0).fetchAddr 32 == none && !(s.tile 0).full

/-- The tests of `Executes`, and that the program goes on, in Bool. -/
def fits (s : State) (w : MoveWord) (j : Job) : Bool :=
  fetches s w j && ((s.tile 0).pred (Hdr.psel w) == Hdr.pneg w) == false && !(s.tile 0).mustHold w &&
  !(s.tile 0).mustStay w && clear w Hdr.resv && decide (((s.tile 0).advance none).pc < (s.tile 0).len)

theorem fetches_prop {s : State} {w : MoveWord} {j : Job} (h : fetches s w j = true) : Fetches s 0 w j := by
  simp only [fetches, Bool.and_eq_true, beq_iff_eq, Bool.not_eq_true'] at h
  obtain ⟨⟨⟨h1, h2⟩, h3⟩, h4⟩ := h
  exact ⟨h1, h2, h3, h4⟩

theorem fits_prop {s : State} {w : MoveWord} {j : Job} (h : fits s w j = true) : Executes s 0 w j ∧ (s.tile 0).goesOn := by
  simp only [fits, Bool.and_eq_true, beq_iff_eq, Bool.not_eq_true', decide_eq_true_eq] at h
  obtain ⟨⟨⟨⟨⟨h1, h2⟩, h3⟩, h4⟩, h5⟩, h6⟩ := h
  exact ⟨⟨fetches_prop h1, h2, h3, h4, h5⟩, h6⟩

/-- A move that executes on tile 0 and goes on, with what its clause asks besides. -/
def Exec (w : MoveWord) (P : State → Tile → Prop) (x : Tile := { len := 16 }) (j : Job := running wide) (b : State := based) : Prop :=
  Executes (prog w x j b) 0 w j ∧ ((prog w x j b).tile 0).goesOn ∧ P (prog w x j b) ((prog w x j b).tile 0).decoding

theorem fit {w : MoveWord} {P : State → Tile → Prop} {x : Tile} {j : Job} {b : State}
    (h : fits (prog w x j b) w j = true) (hp : P (prog w x j b) ((prog w x j b).tile 0).decoding) : Exec w P x j b :=
  ⟨(fits_prop h).1, (fits_prop h).2, hp⟩

/-- JumpsCallsAndLoops: to the last move; back by one; a loop to it of 2^32 − 1 passes; one of none; a call at depth 7; its
return. -/
theorem wit_JumpsCallsAndLoops :
    (let w := word [(0, 0x01), (32, 15)]
     Exec w fun _ x => Hdr.op w = 0x01 ∧ onlyUses w [(48, 48), (47, 43), (42, 32)] = true ∧ jumpTarget w x = .ok 15) ∧
    (let w := word [(0, 0x02), (32, 2047)]
     Exec w (fun _ x => Hdr.op w = 0x02 ∧ onlyUses w [(42, 32)] = true ∧ (x.pc : Int) + signed 11 (fld w 42 32) = (0 : Nat) ∧ 0 < x.len)
      { len := 16, pc := 1 }) ∧
    (let w := word [(0, 0x04), (32, 15)]
     Exec w (fun _ x => Hdr.op w = 0x04 ∧ onlyUses w [(48, 48), (47, 43), (42, 32)] = true ∧ jumpTarget w x = .ok 15 ∧ x.rets.length < 8)
      { len := 16, rets := [1, 2, 3, 4, 5, 6, 7] }) ∧
    (let w := word [(0, 0x05)]
     Exec w (fun _ x => Hdr.op w = 0x05 ∧ onlyUses w [] = true ∧ x.rets = 15 :: [] ∧ 15 < x.len) { len := 16, rets := [15] }) ∧
    (let w := word [(0, 0x03), (32, 15), (64, 2 ^ 32 - 1)]
     Exec w fun _ x => Hdr.op w = 0x03 ∧ onlyUses w [(95, 64), (48, 48), (47, 43), (42, 32)] = true ∧ x.pc < fld w 42 32 ∧
      fld w 42 32 < x.len ∧ x.loops.length < 4 ∧
      2 ^ 32 - 1 = (if bit w 48 then (x.reg (fld w 47 43)).toNat else fld w 95 64)) ∧
    (let w := word [(0, 0x03), (32, 14)]
     Exec w fun _ x => Hdr.op w = 0x03 ∧ onlyUses w [(95, 64), (48, 48), (47, 43), (42, 32)] = true ∧ x.pc < fld w 42 32 ∧
      fld w 42 32 < x.len ∧ x.loops.length < 4 ∧
      0 = (if bit w 48 then (x.reg (fld w 47 43)).toNat else fld w 95 64) ∧ fld w 42 32 + 1 < x.len) := by
  refine ⟨?_, ?_, ?_, ?_, ?_, ?_⟩ <;> exact fit (by decide +kernel) (by decide +kernel)

/-- A period job on die C0. -/
def periodic : Job := running { wide with periodic := true }

theorem wit_HaltsAndWaits :
    (let w := word [(0, 0x06), (120, 31), (132, 63), (138, 1), (139, 63), (145, 1)]
     Exec w fun _ _ => Hdr.op w = 0x06 ∧ onlyUses w [(145, 145), (144, 139), (138, 138), (137, 132), (131, 120)] = true ∧
       (bit w 138 = true → jobHas wide (fld w 131 120) = true)) ∧
    (let w := word [(0, 0x07), (49, 63), (55, 1), (56, 7), (64, 1), (96, 1)]
     Exec w fun _ x => Hdr.op w = 0x07 ∧
       onlyUses w [(119, 96), (95, 64), (58, 56), (55, 55), (54, 49), (48, 48), (47, 43)] = true ∧
       1 = (if bit w 48 then (x.reg (fld w 47 43)).toNat else fld w 95 64)) ∧
    (let w := word [(0, 0x07)]
     Exec w fun _ x => Hdr.op w = 0x07 ∧
       onlyUses w [(119, 96), (95, 64), (58, 56), (55, 55), (54, 49), (48, 48), (47, 43)] = true ∧
       0 = (if bit w 48 then (x.reg (fld w 47 43)).toNat else fld w 95 64)) ∧
    (let w := word [(0, 0x08), (59, 1), (64, 255)]
     Exec w (fun _ _ => Hdr.op w = 0x08 ∧ onlyUses w [(71, 64), (59, 59)] = true ∧ periodic.p.periodic = true) { len := 16 } periodic) ∧
    (let w := word [(0, 0x09)]; Exec w fun _ _ => Hdr.op w = 0x09 ∧ onlyUses w [] = true) ∧
    (let w := word [(0, 0x45)]; Exec w fun _ _ => Hdr.op w = 0x45 ∧ clear w [(255, 32)] = true) := by
  refine ⟨?_, ?_, ?_, ?_, ?_, ?_⟩ <;> exact fit (by decide +kernel) (by decide +kernel)

theorem wit_YieldStopsForPreemption :
    let w := word [(0, 0x09)]
    let j : Job := { running wide with preempt := some true }
    let s : State := { prog w with jobs := [j] }
    s.holder 0 = some j ∧ j.preempt ≠ none ∧ s.decodes 0 true = some j ∧ s.moveAt 0 = w ∧
      s.sramPoison 0 (s.tile 0).fetchAddr 32 = none ∧ (s.tile 0).full = false ∧ Hdr.op w = 0x09 ∧
      ((s.tile 0).pred (Hdr.psel w) == Hdr.pneg w) = false ∧ (s.tile 0).mustHold w = false ∧ clear w Hdr.resv = true ∧
      onlyUses w [] = true := by decide +kernel

/-- ScalarMoves: each function at an edge, immediate operands, and the last bytes of tile SRAM. -/
theorem wit_ScalarMoves :
    (let w := word [(0, 0x10), (32, 31), (47, 1), (48, 0x01), (96, 1)]
     Exec w fun _ x => clear w scalarResv = true ∧ Hdr.op w = 0x10 ∧ fld w 55 48 ≠ 0x0D ∧ fld w 55 48 ≠ 0x0E ∧
       saluFn (fld w 55 48) (x.reg (fld w 41 37)) (operand2 w x) = some 0xFFFFFFFFFFFFFFFF) ∧
    (let w := word [(0, 0x10), (48, 0x0D), (65, 63)]; Exec w fun _ _ => clear w scalarResv = true ∧ Hdr.op w = 0x10 ∧ fld w 55 48 = 0x0D) ∧
    (let w := word [(0, 0x10), (48, 0x0E), (65, 63)]; Exec w fun _ _ => clear w scalarResv = true ∧ Hdr.op w = 0x10 ∧ fld w 55 48 = 0x0E) ∧
    (let w := word [(0, 0x11), (56, 7), (48, 0x02), (47, 1), (96, 1)]
     Exec w fun _ x => clear w scalarResv = true ∧ Hdr.op w = 0x11 ∧
       scmpFn (fld w 55 48) (x.reg (fld w 41 37)) (operand2 w x) (x.pred (fld w 61 59)) (x.pred (fld w 64 62)) = some true) ∧
    (let w := word [(0, 0x12), (32, 31), (96, 2 ^ 64 - 1)]; Exec w fun _ _ => clear w scalarResv = true ∧ Hdr.op w = 0x12) ∧
    (let w := word [(0, 0x13), (32, 31), (71, 3), (73, 1), (160, sramSize - 8)]
     Exec w fun s x => clear w scalarResv = true ∧ Hdr.op w = 0x13 ∧ scalarAddr w x = .ok (sramSize - 8, 8) ∧
       s.sramPoison 0 (sramSize - 8) 8 = none) ∧
    (let w := word [(0, 0x14), (71, 0), (160, sramSize - 1)]
     Exec w fun _ x => clear w scalarResv = true ∧ Hdr.op w = 0x14 ∧ scalarAddr w x = .ok (sramSize - 1, 1)) ∧
    (let w := word [(0, 0x15), (32, 31), (48, 0x09)]
     Exec w fun s x => clear w scalarResv = true ∧ Hdr.op w = 0x15 ∧ sreadFn (s.decoded 0) 0 (running wide) x w = some 0) := by
  refine ⟨?_, ?_, ?_, ?_, ?_, ?_, ?_, ?_⟩ <;> exact fit (by decide +kernel) (by decide +kernel)

/-- RegisterMovesFrame: the same moves answer next states and count no tally. -/
theorem wit_RegisterMovesFrame :
    (let w := word [(0, 0x10), (32, 31), (47, 1), (48, 0x01), (96, 1)]
     (Exec w fun _ x => clear w scalarResv = true ∧ Hdr.dten w = false ∧ Hdr.op w = 0x10 ∧
       saluFn (fld w 55 48) (x.reg (fld w 41 37)) (operand2 w x) = some 0xFFFFFFFFFFFFFFFF) ∧ ∃ t, exec (.salu 0 w) (prog w) = .next t) ∧
    (let w := word [(0, 0x12), (32, 31)]
     (Exec w fun _ _ => clear w scalarResv = true ∧ Hdr.dten w = false ∧ Hdr.op w = 0x12) ∧ ∃ t, exec (.sldi 0 w) (prog w) = .next t) ∧
    (let w := word [(0, 0x13), (71, 3), (160, sramSize - 8)]
     (Exec w fun s x => clear w scalarResv = true ∧ Hdr.dten w = false ∧ Hdr.op w = 0x13 ∧ scalarAddr w x = .ok (sramSize - 8, 8) ∧
       s.sramPoison 0 (sramSize - 8) 8 = none) ∧ ∃ t, exec (.sld 0 w) (prog w) = .next t) ∧
    (let w := word [(0, 0x15), (48, 0x09)]
     (Exec w fun s x => clear w scalarResv = true ∧ Hdr.dten w = false ∧ Hdr.op w = 0x15 ∧
       sreadFn (s.decoded 0) 0 (running wide) x w = some 0) ∧ ∃ t, exec (.sread 0 w) (prog w) = .next t) ∧
    (let w := word [(0, 0x11), (48, 0x02), (47, 1), (96, 1)]
     (Exec w fun _ x => clear w scalarResv = true ∧ Hdr.dten w = false ∧ Hdr.op w = 0x11 ∧
       scmpFn (fld w 55 48) (x.reg (fld w 41 37)) (operand2 w x) (x.pred (fld w 61 59)) (x.pred (fld w 64 62)) = some true) ∧
      ∃ t, exec (.scmp 0 w) (prog w) = .next t) := by
  refine ⟨⟨?_, _, rfl⟩, ⟨?_, _, rfl⟩, ⟨?_, _, rfl⟩, ⟨?_, _, rfl⟩, ⟨?_, _, rfl⟩⟩ <;> exact fit (by decide +kernel) (by decide +kernel)

/-- SequencerMovesMemoryFrame: a YIELD, and an SST to the first byte of tile SRAM with a byte beside it. -/
theorem wit_SequencerMovesMemoryFrame :
    (let w := word [(0, 0x09)]
     moveTile (.yield_ 0 w) = some 0 ∧ Instr.opcode (.yield_ 0 w) = some (0x09, w) ∧ ∃ t, exec (.yield_ 0 w) (prog w) = .next t) ∧
    (let w := word [(0, 0x14)]
     moveTile (.sst 0 w) = some 0 ∧ Instr.opcode (.sst 0 w) = some (0x14, w) ∧ (∃ t, exec (.sst 0 w) (prog w) = .next t) ∧
       ∀ b n, scalarAddr w ((prog w).tile 0).decoding = .ok (b, n) → sramBase 0 + 1 < sramBase 0 + b ∨ sramBase 0 + b + n ≤ sramBase 0 + 1) := by
  refine ⟨⟨rfl, rfl, _, rfl⟩, rfl, rfl, ⟨_, rfl⟩, ?_⟩
  have h : scalarAddr (word [(0, 0x14)]) ((prog (word [(0, 0x14)])).tile 0).decoding = .ok (0, 1) := by decide +kernel
  intro b n hb
  rw [h] at hb
  cases hb
  right; decide

/-- The map cache of die C0 holds the first page of job 1, in the SRAM of tile 16. -/
def cached : State := { based with
  xlat := (Vector.replicate 7 {}).set 0 { cache := [⟨1, 16, 0, sramBase 16, true, true, 3⟩] } }

/-- MarksTracesAndBreaks: the three kinds of mark; a trace record with and without a ring; a break armed and not. -/
theorem wit_MarksTracesAndBreaks :
    (let w := word [(0, 0x60)]
     Exec w (fun _ _ => Hdr.op w = 0x60 ∧ clear w [(255, 95)] = true ∧ periodic.p.periodic = true ∧ fld w 33 32 = 0) { len := 16 } periodic) ∧
    (let w := word [(0, 0x60), (32, 1)]
     Exec w (fun s x => Hdr.op w = 0x60 ∧ clear w [(255, 95)] = true ∧ periodic.p.periodic = true ∧ fld w 33 32 = 1 ∧
       (jobRef w 42).addr x.regs % 8 = 0 ∧ (jobRef w 42).addr x.regs < 2 ^ 48 ∧
       ((s.decoded 0).writeJob (unitOfTile 0) periodic ((jobRef w 42).addr x.regs)
         (leBytes 8 ((s.decoded 0).epoch periodic).toNat) false true).2 = none) { len := 16 } periodic cached) ∧
    (let w := word [(0, 0x60), (32, 2)]
     Exec w (fun _ _ => Hdr.op w = 0x60 ∧ clear w [(255, 95)] = true ∧ periodic.p.periodic = true ∧ fld w 33 32 = 2) { len := 16 } periodic) ∧
    (let w := word [(0, 0x70), (32, 5)]
     Exec w fun _ _ => Hdr.op w = 0x70 ∧ clear w [(255, 53)] = true ∧ (running wide).p.traceLen = 0) ∧
    (let w := word [(0, 0x70), (32, 5)]
     let j := running { wide with traceLen := 4096 }
     Exec w (fun s x =>
       let u := (s.decoded 0).writeJob 0 j (j.p.traceBase.toNat + 64 + 32 * (j.traceCount % ((j.p.traceLen - 64) / 32)))
         (leBytes 2 (fld w 47 32) ++ leBytes 2 0 ++ leBytes 2 x.pc ++ [0, 0] ++ leBytes 8 (x.reg (fld w 52 48)).toNat ++
           leBytes 8 s.now.toNat ++ leBytes 8 ((s.decoded 0).stepCount 0)) false true
       Hdr.op w = 0x70 ∧ clear w [(255, 53)] = true ∧ j.p.traceLen ≠ 0 ∧ u.2 = none ∧
         (u.1.writeJob 0 j j.p.traceBase.toNat (leBytes 8 (j.traceCount + 1)) false true).2 = none) { len := 16 } j cached) ∧
    (let w := word [(0, 0x71), (32, 5)]
     Exec w fun _ _ => Hdr.op w = 0x71 ∧ clear w [(255, 48)] = true ∧ (running wide).breaks = false) ∧
    (let w := word [(0, 0x71), (32, 5)]
     let j : Job := { running wide with breaks := true }
     Exec w (fun _ _ => Hdr.op w = 0x71 ∧ clear w [(255, 48)] = true ∧ j.breaks = true) { len := 16 } j) := by
  refine ⟨?_, ?_, ?_, ?_, ?_, ?_, ?_⟩ <;> exact fit (by decide +kernel) (by decide +kernel)

/-- ArrayMoves: the largest counts, and the tiles at the edges that CASTLE may take. -/
theorem wit_ArrayMoves :
    (let w := word [(0, 0x20), (32, 4), (35, 3), (41, 32), (48, 32)]
     Exec w fun _ x => Hdr.op w = 0x20 ∧ loadChecks 0 w x = none) ∧
    (let w := word [(0, 0x21), (32, 4), (35, 3), (39, 3), (84, 2048), (97, 2048)]
     Exec w fun _ x => Hdr.op w = 0x21 ∧ passChecks 0 w x = none) ∧
    (let w := word [(0, 0x22), (35, 3), (39, 3), (55, 1024)]
     Exec w fun s x => Hdr.op w = 0x22 ∧ (s.decoded 0).splitChecks 0 w x = none) ∧
    (let w := word [(0, 0x23), (44, 2048), (57, 3)]; Exec w fun s x => Hdr.op w = 0x23 ∧ (s.decoded 0).drainChecks 0 w x = none) ∧
    (let w := word [(0, 0x24), (44, 2048), (57, 3)]
     Exec w fun _ x => Hdr.op w = 0x24 ∧ onlyUses w [(58, 57), (56, 44), (43, 32)] = true ∧ accRange w (x.pairView 0) = true) ∧
    (let w := word [(0, 0x25), (32, 1)]
     Exec w fun s x => Hdr.op w = 0x25 ∧ (s.decoded 0).castleChecks 0 w (running wide) x = none) ∧
    (let w := word [(0, 0x26)]; Exec w fun _ _ => Hdr.op w = 0x26 ∧ clear w [(255, 32)] = true) := by
  refine ⟨?_, ?_, ?_, ?_, ?_, ?_, ?_⟩ <;> exact fit (by decide +kernel) (by decide +kernel)

/-- VectorAndCopyMoves: a copy within a format, one to AX96, and one of no bytes. -/
theorem wit_VectorAndCopyMoves :
    (let w := word [(0, 0x30), (32, 8), (36, 16384), (51, 1), (65, 3), (69, 3)]; Exec w fun _ x => Hdr.op w = 0x30 ∧ mvChecks w x = none) ∧
    (let w := word [(0, 0x38), (32, 0x20), (44, 1), (64, 64)]
     Exec w fun _ x => Hdr.op w = 0x38 ∧ vopChecks w (vopSpec w x.regs) = none) ∧
    (let w := word [(0, 0x39), (38, 4096)]; Exec w fun _ x => Hdr.op w = 0x39 ∧ reduceChecks w x = none) ∧
    (let w := word [(0, 0x40), (96, 1048576)]
     Exec w fun _ x => Hdr.op w = 0x40 ∧ copyChecks w (copySpec w x.regs) wide = none ∧
       ((copySpec w x.regs).converts && (copySpec w x.regs).df == .ax96) = false) ∧
    (let w := word [(0, 0x40), (40, 13)]
     Exec w fun _ x => Hdr.op w = 0x40 ∧ copyChecks w (copySpec w x.regs) wide = none ∧ (copySpec w x.regs).len = 0) ∧
    (let w := word [(0, 0x40), (40, 13), (96, 64)]
     Exec w fun _ x => Hdr.op w = 0x40 ∧ copyChecks w (copySpec w x.regs) wide = none ∧
       ((copySpec w x.regs).converts && (copySpec w x.regs).df == .ax96) = true ∧ (copySpec w x.regs).len ≠ 0) := by
  refine ⟨?_, ?_, ?_, ?_, ?_, ?_⟩ <;> exact fit (by decide +kernel) (by decide +kernel)

/-- A running module whose slot 7 job 1 owns, and whose group 2 is job 1's. -/
def engines : State := { based with
  ppe := { state := .ready, slots := (Vector.replicate 8 {}).set 7 { loaded := true, owner := 1 } }
  coll := { groups := [grp] } }

/-- FabricProjectAndCollectiveMoves: each move; a collective of no elements, one whose context stands, and one whose does
not. -/
theorem wit_FabricProjectAndCollectiveMoves :
    (let w := word [(0, 0x41), (96, 2 ^ 20)]
     Exec w fun s x => (s.decoded 0).fabChecks w (fabSpec w x.regs) (running wide) = none ∧ Hdr.op w = 0x41) ∧
    (let w := word [(0, 0x42), (96, 2 ^ 20)]
     Exec w fun s x => (s.decoded 0).fabChecks w (fabSpec w x.regs) (running wide) = none ∧ Hdr.op w = 0x42) ∧
    (let w := word [(0, 0x43)]
     Exec w fun s x => (s.decoded 0).fabChecks w (fabSpec w x.regs) (running wide) = none ∧ Hdr.op w = 0x43) ∧
    (let w := word [(0, 0x44), (49, 1), (57, 511), (96, 1)]
     Exec w fun s x => (s.decoded 0).fabChecks w (fabSpec w x.regs) (running wide) = none ∧ Hdr.op w = 0x44) ∧
    (let w := word [(0, 0x50), (32, 7), (35, 1), (39, 1)]
     Exec w (fun s x => Hdr.op w = 0x50 ∧ (s.decoded 0).projectChecks w (projectSpec w x.regs) (running wide) = none)
       { len := 16 } (running wide) engines) ∧
    (let w := word [(0, 0x58), (32, 2)]
     let i (s : State) (x : Tile) := issueOf w 0 x.nextId ((s.decoded 0).epoch (running wide))
     Exec w (fun s x => Hdr.op w = 0x58 ∧ (s.decoded 0).collChecks w (i s x) (running wide) = none ∧ (i s x).count = 0)
       { len := 16 } (running wide) engines) ∧
    (let w := word [(0, 0x58), (32, 2), (128, 1)]
     let i (s : State) (x : Tile) := issueOf w 0 x.nextId ((s.decoded 0).epoch (running wide))
     let y : Ctx := { group := 2, seq := 0, job := 1, reserve := true }
     let e (s : State) (x : Tile) := ((s.decoded 0).enqueue 0 w (running wide) x).bump .collIssued
     Exec w (fun s x => Hdr.op w = 0x58 ∧ (s.decoded 0).collChecks w (i s x) (running wide) = none ∧ (i s x).count ≠ 0 ∧
       (e s x).ctx 2 0 = some y) { len := 16 } (running wide) { engines with coll := { groups := [grp], ctxs := [y] } } ∧
     Exec w (fun s x => Hdr.op w = 0x58 ∧ (s.decoded 0).collChecks w (i s x) (running wide) = none ∧ (i s x).count ≠ 0 ∧
       (e s x).ctx 2 0 = none) { len := 16 } (running wide) engines) := by
  refine ⟨?_, ?_, ?_, ?_, ?_, ?_, ?_, ?_⟩ <;> exact fit (by decide +kernel) (by decide +kernel)

/-- SkippedMoves: a move predicated on p1, which is 0, and a reserved opcode so predicated. -/
theorem wit_SkippedMoves :
    (let w := word [(0, 0x10), (8, 1)]
     let s := prog w
     moveTile (.salu 0 w) = some 0 ∧ Instr.opcode (.salu 0 w) = some (0x10, w) ∧ (Instr.salu 0 w).wellFormed = true ∧
       Fetches s 0 w (running wide) ∧ ((s.tile 0).pred (Hdr.psel w) == Hdr.pneg w) = true ∧ (s.tile 0).goesOn) ∧
    (let w := word [(0, 0xFF), (8, 1)]
     let s := prog w
     Fetches s 0 w (running wide) ∧ ((s.tile 0).pred (Hdr.psel w) == Hdr.pneg w) = true ∧ unitOf (Hdr.op w) = none) := by
  refine ⟨⟨rfl, rfl, by decide +kernel, fetches_prop (by decide +kernel), by decide +kernel, ?_⟩,
    fetches_prop (by decide +kernel), by decide +kernel, by decide +kernel⟩
  show _ < _; decide +kernel

/-- HeldMoves: a full queue of 256, a move that waits for its unit, and a HALT that waits for the queue to empty. -/
theorem wit_HeldMoves :
    let w := word [(0, 0x10), (18, 1)]
    let q : QMove := { id := 0, w := word [(0, 0x24)], pc := 0, regs := Vector.replicate 32 0 }
    moveTile (.salu 0 w) = some 0 ∧ Instr.opcode (.salu 0 w) = some (0x10, w) ∧ (Instr.salu 0 w).wellFormed = true ∧
    (let s := prog w { len := 16, queue := List.replicate 256 q }
     s.decodes 0 = some (running wide) ∧ s.moveAt 0 = w ∧ s.sramPoison 0 (s.tile 0).fetchAddr 32 = none ∧ (s.tile 0).full = true) ∧
    (let s := prog w { len := 16, queue := [q] }
     s.decodes 0 = some (running wide) ∧ s.moveAt 0 = w ∧ s.sramPoison 0 (s.tile 0).fetchAddr 32 = none ∧
       (s.tile 0).full = false ∧ ((s.tile 0).pred (Hdr.psel w) == Hdr.pneg w) = false ∧ (s.tile 0).mustHold w = true) ∧
    (let w := word [(0, 0x06)]
     let s := prog w { len := 16, queue := [q] }
     moveTile (.halt 0 w) = some 0 ∧ Instr.opcode (.halt 0 w) = some (0x06, w) ∧ (Instr.halt 0 w).wellFormed = true ∧
       s.decodes 0 = some (running wide) ∧ s.moveAt 0 = w ∧ s.sramPoison 0 (s.tile 0).fetchAddr 32 = none ∧ (s.tile 0).full = false ∧
       ((s.tile 0).pred (Hdr.psel w) == Hdr.pneg w) = false ∧ (s.tile 0).mustHold w = false ∧ (s.tile 0).mustStay w = true) := by
  refine ⟨rfl, rfl, ?_⟩; decide +kernel

/-- RefusedMoves: a reserved bit of the header, a poisoned move, and a reserved opcode. -/
theorem wit_RefusedMoves :
    (let w := word [(0, 0x10), (31, 1)]
     let s := prog w
     moveTile (.salu 0 w) = some 0 ∧ Instr.opcode (.salu 0 w) = some (0x10, w) ∧ (Instr.salu 0 w).wellFormed = true ∧
       Fetches s 0 w (running wide) ∧ ((s.tile 0).pred (Hdr.psel w) == Hdr.pneg w) = false ∧ (s.tile 0).mustHold w = false ∧
       (s.tile 0).mustStay w = false ∧ clear w Hdr.resv = false) ∧
    (let w := word [(0, 0x10)]
     let s : State := { prog w with poisonWords := [sramBase 0 / 8 + 3] }
     moveTile (.salu 0 w) = some 0 ∧ Instr.opcode (.salu 0 w) = some (0x10, w) ∧ (Instr.salu 0 w).wellFormed = true ∧
       s.decodes 0 = some (running wide) ∧ s.moveAt 0 = w ∧ s.sramPoison 0 (s.tile 0).fetchAddr 32 = some (sramBase 0 + 24)) ∧
    (let w := word [(0, 0x0A)]
     let s := prog w
     Fetches s 0 w (running wide) ∧ unitOf (Hdr.op w) = none ∧ (s.tile 0).mustHold w = false) := by
  refine ⟨⟨rfl, rfl, by decide +kernel, fetches_prop (by decide +kernel), by decide +kernel, by decide +kernel, by decide +kernel,
    by decide +kernel⟩, ⟨rfl, rfl, ?_⟩, fetches_prop (by decide +kernel), ?_⟩
  all_goals decide +kernel

/-! ## Events of tiles, stacks and jobs -/

/-- A running module where job 1 runs and tile 0 is in a state. -/
def tileIn (x : Tile) (m : List Host.Cell := []) : State := { based with
  jobs := [running wide], tiles := [(0, { x with job := 1, prepared := true })], mem := m }

/-- A decoded move by its word. -/
def mv (w : MoveWord) (st : QState := .queued) (id : Nat := 0) : QMove := { id := id, w := w, pc := 0, regs := Vector.replicate 32 0, state := st }

/-- A PASS of one row of E4M3 of a full operand, in A16 or in the mode of `extra`. -/
def pass1 (extra : List (Nat × Nat)) : MoveWord := word ([(0, 0x21), (32, 4), (35, 3), (39, 3), (84, 1), (97, 1)] ++ extra)

/-- An operand of one element, 448 in E4M3. -/
def load1 : Load := { fmt := .e4m3, blk := 0, kv := 1, nv := 1, elems := [[0x7E]], scales := [] }

/-- Tile 0 runs a pass over `load1` that streams the byte b. -/
def passing (w : MoveWord) (r : Run) (b : Byte) : State :=
  tileIn { cells := .full load1, queue := [mv w .started], runs := [r] } (Memory.write [] (sramBase 0) b)

theorem someEval {s : State} {t : Nat} {r : Run} {P : Eval → Bool} (h : (s.evalRun t r).any P = true) :
    ∃ e, s.evalRun t r = some e ∧ P e = true := by
  cases he : s.evalRun t r with
  | none => simp [he] at h
  | some e => exact ⟨e, rfl, by simpa [he] using h⟩

theorem someSpec {t : Nat} {x : Tile} {r : Run} {P : PassSpec → Bool} (h : ((runSpec t x r).map Prod.snd).any P = true) :
    ∃ m p, runSpec t x r = some (m, p) ∧ P p = true := by
  cases he : runSpec t x r with
  | none => simp [he] at h
  | some e => exact ⟨e.1, e.2, rfl, by simpa [he] using h⟩

/-- The descriptor of a split whose quadrant 0 streams one row of a 1 × 1 operand into one row. -/
def desc1 : List Byte := [0x81, 0, 0, 0, 1, 0, 0, 0, 0, 0x10] ++ List.replicate 118 0

/-- ArrayEvents: a load at the head that starts, and one that has. -/
theorem wit_ArrayEvents_load :
    let w := word [(0, 0x20), (35, 3), (41, 1), (48, 1)]
    ∀ m ∈ [mv w, mv w .started],
      let s := tileIn { queue := [m] }
      (s.tile 0).front .array = some m ∧ Hdr.op m.w = 0x20 ∧
        (m.state = .started ∧ s.tileRuns 0 = true ∧ s.unitJob 0 ≠ none ∨ m.state = .queued ∧ s.mayStart 0 = true) ∧
        (s.tile 0).pair = none ∧ (s.tile 0).queue = [m] ∧ s.loadPoison 0 0 (Fmt.e4m3.bytes 16) 0 .e4m3 0 16 1 1 = none := by
  simp only [List.mem_cons, List.not_mem_nil, or_false, forall_eq_or_imp, forall_eq]
  refine ⟨⟨by decide +kernel, by decide +kernel, .inr (by decide +kernel), by decide +kernel, by decide +kernel, by decide +kernel⟩,
    by decide +kernel, by decide +kernel, .inl (by decide +kernel), by decide +kernel, by decide +kernel, by decide +kernel⟩

/-- ArrayEvents: a pass that wants a granule of its ring, of which one is there. -/
theorem wit_ArrayEvents_ring :
    let r : Run := { id := 0 }
    let x : Tile := { cells := .full load1, queue := [mv (pass1 [(51, 1)]) .started], runs := [r], tallies := Vector.replicate 64 1 }
    let s := tileIn x
    s.tileRuns 0 = true ∧ s.unitJob 0 ≠ none ∧ (s.tile 0).runs = [r] ∧ s.poisonWords = [] ∧
      (s.tile 0).queue = [mv (pass1 [(51, 1)]) .started] ∧ bit (pass1 [(51, 1)]) 70 = false ∧
      ((s.tile 0).tallies.toArray[fld (pass1 [(51, 1)]) 61 56]?).getD 0 ≠ 0 ∧
      ∃ m p, runSpec 0 (s.tile 0) r = some (m, p) ∧ (p.ring.isSome && decide (r.taken < p.granules.length)) = true := by
  refine ⟨by decide +kernel, by decide +kernel, by decide +kernel, by decide +kernel, by decide +kernel, by decide +kernel,
    by decide +kernel, someSpec (by decide +kernel)⟩

/-- ArrayEvents: a pass and a split of one quadrant whose turn has come. -/
theorem wit_ArrayEvents_start :
    (let m := mv (pass1 [])
     let s := tileIn { cells := .full load1, queue := [m] }
     s.tileRuns 0 = true ∧ s.unitJob 0 ≠ none ∧ s.mayStart 0 = true ∧ (s.tile 0).runs = [] ∧ (s.tile 0).nextArray = some m ∧
       ((s.tile 0).queue.find? fun m => m.unit == .array && m.state == .queued) = some m ∧ Hdr.op m.w = 0x21 ∧
       m.attempts = [] ∧ (s.tile 0).move m.id = some m ∧
       ((passSpec 0 (s.tile 0) m).any fun p => (s.tile 0).cells.load p.shape == some load1 && load1.fmt == p.fmtT &&
         load1.blk == p.blkT && s.startCheck p load1.nv == none) = true) ∧
    (let m : QMove := { mv (word [(0, 0x22), (35, 3), (39, 3)]) with desc := desc1, quads := [3, 2, 2, 2] }
     let s := tileIn { queue := [m] }
     s.tileRuns 0 = true ∧ s.unitJob 0 ≠ none ∧ s.mayStart 0 = true ∧ (s.tile 0).runs = [] ∧ (s.tile 0).nextArray = some m ∧
       ((s.tile 0).queue.find? fun m => m.unit == .array && m.state == .queued) = some m ∧ Hdr.op m.w = 0x22 ∧
       m.attempts = [] ∧ (s.tile 0).queue = [m] ∧
       ((splitSpec 0 m 0).any fun p => s.startCheck p (recFld m.desc 0 13 7) == none &&
         s.loadPoison 0 (recFld m.desc 0 115 96) (p.fmtT.bytes 16) (recFld m.desc 0 135 116) p.fmtT p.blkT 16
           (recFld m.desc 0 6 0) (recFld m.desc 0 13 7) == none) = true) := by
  decide +kernel

/-- ArrayEvents: an A16 attempt that overflows at its first row; a pass and a quadrant that commit. -/
theorem wit_ArrayEvents_end :
    (let r : Run := { id := 0 }
     let s := passing (pass1 [(47, 1)]) r 0x7E
     s.tileRuns 0 = true ∧ s.unitJob 0 = some (running wide) ∧ (running wide).preempt = none ∧ (s.tile 0).runOf none = some r ∧
       r.attempt < 3 ∧ ∃ e, s.evalRun 0 r = some e ∧ (overflowRow e.out == some 0 && s.streamPoison e.p e.l.kv == none) = true) ∧
    (let r : Run := { id := 0 }
     let s := passing (pass1 []) r 0x7E
     s.tileRuns 0 = true ∧ s.unitJob 0 ≠ none ∧ (s.tile 0).runs = [r] ∧ r.quad = none ∧ (s.tile 0).queue = [mv (pass1 []) .started] ∧
       ∃ e, s.evalRun 0 r = some e ∧ s.mayCommit 0 r e = true) ∧
    (let r : Run := { id := 0, quad := some 0, load := some load1 }
     let m : QMove := { mv (word [(0, 0x22), (35, 3), (39, 3)]) .started with desc := desc1, quads := [3, 2, 2, 2] }
     let s := tileIn { queue := [m], runs := [r] } (Memory.write [] (sramBase 0) 0x7E)
     s.tileRuns 0 = true ∧ s.unitJob 0 ≠ none ∧ (s.tile 0).runs = [r] ∧ ((s.tile 0).runs.find? fun r => r.quad == some 0) = some r ∧
       (s.tile 0).queue = [m] ∧ (m.quads.set 0 0).all (· != 3) = true ∧ ∃ e, s.evalRun 0 r = some e ∧ s.mayCommit 0 r e = true) := by
  refine ⟨⟨by decide +kernel, by decide +kernel, by decide +kernel, by decide +kernel, by decide, someEval (by decide +kernel)⟩,
    ⟨by decide +kernel, by decide +kernel, by decide +kernel, rfl, by decide +kernel, someEval (by decide +kernel)⟩,
    by decide +kernel, by decide +kernel, by decide +kernel, by decide +kernel, by decide +kernel, by decide, someEval (by decide +kernel)⟩

/-- ArrayEvents: a pass whose operand fails its parity, or whose handshake fails; an AX pass at its third attempt whose
scale lies 126 places above its ceiling; a split that has no run in the quadrant that fails. -/
theorem wit_ArrayEvents_fault :
    (let r : Run := { id := 0 }
     let s := passing (pass1 []) r 0
     s.tileRuns 0 = true ∧ s.unitJob 0 ≠ none ∧ (s.tile 0).runs = [r] ∧ (s.tile 0).queue = [mv (pass1 []) .started] ∧ r.quad = none ∧
       (((s.tile 0).hit 0 0 false).any fun y => y.1 == r && !y.2.2.ovw && y.2.1 == mv (pass1 []) .started) = true) ∧
    (let r : Run := { id := 0, attempt := 3 }
     let l : Load := { load1 with blk := 2, scales := [[127]] }
     let x : Tile := { cells := .full l, queue := [mv (pass1 [(43, 2), (45, 2), (48, 1)]) .started], runs := [r] }
     let s := tileIn x (Memory.write [] (sramBase 0) 0x7E)
     s.tileRuns 0 = true ∧ s.unitJob 0 ≠ none ∧ ((s.tile 0).hit 0 0 false).isSome = true ∧
       ∃ e, s.evalRun 0 r = some e ∧ (e.p.mode == .ax && overflowRow e.out == some 0) = true) ∧
    (let m := mv (word [(0, 0x22)]) .started
     let s := tileIn { queue := [m] }
     s.tileRuns 0 = true ∧ s.unitJob 0 ≠ none ∧ (s.tile 0).runOf (some 3) = none ∧ m ∈ (s.tile 0).queue ∧ Hdr.op m.w = 0x22 ∧
       m.state = .started) := by
  refine ⟨by decide +kernel, ⟨by decide +kernel, by decide +kernel, by decide +kernel, someEval (by decide +kernel)⟩, by decide +kernel⟩

/-- A period job that runs. -/
def perJob (p : Period) : Job := { running { params with periodic := true, lend := true } with period := some p }

theorem wit_MoveEvents :
    (let m := mv (word [(0, 0x10)]) .done
     let s := tileIn { queue := [m] }
     s.tileRuns 0 = true ∧ ((s.kickAll 0).tile 0).move 0 = some m ∧ (s.kickAll 0).unitJob 0 = some (running wide) ∧ m.state = .done ∧
       ((s.kickAll 0).tile 0).finishing = false ∧ lateValue m = none ∧ Hdr.dten m.w = false ∧ (s.kickAll 0).outstanding 1 0 m.id = 0) ∧
    (let m := mv (word [(0, 0x40), (96, 64)])
     let s := tileIn { queue := [m] }
     let c := copySpec m.w m.regs
     s.mayStart 0 = true ∧ (s.tile 0).move 0 = some m ∧ s.unitJob 0 = some (running wide) ∧ Hdr.op m.w = 0x40 ∧
       (s.tile 0).copyRuns m = true ∧ (running wide).p.periodic = false ∧ c.sf = c.df ∧ c.sk = 0 ∧ c.dk = 0 ∧ c.wrap = 0 ∧ c.aten = false ∧
       s.sramPoison 0 (c.src + 256 * m.done) (min 256 (c.len - 256 * m.done)) = none) ∧
    (let j : Job := { job1 with p := { params with root := sramBase 16 } }
     let s : State := { up with jobs := [j], mem := Memory.writeN [] (sramBase 16) (leBytes 8 (leafBits 0x40000000 true true)) }
     s.working = true ∧ s.job 1 = some j ∧
      (∀ e ∈ s.xlat[(6 : Fin 7)].cache, e.job = 1 → e.page ≠ (0 : BitVec 48).toNat / 2 ^ e.size) ∧
      ((s.bump .xlatMisses 6).doWalk 6 j (0 : BitVec 48).toNat).2 = .leaf 30 0x40000000 true true 1) ∧
    (let f : Suspend := { status := .notMapped, addr := 0 }
     let m := mv (word [(0, 0x40)]) (.suspended f)
     let j : Job := running { wide with policy := 1 }
     let s : State := { tileIn { queue := [m] } with jobs := [j], time := { work := 1000000 } }
     s.working = true ∧ s.jobs.find? (s.heldTooLong 0 0) = some j ∧ s.job j.id = some j ∧ j.state ≠ .ended) ∧
    (let s := tileIn { seq := .parked, wtal := 63, tallies := (Vector.replicate 64 0).set 63 1 }
     s.holder 0 = some (running wide) ∧ s.tileRuns 0 = true ∧ (s.tile 0).seq = .parked ∧ (s.tile 0).castle = .none ∧
       1 ≤ (((s.tile 0).tallies.toArray[(s.tile 0).wtal]?).getD 0).toNat) ∧
    (let s := tileIn { seq := .waiting, wait := .tally 63 1 false 7 none, tallies := (Vector.replicate 64 0).set 63 1 }
     s.holder 0 = some (running wide) ∧ s.tileRuns 0 = true ∧ (s.tile 0).seq = .waiting ∧
       (s.tile 0).wait = .tally 63 1 false 7 none ∧ 1 ≤ (((s.tile 0).tallies.toArray[63]?).getD 0).toNat) ∧
    (let s := tileIn { seq := .waiting, wait := .fence }
     s.holder 0 = some (running wide) ∧ s.tileRuns 0 = true ∧ (s.tile 0).seq = .waiting ∧ (s.tile 0).wait = .fence ∧
       (s.tile 0).late = [] ∧ (s.tile 0).queue = []) ∧
    (let s := tileIn { seq := .waiting, wait := .tally 63 1 false 7 (some 0) }
     s.holder 0 = some (running wide) ∧ s.tileRuns 0 = true ∧ (s.tile 0).seq = .waiting ∧
       (s.tile 0).wait = .tally 63 1 false 7 (some 0) ∧ 0 ≤ s.time.work ∧
       (((s.tile 0).tallies.toArray[63]?).getD 0).toNat < 1) := by
  decide +kernel

theorem wit_StackEvents :
    (up.board.rails = true ∧ up.hbm[(23 : StackIx)].offline = false ∧
      ∀ c, ((0 : Nat), c) ∈ up.hbm[(23 : StackIx)].lastRefresh → c + up.refreshNs 23 ≤ up.clock) ∧
    (let s : State := { up with hbm := (Vector.replicate 24 {}).set 23 { writeback := [5], badRows := [(3, 4)] } }
     s.board.rails = true ∧ s.hbm[(23 : StackIx)].offline = false ∧ 5 ∈ s.hbm[(23 : StackIx)].writeback ∧
       (3, 4) ∈ s.hbm[(23 : StackIx)].badRows ∧ s.sparesUsed 23 3 < 4 ∧
       4 ≤ ({ s with flash := { repair := List.replicate 4 (23, 3, 9) } } : State).sparesUsed 23 3) := by
  refine ⟨⟨by decide +kernel, by decide +kernel, ?_⟩, by decide +kernel⟩
  intro c h
  have hn : up.hbm[(23 : StackIx)].lastRefresh = [] := by decide +kernel
  rw [hn] at h; cases h

/-- A state where a job of one tile runs, and its tile is in a state. -/
def onTile (j : Job) (x : Tile) (b : State := based) : State := { b with
  jobs := [j], tiles := [(0, { x with job := 1, prepared := true })] }

/-- JobAndPeriodEvents: a tile that is prepared from an image in a mapped page; jobs that are saved and restored. -/
theorem wit_JobAndPeriodEvents_tiles :
    (let j : Job := { running wide with preparing := [0] }
     let s : State := { cached with jobs := [j] }
     s.working = true ∧ (s.jobs.find? fun j => j.state == .running && j.preparing.contains (0 : TileIx).val) = some j ∧ s.tileRuns 0 = true ∧
       (match (((s.partAny 0).zeroSram 0).readJob (unitOfTile 0) j j.p.image.toNat (32 * j.p.imageMoves)).2 with
        | .ok bs => bs.length == 512
        | .error _ => false) = true) ∧
    (let j : Job := { running params with preempt := some true }
     let s : State := { based with jobs := [j] }
     s.working = true ∧ s.job 1 = some j ∧ j.state = .running ∧ j.preempt ≠ none ∧ s.fallDue j = false ∧ s.unitsStopped j = true ∧
       j.saving = false) ∧
    (let j : Job := { running params with saving := true }
     let s : State := { based with jobs := [j] }
     s.job 1 = some j ∧ j.state = .running ∧ j.saving = true ∧ s.fallDue j = false ∧ s.unitsStopped j = true) ∧
    (let j : Job := { job1 with state := .preempted, restoring := true }
     let s : State := { based with jobs := [j] }
     s.working = true ∧ s.job 1 = some j ∧ j.restoring = true) := by
  decide +kernel

/-- JobAndPeriodEvents: each event of a period at the moment it is due, with the work done and not done. -/
theorem wit_JobAndPeriodEvents_periods :
    (let p : Period := { slot := 0, started := true }
     let s := onTile (perJob p) {}
     s.working = true ∧ s.job 1 = some (perJob p) ∧ (perJob p).period = some p ∧ (perJob p).scheduled = true ∧ p.n = p.fallen ∧
       startT (perJob p).p (p.n + 1) ≤ s.globalT ∧ (perJob p).state = .running) ∧
    (∀ st ∈ [SeqState.halted, SeqState.running],
      let p : Period := { slot := 0, started := true, n := 0 }
      let s : State := onTile (perJob p) { seq := st } { based with time := { global := 16 * 10000 } }
      s.job 1 = some (perJob p) ∧ (perJob p).scheduled = true ∧ p.n ≠ p.fallen ∧ p.checkRun = false ∧ checkT (perJob p).p p.n ≤ s.globalT ∧
        fallT (perJob p).p p.n ≤ s.globalT ∧
        (s.modPeriod 1 fun q => { q with checkRun := true }).workComplete (perJob p) = (st == .halted)) ∧
    (let p : Period := { slot := 0, started := true, n := 9 }
     let j := perJob p
     let s := onTile j { seq := .halted }
     s.job 1 = some j ∧ j.period = some p ∧ j.scheduled = true ∧ p.n ≠ p.fallen ∧ j.p.lend = true ∧ j.state = .running ∧ j.preempt = none ∧
       j.saving = false ∧ s.fallDue j = false ∧ j.preparing = [] ∧ s.workComplete j = true ∧ s.globalT + 800000 ≤ reclaimAt j.p p.n) ∧
    (let p : Period := { slot := 0, started := true }
     let j : Job := { perJob p with state := .idle }
     let s : State := { based with jobs := [j] }
     s.job 1 = some j ∧ j.period = some p ∧ j.scheduled = true ∧ j.state = .idle ∧ j.startWanted = false ∧ j.restoring = false ∧
       p.reclaimT ≤ s.globalT) := by
  simp only [List.mem_cons, List.not_mem_nil, or_false, forall_eq_or_imp, forall_eq]
  decide +kernel

/-- JobAndPeriodEvents: a flag fall of a period whose work is done, which leaves the job its period. -/
theorem wit_JobAndPeriodEvents_fall :
    let p : Period := { slot := 0, started := true, n := 0 }
    let j := perJob p
    let s : State := onTile j { seq := .halted } { based with time := { global := 16 * 10000 } }
    s.working = true ∧ s.job 1 = some j ∧ j.scheduled = true ∧ p.n ≠ p.fallen ∧ fallT j.p p.n ≤ s.globalT ∧ s.workComplete j = true ∧
      j.p.staleWords = [] ∧ j.saved = [] ∧
      (let a := ((s.bump .periodFlagFalls p.slot).bump .periodLate p.slot 0 0).fallTiles j
       let b := ((a.1.modJob 1 fun b => { b with held := [] }).bump .periodMovesDiscarded p.slot 0 a.2).modPeriod 1 fun q =>
         { q with movesDiscarded := q.movesDiscarded + a.2 }
       let c := b.dropPpe fun e => e.job == j.id
       let u := ((c.bump .ppeFlagFallDropped 0 0 (b.batchesLeft fun e => e.job == 1)).bump .collFlagFallDiscarded 0 0
         (c.coll.ctxs.filter fun c => c.job == 1).length).dropJobCtxs 1
       ((u.job 1).bind Job.period).isSome = true) := by
  decide +kernel

/-! ## The endpoint, the router and the links -/

/-- A running module, FID 5, with fabric state and port 15 in a state. -/
def fabric (f : Fabric) (x : Port := { state := .active }) : State := { up with
  fab := { f with plan := some plan }, ports := (Vector.replicate 16 {}).set 15 x, time := { work := 10000000 }, clock := 10000000 }

/-- A request to this module. -/
def request (op : BitVec 4) : Request := { dst := 5, src := 6, cls := 0, job := 1, op := op, seq := 0, len := 4, waddr := 0 }

/-- Job 1 runs, a window lets all of its requests in on its first page, which the hub has in its map cache, and one GET or
ATOMIC of tile 0 awaits its answer. -/
def reach (w : MoveWord := word [(0, 0x42), (96, 4)]) : State := { fabric {
    windows := [(3, window 7)], ort := [{ seq := 3, q := request 1, owner := .move 1 0 0 0, first := 0, last := 0 }] } with
  jobs := [running wide], tiles := [(0, { job := 1, prepared := true, queue := [mv w .started] }), (16, { job := 1, prepared := true })]
  xlat := (Vector.replicate 7 {}).set 6 { cache := [⟨1, 16, 0, sramBase 16, true, true, 3⟩] } }

/-- A request of 4 bytes at address 0 is admitted. -/
theorem reach_admits (op : BitVec 4) (q : Request) (hq : q = { request op with payload := if op = 1 then [] else [1, 2, 3, 4] })
    (h : reqLegal q = true ∧ reach.winCheck q = .ok (window 7) (running wide) ∧ reach.atomicsHeld = false) :
    reach.Admits q (window 7) (running wide) := by
  subst hq
  have hd : reach.fab.dedup = [] := by decide +kernel
  exact ⟨h.1, fun hc => absurd hc (by show ¬ (0 : BitVec 4).toNat = 3; decide), by rw [hd]; simp, h.2.1,
    fun ho => absurd ho (by show ¬ false = true; decide), by rw [hd]; decide, fun _ => h.2.2⟩

/-- EndpointMessages: a request of each kind that is heard. -/
theorem wit_EndpointMessages :
    (let s := fabric {}
     s.working = true ∧ s.hears (some 15) = true ∧ s.hears none = true ∧
       ∀ op ∈ [0, 1, 2, 3], s.fid = some (request op).dst ∧ (request op).op = op) ∧
    (List.replicate 256 (0 : Byte)).length = 256 := by decide +kernel

/-- EndpointMessages: a request of each kind that is admitted, maps and is read. -/
theorem wit_EndpointMessages_requests : ∀ op ∈ [(0 : BitVec 4), 1, 2, 3],
    ∃ q, q = { request op with payload := if op = 1 then [] else [1, 2, 3, 4] } ∧ reach.working = true ∧ reach.hears (some 15) = true ∧
      reach.fid = some q.dst ∧ reach.Admits q (window 7) (running wide) ∧ reach.isCollData q = false ∧ q.op = op ∧
      (let x := reach.inboundMap (running wide) (winLbase (window 7) + (q.waddr.toNat - winWbase (window 7))) (reqBytes q) (q.op != 0) (q.op != 1)
       (match x.2 with
        | some (.ok ps) => ps.length == 1 && (match (x.1.readPieces ps).2 with | .ok bs => bs.length == reqBytes q | .error _ => false)
        | _ => false) = true) := by
  intro op hop
  refine ⟨_, rfl, ?_⟩
  simp only [List.mem_cons, List.not_mem_nil, or_false] at hop
  rcases hop with rfl | rfl | rfl | rfl <;>
    exact ⟨by decide +kernel, by decide +kernel, by decide +kernel, reach_admits _ _ rfl (by decide +kernel), by decide +kernel,
      by decide +kernel, by decide +kernel⟩

/-- EndpointMessages: the data of a GET to job addresses and to tile SRAM, the answer to an ATOMIC, and the receipt, NAK or
loss of a request. -/
theorem wit_EndpointMessages_answers :
    (∀ lk ∈ [0, 1],
      let w := word [(0, 0x42), (96, 4), (229, lk)]
      let s := reach w
      let e : Ort := { seq := 3, q := request 1, owner := .move 1 0 0 0, first := 0, last := 0 }
      let u := ((if false then s.cutRate e.q.dst else s).retire e).bump .fabOrtReceipted
      let m := mv w .started
      let c := fabSpec m.w m.regs
      s.entry 3 = some e ∧ u.ownerMove e.owner = some m ∧ u.job 1 = some (running wide) ∧ Hdr.op m.w = 0x42 ∧
        u.expired (running wide) m = false ∧ c.op = 0x42 ∧ c.lk = lk ∧
        (lk = 1 → (u.writeJob 6 (running wide) (c.laddr + 256 * 0) ([1, 2, 3, 4].take (min 256 (c.len - 256 * 0)))).2 = none) ∧
        (lk = 0 → (u.sramOf (running wide) 0).isSome = true)) ∧
    (let w := word [(0, 0x43)]
     let s := reach w
     let e : Ort := { seq := 3, q := request 1, owner := .move 1 0 0 0, first := 0, last := 0 }
     s.entry 3 = some e ∧ (((if true then s.cutRate e.q.dst else s).retire e).bump .fabOrtReceipted).ownerMove e.owner = some (mv w .started)) := by
  simp only [List.mem_cons, List.not_mem_nil, or_false, forall_eq_or_imp, forall_eq]
  decide +kernel

/-- TransportTimers: each timer at the moment it is due. -/
theorem wit_TransportTimers :
    (let p : PendRcpt := { src := 6, seqs := [(1, false)], oldest := 9999500 }
     let s := fabric { pend := [p] }
     s.working = true ∧ (s.fab.pend.find? fun p => p.src == 6) = some p ∧ p.seqs ≠ [] ∧ p.oldest + 500 ≤ s.time.work) ∧
    (let e : Ort := { seq := 3, q := request 0, owner := .move 1 0 0 0, first := 0, last := 7500000 }
     let s := fabric { ort := [e] }
     s.entry 3 = some e ∧ e.wait = .none ∧ e.last + s.fab.rto / 4 ≤ s.time.work ∧ e.first + s.fab.rto ≤ s.time.work) ∧
    (let e : Ort := { seq := 3, q := request 0, owner := .move 1 0 0 0, first := 0, last := 0, wait := .backoff 10000000 }
     let s := fabric { ort := [e] }
     s.entry 3 = some e ∧ e.wait = .backoff 10000000 ∧ 10000000 ≤ s.time.work) ∧
    (let p : Peer := { dst := 6, retired := true, rate := 255, lastRaise := 9992000 }
     let s := fabric { peers := [p], lowTimes := [(6, 9998000)] }
     (s.fab.peers.find? fun p => p.dst == 6) = some p ∧ p.retired = true ∧ (∀ x ∈ s.fab.lowTimes, x.1 = 6 → x.2 + 2000 ≤ s.time.work) ∧
       p.rate < 256 ∧ p.lastRaise + 8000 ≤ s.time.work) := by decide +kernel

/-- A route to module 6 by the escape port 15, of four hops. -/
def route6 : BitVec 64 := 1 + 4 * 2 ^ 36 + 15 * 2 ^ 43 + 2 ^ 47

/-- A packet to module 6 leaves the endpoint or port 14 by port 15. -/
theorem wit_leaves : ∀ p ∈ [none, some (14 : PortIx)],
    let k := reqPkt { request 0 with dst := 6, payload := [1, 2, 3, 4] }
    let x : InPkt := { pkt := k, arrived := 10000000 }
    let s : State := { fabric { inject := if p.isNone then [x] else [], routes := [(6, route6)], transit := true } with
      ports := ((Vector.replicate 16 {}).set 15 { state := .active }).set 14 { state := .active, input := if p.isNone then [] else [x] } }
    s.working = true ∧ s.Leaves p 0 x route6 15 1 ∧ s.fronts p 0 = [0] ∧
      (p = none → (s.fab.inject.findIdx? fun x => x.pkt == ⟨0, k.head, k.payload⟩ && x.out.isNone) = some 0) := by
  intro p hp
  simp only [List.mem_cons, List.not_mem_nil, or_false] at hp
  rcases hp with rfl | rfl <;>
    exact ⟨by decide +kernel, ⟨by decide +kernel, by decide +kernel, by decide +kernel, by decide +kernel,
      .inr (by decide +kernel), by decide +kernel, by decide +kernel⟩, by decide +kernel, by decide +kernel⟩

/-- RouterCommands: a port that carries packets, a packet for this module, a CONTROL, a packet at the front of VC 11, credits
and the training that waits for them, and the timers when they are due. -/
theorem wit_RouterCommands :
    (let s := fabric {} { state := .held, freed := (Vector.replicate 12 0).set 0 1, lastCredit := 9999968 }
     s.working = true ∧ s.ports[(15 : PortIx)].state = .held ∧ s.ports[(15 : PortIx)].pastFec = true ∧ s.dbg.accept = true ∧
       s.ports[(15 : PortIx)].freed ≠ s.ports[(15 : PortIx)].freedSent ∧ s.ports[(15 : PortIx)].lastCredit + 32 ≤ s.clock) ∧
    (let k := reqPkt { request 0 with payload := [1, 2, 3, 4] }
     let s := fabric {}
     let x : InPkt := { pkt := k, arrived := s.time.work }
     let u := (s.countRxFlits 15 0 (1 + k.payload.length)).modPort 15 fun y => { y with input := y.input ++ [x] }
     s.ports[(15 : PortIx)].usable = true ∧ s.ports[(15 : PortIx)].input = [] ∧ k.vc = 0 ∧ headFault k = none ∧
       u.marks (some 15) x = false ∧ u.lookup (some 15) x = .deliver) ∧
    (let pkt : List Byte := List.replicate 32 0
     let k := mkPkt { dst := 5, src := 6, ty := 8, cls := 0, len := pkt.length } pkt
     let s := fabric {}
     let x : InPkt := { pkt := k, arrived := s.time.work }
     let u := (s.countRxFlits 15 0 k.flits).modPort 15 fun y => { y with input := y.input ++ [x] }
     32 ≤ pkt.length ∧ pkt.length ≤ 256 ∧ k.vc = 0 ∧ headFault k = none ∧ u.marks (some 15) x = false ∧ u.lookup (some 15) x = .deliver) ∧
    (32 ≤ (List.replicate 256 (0 : Byte)).length ∧ (List.replicate 256 (0 : Byte)).length ≤ 256 ∧ 7 < (255 : BitVec 8).toNat) ∧
    (let s := fabric {} { state := .held, sent := Vector.replicate 12 9, bv := Vector.replicate 12 4 }
     ∀ v : Fin 12, (s.ports[(15 : PortIx)].sent[v] - (Vector.replicate 12 (5 : BitVec 16))[v]).toNat ≤ s.ports[(15 : PortIx)].bv[v].toNat) ∧
    (let s := fabric {} { state := .training, step := 8 }
     s.ports[(15 : PortIx)].state = .training ∧ 8 ≤ s.ports[(15 : PortIx)].step) ∧
    (let q : Request := { request 0 with cls := 3 }
     let x : InPkt := { pkt := ⟨11, (reqPkt q).head, []⟩, arrived := 9998000 }
     let s := fabric {} { state := .active, input := [x], moved := Vector.replicate 12 9998000 }
     s.fronts (some 15) (11 : VcIx).val = [0] ∧ (s.inputOf (some 15))[0]? = some x ∧ x.arrived + s.stall (some 15) ≤ s.time.work ∧
       (headOf x.pkt.head).esc = false ∧ s.movedAt (some 15) 11 + s.stall (some 15) ≤ s.time.work ∧ x.arrived + 1000 ≤ s.time.work ∧
       (headOf x.pkt.head).ty = 1 ∧ (headOf x.pkt.head).ce = false) ∧
    (let s := fabric { collector := some 9, avgClock := 9999936, histClock := 9999936, congClock := 9900000 }
     s.fab.collector = some 9 ∧ s.fab.avgClock + 64 ≤ s.clock ∧ s.fab.histClock + 64 ≤ s.clock ∧ s.fab.congClock + 100000 ≤ s.clock) := by
  decide +kernel

/-- Both directions of a link in service: lanes 0 to 7 carry data, aligned, and lane 8 is in a state. -/
def serving (x : Lane) : PortDir :=
  { lanes := (Vector.replicate 9 { state := .data, markers := 4 }).set 8 x, map := Vector.ofFn fun i => some (i.castLE (by decide)) }

/-- LinkMessages: the timers of a link that awaits a frame. -/
theorem wit_LinkMessages_timers :
    (let s := fabric {} { state := .training, step := 7, retryOut := some { fsn := 0, times := [9998000] }, rxFsn := 1, lastAck := 9999968 }
     s.live = true ∧ s.ports[(15 : PortIx)].pastFec = true ∧ s.ports[(15 : PortIx)].retryOut = some { fsn := 0, times := [9998000] } ∧
       (∀ t : Nat, [9998000].head? = some t → t + 2000 ≤ s.clock) ∧
       (retryNow s.clock s.ports[(15 : PortIx)].rxFsn s.ports[(15 : PortIx)].retryOut).times.length < 16 ∧
       s.ports[(15 : PortIx)].rxFsn ≠ s.ports[(15 : PortIx)].ackSent ∧ s.ports[(15 : PortIx)].lastAck + 32 ≤ s.clock) := by
  refine ⟨by decide +kernel, by decide +kernel, by decide +kernel, ?_, by decide +kernel, by decide +kernel, by decide +kernel⟩
  intro t h; cases h; decide +kernel

/-- LinkMessages: an ACK and a RETRY of what was framed; a SWAP of each kind, its acknowledgement, and a swap that is due. -/
theorem wit_LinkMessages_flits :
    (let x := (fabric {} { state := .active, framed := 5 }).ports[(15 : PortIx)]
     (5 - x.acked).toNat ≤ (x.framed - x.acked).toNat ∧ (retryNow 10000000 4 x.retryIn).times.length < 16 ∧
       (4 - x.acked).toNat < (x.framed - x.acked).toNat) ∧
    (let s := fabric {} { state := .active, rev := 0x11, tx := serving { state := .standby } }
     let m : SwapMsg := { op := 1, slot := 7, from_ := 7, to_ := 8, at_ := 32767 }
     let u := s.modPort 15 fun x => { x with
       tx := { x.tx.setLane 7 .failed with skip := x.tx.skip ||| BitVec.ofNat 8 (2 ^ (7 : BitVec 8).toNat) } }
     s.ports[(15 : PortIx)].usable = true ∧ 0x11 ≤ s.ports[(15 : PortIx)].rev.toNat ∧ m.slot.toNat ≤ 7 ∧ m.op = 1 ∧
       (m.at_ - s.ports[(15 : PortIx)].rxFsn).toNat < 2 ^ 15 ∧ (s.ports[(15 : PortIx)].tx.map.toArray[m.slot.toNat]?).join = some 7 ∧
       (7 : LaneIx).val = m.from_.toNat ∧ s.ports[(15 : PortIx)].tx.skip.getLsbD m.slot.toNat = false ∧
       s.ports[(15 : PortIx)].tx.swap = none ∧ 4 ≤ u.ports[(15 : PortIx)].tx.slots ∧ u.ports[(15 : PortIx)].tx.swap = none) ∧
    (let w : Swap := { slot := 7, from_ := 7, to_ := 8, at_ := 0, acked := true }
     let m : SwapMsg := { op := 1, slot := 7, from_ := 7, to_ := 8, at_ := 0 }
     let s := fabric {} { state := .active, tx := { serving { state := .standby } with swap := some w } }
     let u := s.modPort 15 fun x => x.modDir .tx fun y => y.swapped w
     let u := if w.to_ < 9 then u.bump .fabPortSwaps (15 : PortIx).val else u
     s.ports[(15 : PortIx)].tx.swap = some w ∧ w.slot = m.slot.toNat ∧ w.from_ = m.from_.toNat ∧ w.to_ = m.to_.toNat ∧ w.at_ = m.at_ ∧ m.op = 1 ∧
       (s.ports[(15 : PortIx)].dir .tx).swap = some w ∧ w.acked = true ∧ (s.ports[(15 : PortIx)].nextFsn .tx - w.at_).toNat < 2 ^ 15 ∧
       4 ≤ (u.ports[(15 : PortIx)].dir .tx).slots) := by decide +kernel

/-- The lane block of ten idle flits on lane 0, which carries slot 0: its codeword is all zero under any generator. -/
def idleBlock : LaneBlock :=
  let upper : BitVec 138 := 0x33C#10 ++ 0#16 ++ 0#4 ++ 0#4 ++ 0#8 ++ 0#36 ++ BitVec.ofNat 60 (pack 6 (List.replicate 10 0x3C))
  { data := 0, check := 0, ovh := upper ++ laneCrc (List.replicate 10 0) upper }

/-- LinkMessages: a lane block of the frame that is due, the first of its frame. -/
theorem wit_LinkMessages_block :
    let b := idleBlock
    let s := fabric {} { state := .active, rx := serving { state := .standby } }
    let x := s.ports[(15 : PortIx)]
    let sl := (blockSlice b 0).1
    s.live = true ∧ x.pastFec = true ∧ 4 ≤ x.rx.lanes[(0 : LaneIx)].markers ∧ x.rx.lanes[(0 : LaneIx)].state = .data ∧
      blockMarker b = 0x33C ∧ blockData b = (0, some 0) ∧ blockSlice b 0 = (sl, true) ∧ sl.wave.toNat = (0 : LaneIx).val ∧
      x.rx.slotOf 0 = some sl.slot.toNat ∧ x.rx.swap = none ∧ (sl.flits.any fun f => !tagOk f.1) = false ∧ sl.fsn = x.rxFsn ∧
      x.frameBad = [] ∧ (∀ y ∈ x.frame, y.1 ≠ (0 : LaneIx)) ∧
      (∃ i, i < 8 ∧ sl.skip.getLsbD i = false ∧ i ≠ sl.slot.toNat ∧ ∀ y ∈ x.frame, y.2.slot.toNat ≠ i) := by
  refine ⟨by decide +kernel, by decide +kernel, by decide +kernel, by decide +kernel, by decide +kernel, by decide +kernel,
    by decide +kernel, by decide +kernel, by decide +kernel, by decide +kernel, by decide +kernel, by decide +kernel,
    by decide +kernel, by decide +kernel, 7, by decide, by decide +kernel, by decide +kernel, by decide +kernel⟩

/-- A direction whose lane 8 is in a state. -/
def lane (x : Lane) : PortDir := { lanes := (Vector.replicate 9 {}).set 8 x }

/-- LanesAndTraining: a lane that carries data, a standby lane, and lanes that failed. -/
theorem wit_LanesAndTraining_lanes :
    (∀ st ∈ [LaneState.data, .standby],
      let s := fabric {} { state := .active, rev := 0x11, retryOut := some { fsn := 0, times := [] }, rx := serving { state := st } }
      s.live = true ∧ s.ports[(15 : PortIx)].usable = true ∧ ((s.ports[(15 : PortIx)].dir .rx).lanes[(8 : LaneIx)]).clean = none ∧
        ((s.ports[(15 : PortIx)].dir .rx).lanes[(8 : LaneIx)]).state = st ∧ RingResult.mislock ≠ .verified ∧
        s.ports[(15 : PortIx)].state ≠ .down ∧ s.ports[(15 : PortIx)].audit = none) ∧
    (let s := fabric {} { state := .active, rev := 0x11, retryOut := some { fsn := 0, times := [] }, rx := serving { state := .standby } }
     let u := (s.modPort 15 fun x => { x with rx := x.rx.sweep 7 }).bump .fabPortLaneFailures (15 : PortIx).val (7 : LaneIx).val
     let waves := if LaneCause.lossOfSignal = .lossOfSignal then s.ports[(15 : PortIx)].waves &&& ~~~(BitVec.ofNat 9 (2 ^ 7))
       else s.ports[(15 : PortIx)].waves
     let v := u.modPort 15 fun x => { x with waves := waves, rx := x.rx.setLane 7 .failed }
     0x11 ≤ s.ports[(15 : PortIx)].rev.toNat ∧ s.ports[(15 : PortIx)].rx.lanes[(7 : LaneIx)].state = .data ∧
       s.ports[(15 : PortIx)].rx.slotOf 7 = some 7 ∧ s.ports[(15 : PortIx)].retryOut ≠ none ∧ 4 ≤ v.ports[(15 : PortIx)].rx.carrying) ∧
    (let s := fabric {} { state := .degraded, rx := lane { state := .failed, clean := some 0, sweeps := true } }
     s.ports[(15 : PortIx)].usable = true ∧ ((s.ports[(15 : PortIx)].dir .rx).lanes[(8 : LaneIx)]).state = .failed ∧
       ((s.ports[(15 : PortIx)].dir .rx).lanes[(8 : LaneIx)]).clean = some 0 ∧ 0 + 10000000 ≤ s.clock ∧
       ((s.ports[(15 : PortIx)].dir .rx).lanes[(8 : LaneIx)]).sweeps = true) := by
  simp only [List.mem_cons, List.not_mem_nil, or_false, forall_eq_or_imp, forall_eq]
  decide +kernel

/-- A module whose bay 7 is lit, with port 15 in a state. -/
def fed (x : Port) : State := { fabric {} x with bays := (Vector.replicate 11 {}).set 7 { present := true, state := .active } }

/-- LanesAndTraining: a port at each stage of training. -/
theorem wit_LanesAndTraining_steps :
    (let s := fed {}
     s.live = true ∧ s.ports[(15 : PortIx)].state = .down ∧ 4 ≤ lit (15 : BitVec 9) ∧ s.dbg.frozen = false ∧ s.bays[bayOf 15].state = .active ∧
       s.ports[(15 : PortIx)].cfg.enabled = true ∧ s.planMode 15 ≠ 3 ∧ s.ports[(15 : PortIx)].retryAt ≤ s.clock) ∧
    (let s := fed { state := .training, step := 2, rx := lane { state := .locking } }
     s.ports[(15 : PortIx)].state = .training ∧ s.ports[(15 : PortIx)].step = 2 ∧ s.ports[(15 : PortIx)].state ≠ .down ∧
       ((s.ports[(15 : PortIx)].dir .rx).lanes[(8 : LaneIx)]).state = .locking) ∧
    (let trained : PortDir := { lanes := Vector.replicate 9 { state := .trained } }
     let s := fed { state := .training, step := 3, stepT := 6000000, tx := trained, rx := trained }
     let x := s.ports[(15 : PortIx)]
     let a : BitVec 9 := 0x1FF
     let n (w : BitVec 9) : Nat := ((List.finRange 9).filter fun k => x.rx.lanes[k].state == .trained && w.getLsbD k.val).length
     let slow := chooseRate (n a) (n a) x.cfg.force.val false x.hot
     let u := s.modPort 15 fun x => { x with
       rate100 := slow
       rx := { x.rx with lanes := Vector.ofFn fun k =>
         let l := { x.rx.lanes[k] with pass200 := a.getLsbD k.val, pass100 := a.getLsbD k.val }
         if l.state = .trained && !(if slow then a.getLsbD k.val else a.getLsbD k.val) then { l with state := .failed } else l } }
     x.state = .training ∧ x.step = 3 ∧ x.usable = false ∧ x.audit = none ∧ x.stepT + stepLimit x.step ≤ s.clock ∧
       4 ≤ u.ports[(15 : PortIx)].rx.trained ∧ 4 ≤ u.ports[(15 : PortIx)].tx.trained) ∧
    (let trained : PortDir := { lanes := Vector.replicate 9 { state := .trained } }
     let s := fed { state := .training, step := 4, timeouts := 2, tx := trained, rx := trained }
     let idents : Vector LaneIdent 9 := Vector.ofFn fun k => { wave := BitVec.ofNat 4 k.val, skewNs := 40 }
     let u := (s.modPort 15 fun x => { x with peerStep := 4 }).modPort 15 fun x => { x with roundTrip := 16, rx := x.rx.identified idents }
     s.ports[(15 : PortIx)].state = .training ∧ s.ports[(15 : PortIx)].step = 4 ∧ 2 ≤ s.ports[(15 : PortIx)].timeouts ∧
       4 ≤ u.ports[(15 : PortIx)].rx.trained) ∧
    (let s := fed { state := .down, reason := .revMismatch, waves := 15 }
     s.ports[(15 : PortIx)].reason = .revMismatch ∧ s.mayTrain 15 = true) ∧
    (DownReason.command ≠ .none ∧ DownReason.command ≠ .trainTimeout ∧ DownReason.command ≠ .tooFewLanes) := by decide +kernel

/-- LanesAndTraining: an optical engine that is hot with a link to step down, one that has been cool for 1 s with a link to
step up, and one of neither. -/
theorem wit_LanesAndTraining_heat :
    (let s : State := { fabric {} with therm := thermReset.modify 124 fun r => { r with sensors := List.replicate 4 { reading := 1680 } } }
     let u : State := { s with therm := s.therm.modify 124 fun r => { r with stepped := s.clock } }
     ((s.therm[124]?).getD ({} : ThermRegion)).stepped + 10000000 ≤ s.clock ∧ (u.atThrottle 124 || u.atThrottle 128) = true ∧
       ((enginePorts 0).find? fun p => !u.ports[p].hot && !(u.ports[p].linkUp && u.ports[p].rev == 0x10)).isSome = true) ∧
    (let s : State := { fabric {} with
       clock := 2000000000, ports := Vector.replicate 16 { hot := true }
       therm := (thermReset.modify 124 fun r => { r with coolSince := some 0 }).modify 128 fun r => { r with coolSince := some 0 } }
     let u : State := { s with therm := s.therm.modify 124 fun r => { r with stepped := s.clock } }
     ((s.therm[124]?).getD ({} : ThermRegion)).stepped + 10000000 ≤ s.clock ∧ (u.atThrottle 124 || u.atThrottle 128) = false ∧
       ([124, 128].all fun k => ((u.therm[k]?).map fun r =>
         (r.coolSince.map fun t => decide (t + 1000000000 ≤ s.clock)).getD false).getD true) = true ∧
       ((enginePorts 0).find? fun p => u.ports[p].hot).isSome = true) ∧
    (let s := fabric {}
     let u : State := { s with therm := s.therm.modify 124 fun r => { r with stepped := s.clock } }
     ((s.therm[124]?).getD ({} : ThermRegion)).stepped + 10000000 ≤ s.clock ∧ (u.atThrottle 124 || u.atThrottle 128) = false ∧
       ([124, 128].all fun k => ((u.therm[k]?).map fun r =>
         (r.coolSince.map fun t => decide (t + 1000000000 ≤ s.clock)).getD false).getD true) = false) := by decide +kernel

/-! ## Cartridges, the photonic engine, escrow, hosts, thermal and time events -/

/-- Module on for 10^13 ns with one cartridge, in bay 10. -/
def lit (x : Bay) : State := { up with clock := 1000000000000, bays := (Vector.replicate 11 {}).set 10 { x with present := true } }

/-- An in-use laser, commissioned at 12.00 dBm. -/
def laser : Laser := { state := 2, c := some 1200 }

theorem wit_CartridgeEvents :
    up.live = true ∧ up.board.tap ≠ .extest ∧ up.bays[(10 : BayIx)].present = false ∧
    (let st : BitVec 32 := 0x4
     (lit {}).bays[(10 : BayIx)].present = true ∧ st.getLsbD 3 = false ∧ st.getLsbD 4 = false) ∧
    (let s := lit { state := .authenticating, authT := 999999999999 }
     s.live = true ∧ s.bays[(10 : BayIx)].state = .authenticating ∧ s.clock < s.bays[(10 : BayIx)].authT + 5000000000) ∧
    (let s := lit { state := .authenticating, authT := 995000000000 }
     s.bays[(10 : BayIx)].state = .authenticating ∧ s.bays[(10 : BayIx)].authT + 5000000000 ≤ s.clock) ∧
    (let s := lit { state := .ramping }
     let ls : List LaserReading := List.replicate 2 { d := 1900, bias := 0, biasMax := 0 }
     let rd (j : Fin 9) : LaserReading := (ls[j.val]?).getD { d := 0, bias := 0, biasMax := 0, failed := true }
     s.bays[(10 : BayIx)].state = .ramping ∧
       ∀ j ∈ lasersOf 10, (rd j).failed = false ∧ (bayPower 10).1 ≤ (rd j).d ∧ s.bays[(10 : BayIx)].lasers[j].faded = false) ∧
    (let s := lit { state := .active }
     let ls : List LaserReading := List.replicate 2 { d := 1900, bias := 0, biasMax := 0 }
     let u := s.modBay 10 fun x => { x with
       temp := 25, peakTemp := max x.peakTemp 25
       lasers := Vector.ofFn fun j => match ls[j.val]? with
         | some r => if j.val < bayLasers 10 && !x.lasers[j].failed then x.lasers[j].read r else x.lasers[j]
         | none => x.lasers[j] }
     ∀ j ∈ lasersOf 10, (ls[j.val]?.map LaserReading.failed).getD false = false ∧ u.bays[(10 : BayIx)].lasers[j].samples.length < 100) ∧
    (let s := lit { state := .active, rampEnd := 999000000000, lastCommit := 100000000000
                    lasers := (Vector.replicate 9 {}).set 0 laser }
     s.live = true ∧ s.board.tap ≠ .extest ∧ s.bays[(10 : BayIx)].state = .active ∧ s.bays[(10 : BayIx)].commissioned = false ∧
       s.bays[(10 : BayIx)].rampEnd + 1000000000 ≤ s.clock ∧ (0 : Fin 9).val < bayLasers 10 ∧ s.bays[(10 : BayIx)].lasers[(0 : Fin 9)].state = 2 ∧
       s.bays[(10 : BayIx)].lasers[(0 : Fin 9)].failed = false ∧ s.bays[(10 : BayIx)].lasers[(0 : Fin 9)].c = some 1200 ∧
       (bayPower 10).2.2 < 2001 ∧ (600 ≤ (bayPower 10).2.2 ∧ (600 : Int) ≤ 1200 - 600) ∧
       ((2000 : Int) ≤ (bayPower 10).2.2 ∧ (1200 : Int) - 600 < 2000) ∧
       s.bays[(10 : BayIx)].lastCommit + 900000000000 ≤ s.clock ∧ ∃ j ∈ lasersOf 10, s.bays[(10 : BayIx)].lasers[j].state = 2) ∧
    (let s := lit { state := .draining, drainT := 1000000000000 }
     s.bays[(10 : BayIx)].state = .draining ∧ ∀ p ∈ bayPorts 10, s.portEmpty p = true) ∧
    (let s := lit { state := .draining, drainT := 999999000000 }
     s.bays[(10 : BayIx)].state = .draining ∧ s.bays[(10 : BayIx)].drainT + 1000000 ≤ s.clock) := by
  refine ⟨?_, ?_, ?_, ?_, ?_, ?_, ?_, ?_, ?_, ?_, ?_⟩ <;> decide +kernel

/-- A photonic engine in operation. -/
def ppe (p : Ppe) : State := { up with ppe := p, time := { work := 40000 } }

/-- A PROJECT of 128 vectors of tile SRAM with slot 3, decoded and started, and its entry in the queue. -/
def projecting (p : Ppe) (done : Nat := 0) : State := { tileIn { len := 16, queue := [
    { mv (word [(0, 0x50), (32, 3), (39, 128)]) .started with done := done }] } with
  ppe := { p with state := .ready, slots := (Vector.replicate 8 {}).set 3 { loaded := true, owner := 1 } }
  time := { work := 40000 } }

def entry3 : Project := { job := 1, tile := 0, id := 0, slot := 3, next := 0, total := 128, since := 0 }

theorem wit_PhotonicEngineEvents :
    (let s := ppe { state := .ready }
     s.working = true ∧ s.ppe.reprog = none ∧ s.ppe.state = .ready) ∧
    (let b : Batch := ⟨1, 0, 0, 7, 0, .e4m3, [], 0, 0, 0, false, 0, none⟩
     (ppe { mesh := [b] }).ppe.mesh ≠ []) ∧
    (let s := projecting { active := some 3, queue := [entry3] }
     let m : QMove := { mv (word [(0, 0x50), (32, 3), (39, 128)]) .started with done := 0 }
     s.working = true ∧ s.ppe.reprog = none ∧ s.turnTo = none ∧ s.ppe.active = some 3 ∧
       (s.ppeFront.find? fun e => e.slot == (3 : SlotIx).val) = some entry3 ∧ (s.tile 0).move 0 = some m ∧
       s.job 1 = some (running wide) ∧
       (let c := projectSpec m.w m.regs
        let vs := (List.range (min 64 (entry3.total - entry3.next))).map (entry3.next + ·)
        vs ≠ [] ∧ c.sk = 0 ∧ ∀ v ∈ vs, s.sramPoison 0 (c.src + c.bytes * v) c.bytes = none)) ∧
    (let b : Batch := ⟨1, 0, 0, 3, 64, .e4m3, [List.replicate 64 0x38], 0, 0, 0, false, 0, none⟩
     let s := projecting { mesh := [b] } 64
     let m : QMove := { mv (word [(0, 0x50), (32, 3), (39, 128)]) .started with done := 64 }
     s.working = true ∧ s.ppe.mesh = [b] ∧ s.job b.job = some (running wide) ∧ (running wide).p.periodic = false ∧ b.dk = 0 ∧
       b.rten = false ∧ (s.tile b.tile).job = b.job ∧ (s.tile b.tile).move b.id = some m ∧ m.done = b.first ∧ m.failing = none ∧
       b.first + 1 < (projectSpec m.w m.regs).nvec) ∧
    (let s := projecting { active := some 2, activeSince := 8000, queue := [entry3] }
     s.turnTo = some 3 ∧ s.ppe.reprog = none) ∧
    (let s := ppe { state := .ready, reprog := some (some 3, 38000) }
     s.ppe.reprog = some (some 3, 38000) ∧ 38000 + 2000 ≤ s.time.work) ∧
    (let s := ppe { state := .ready, slots := (Vector.replicate 8 {}).set 5 { loading := some 0 } }
     s.ppe.slots[(5 : SlotIx)].loading ≠ none ∧ s.ppe.state ≠ .calibrating) ∧
    ((ppe { state := .ready }).ppe.state = .ready ∧ 300 ≤ 300) ∧
    ((ppe { state := .calibrating }).ppe.state = .calibrating ∧ ([1, 2, 3, 4] : List (Fin 128)).length ≤ 4) ∧
    (let s : State := { ppe { state := .ready } with bays := (Vector.replicate 11 {}).set 10 { state := .active } }
     s.ppe.state = .ready ∧ s.ppe.onSpare = false ∧ s.bays[(10 : BayIx)].lasers[(1 : Fin 9)].failed = false ∧
       s.bays[(10 : BayIx)].state = .active) ∧
    (ppe { state := .switching }).ppe.state = .switching := by
  refine ⟨?_, ?_, ?_, ?_, ?_, ?_, ?_, ?_, ?_, ?_, ?_⟩ <;> decide +kernel

/-- Group 2 with the shortest escrow times, and a context of its sequence 4 with a share at port 15. -/
def issue0 : Issue :=
  { tile := 0, id := 0, epoch := 0, op := 0, dtype := 0, policy := 0, rop := 0, ctal := 0, cten := false, root := 0,
    count := 1, src := 0, dst := 0 }

def share (st : ShareState) (got : List (Nat × List Byte) := []) : Share :=
  { port := 15, lo := 0, hi := 4, state := st, first := 0, slots := 1, held := st == .granted, got := got }

def coll (x : Ctx) (b : EscBook := {}) : State :=
  { fabric {} with coll := { groups := [grp], ctxs := [x], books := (Vector.replicate 16 {}).set 15 b }, time := { work := 100000000000000 } }

def ctx (y : Share) : Ctx := { group := 2, seq := 4, job := 1, reserve := false, issue := some issue0, shares := [y] }

/-- EscrowEvents: an operation that is complete, and one of which nothing has come. -/
theorem wit_EscrowEvents :
    (let x : Ctx := { group := 2, seq := 4, job := 1, reserve := false, issue := some issue0, written := true }
     let s := coll x
     s.working = true ∧ s.ctx 2 4 = some x ∧ x.issue = some issue0 ∧ x.written = true ∧ x.held = false ∧ x.out = [] ∧
       s.collLive 2 4 = false ∧ (∀ y ∈ x.shares, y.held = false) ∧ x.nondet = false ∧ issue0.cten = false) ∧
    (let x : Ctx := { group := 2, seq := 4, job := 1, reserve := false, issue := some issue0 }
     let j := running { wide with policy := 0 }
     let s : State := { coll x with jobs := [j] }
     s.working = true ∧ s.ctx 2 4 = some x ∧ s.group 2 = some grp ∧ x.issue = some issue0 ∧ s.job x.job = some j ∧ j.p.policy ≠ 2 ∧
       x.shares = [] ∧ x.held = false ∧ x.written = false ∧ x.last + grp.ctimeout ≤ s.time.work ∧ s.partOf j issue0.tile = none) := by
  refine ⟨?_, ?_⟩ <;> decide +kernel

/-- EscrowEvents: a share in each state. -/
theorem wit_EscrowEvents_shares :
    (let y := share .requested
     let x := ctx y
     let s := coll x
     s.working = true ∧ s.ports[(15 : PortIx)].usable = true ∧ s.escShare 15 ⟨1, 2, 4⟩ = some (x, grp, issue0, y) ∧ x.held = false ∧
       y.state = .requested ∧ y.refusals = 0 ∧ issue0.policy = 0 ∧ y.first + grp.escWait ≤ s.time.work ∧
       ceilDiv (y.hi - y.lo) (max 1 (min 32 (ceilDiv (y.hi - y.lo) 4096)) * 4096) ≤ 256 ∧
       1 ≤ (3 : BitVec 8).toNat ∧ (3 : BitVec 8).toNat ≤ 3) ∧
    (let y := share .fallback
     let x := ctx y
     (coll x).escShare 15 ⟨1, 2, 4⟩ = some (x, grp, issue0, y) ∧ y.state = .fallback ∧ y.held = false ∧ 1 ≤ 32 ∧ 32 ≤ 32) ∧
    (let y : Share := { share .granted with hi := 8192, slots := 2 }
     let x := ctx y
     let s := coll x
     let payload : List Byte := List.replicate 4096 0
     let got := (32 * 128, payload) :: y.got
     s.escShare 15 ⟨1, 2, 4⟩ = some (x, grp, issue0, y) ∧ y.state = .granted ∧ y.held = true ∧ y.refusals = 0 ∧
       y.round = (0 : BitVec 16).toNat ∧ (∀ z ∈ y.got, z.1 ≠ 32 * 128) ∧ y.sentAt + grp.escTimeout ≤ s.time.work ∧
       (got.map fun z => z.2.length).sum < ceilDiv (min (y.slots * 4096) (y.hi - (y.lo + y.round * y.slots * 4096))) 32 * 32) ∧
    (let y := share (.backoff 1000)
     let x := ctx y
     let s := coll x
     s.escShare 15 ⟨1, 2, 4⟩ = some (x, grp, issue0, y) ∧ y.state = .backoff 1000 ∧ y.refusals = 0 ∧ issue0.policy = 0 ∧
       1000 ≤ s.time.work ∧ y.first + grp.escWait ≤ s.time.work) ∧
    (let s := coll (ctx (share .done)) { granted := 2, requested := 2, releasing := [(⟨1, 2, 4⟩, 2)] }
     (s.coll.books[(15 : PortIx)].releasing.find? fun z => z.1 == ⟨1, 2, 4⟩) = some (⟨1, 2, 4⟩, 2) ∧
       (∀ z ∈ s.coll.books[(15 : PortIx)].releasing, z.1 ≠ ⟨1, 2, 5⟩) ∧ s.escShare 15 ⟨1, 2, 5⟩ = none) := by
  refine ⟨?_, ?_, ?_, ?_, ?_⟩ <;> decide +kernel

/-- Host port 0 in a state, its bay lit. -/
def ethPort (p : HostPort) (i : Iface := { up := true }) : State := { up with
  clock := 10000000000, bays := (Vector.replicate 11 {}).set 8 { present := true, state := .active }
  host := { ports := (Vector.replicate 4 {}).set 0 p, ifaces := Vector.replicate 16 i } }

/-- HostInterfaceEvents: a frame of each kind. -/
theorem wit_HostInterfaceEvents_frames :
    let s := ethPort {}
    let frame (k : BitVec 16) (h : Option IpHdr) : Frame := { bytes := 64, etherType := k, macOp := 1, ip := h, src := req.src }
    let udp (n : BitVec 16) : Frame := frame 0x0800 (some { proto := 17, dstPort := n })
    let k (f : Frame) : FrameKind := if f.fcsOk && f.bytes ≤ 9216 then frameKind s.host.mgmtPort f else .other
    s.live = true ∧ s.ifaceExists 0 = true ∧ s.host.ifaces[(0 : IfIx)].up = true ∧ s.dbg.frozen = false ∧
    k (frame 0x8808 none) = .pause ∧ k (frame 0x88F7 none) = .ptp ∧ k (frame 0x0806 none) = .control ∧ k (udp 4791) = .roce ∧
      k (udp 29411) = .zcp ∧ frameKind s.host.mgmtPort (udp 9) = .other ∧
      k (frame 0x0800 (some { proto := 17, fragment := true, dstPort := 4791 })) = .fragment := by decide +kernel

theorem wit_HostInterfaceEvents :
    (let s := ethPort { answered := [0] }
     s.live = true ∧ s.ifaceExists 0 = true ∧ s.host.ifaces[(0 : IfIx)].up = true ∧
       (((32 : BitVec 64).toNat : Int) - s.now.toNat).natAbs ≤ 32 ∧ s.host.ifaces[(0 : IfIx)].ipv4 = [] ∧
       (s.host.ports[portOfIf 0].answered.filter fun t => s.clock < t + 1000000000).length < 10000 ∧
       s.host.ports[portOfIf 0].dark = none) ∧
    (let s := ethPort {} {}
     s.host.ifaces[(0 : IfIx)].up = false ∧ s.bays[if (portOfIf 0).val < 2 then (8 : BayIx) else 9].state = .active) ∧
    (let s := ethPort { pfc := [3], paused := (Vector.replicate 8 none).set 3 (some 9899999999) }
     s.host.ports[(0 : HostIx)].pfc ≠ [] ∧ s.host.ports[(0 : HostIx)].paused[(3 : Fin 8)] = some 9899999999 ∧
       9899999999 + 1000000 * s.host.ports[(0 : HostIx)].watchdogMs < s.clock ∧ s.host.ports[(0 : HostIx)].stormed[(3 : Fin 8)] = false) ∧
    (let s := ethPort { pfc := [3] }
     s.host.ports[(0 : HostIx)].pfc = [3] ∧ (8 : BitVec 8).getLsbD (3 : Fin 8).val = true ∧
       s.host.ports[(0 : HostIx)].paused[(3 : Fin 8)] = none ∧ s.host.ports[(0 : HostIx)].stormed[(3 : Fin 8)] = false) := by
  decide +kernel

/-- Queue pair 1 is in RTS at 1 ms, with a request sent at the beginning. -/
def rts (q : Qp) : State := { hosted .rts with time := { work := 1000000 }, host := { (hosted .rts).host with qps := [q] } }

theorem wit_QueuePairEvents :
    (let s := rts (qp .rts)
     let r : RoceReq := { qpn := 1, psn := 0, op := .read, rkey := 0x203, len := 64 }
     s.working = true ∧ s.qp 1 = some (qp .rts) ∧ r.qpn = 1 ∧ s.host.ifaces[(qp .rts).p.iface].up = true ∧
       ((qp .rts).state = .rtr ∨ (qp .rts).state = .rts) ∧
       r.payload.length = (if r.op = .read ∨ r.op = .atomic then 0 else r.len) ∧ (qp .rts).p.poll = true ∧
       64 * (qp .rts).polled + max 256000 (1000 *
         (s.host.qps.filter fun x => x.p.poll && portOfIf x.p.iface == portOfIf (qp .rts).p.iface).length) ≤ 64 * s.time.work ∧
       (qp .rts).lastCnpRx + 50000 ≤ s.time.work) ∧
    (let w : SentWqe := { index := 0, op := .write, signalled := true, psn := 0, psns := 1, len := 0, laddr := 0, raddr := 0
                          rkey := 0, imm := 0, wrid := 0, first := 0, last := 0 }
     let q := { qp .rts with sent := [w] }
     let s := rts q
     s.qp 1 = some q ∧ q.p.timeout ≠ 0 ∧ q.rnrWait = false ∧ q.sent.head? = some w ∧ w.last + 4096 * 2 ^ q.p.timeout.toNat ≤ s.time.work) ∧
    (let w : SentWqe := { index := 0, op := .read, signalled := true, psn := 0, psns := 1, len := 0, laddr := 0, raddr := 0
                          rkey := 0, imm := 0, wrid := 0, first := 0, last := 0 }
     let q := { qp .rts with sent := [w], p := { (qp .rts).p with retry := 7 } }
     let s := rts q
     s.qp 1 = some q ∧ q.p.timeout ≠ 0 ∧ q.rnrWait = false ∧ q.sent = [w] ∧ w.last + 4096 * 2 ^ q.p.timeout.toNat ≤ s.time.work ∧
       q.retries < q.p.retry.toNat ∧ s.job q.job = some job1 ∧ s.host.ifaces[q.p.iface].up = true ∧ s.hostDrains q.p.iface = false ∧
       w.op = .read ∧ 1 ≤ w.psns ∧ w.psns ≤ 2 ^ 23) ∧
    (let w : SentWqe := { index := 0, op := .write, signalled := false, psn := 5, psns := 2, len := 0, laddr := 0, raddr := 0
                          rkey := 0, imm := 0, wrid := 0, first := 0, last := 0, resent := true }
     let q := { qp .rts with sent := [w] }
     (rts q).qp 1 = some q ∧ (rts q).host.ifaces[q.p.iface].up = true ∧ q.sent = [w] ∧ w.resent = true ∧ w.op = .write ∧
       w.signalled = false ∧ ((6 : BitVec 24) - (w.psn + BitVec.ofNat 24 (w.psns - 1))).toNat < 2 ^ 23) ∧
    (let q := { qp .rts with rnrWait := true }
     (rts q).qp 1 = some q ∧ q.state = .rts ∧ q.rnrWait = true) := by decide +kernel

/-- QueuePairEvents: job 1's first page is tile 16's SRAM, which the hub has in its map cache; a write arrives in order, and
the doorbell is polled. -/
def rtsMapped (q : Qp) : State := { rts q with
  jobs := [running wide], tiles := [(16, { job := 1, prepared := true })]
  xlat := (Vector.replicate 7 {}).set 6 { cache := [⟨1, 16, 0, sramBase 16, true, true, 3⟩] } }

theorem wit_QueuePairEvents_memory :
    (let q := qp .rts
     let s := rtsMapped q
     let r : RoceReq := { qpn := 1, psn := 0, op := .write, rkey := 0x00020003, len := 4, payload := [1, 2, 3, 4] }
     s.working = true ∧ s.qp 1 = some q ∧ r.qpn = 1 ∧ s.host.ifaces[q.p.iface].up = true ∧ r.payload.length = r.len ∧ r.ce = false ∧
       r.psn = q.recvPsn ∧ q.beyond = [] ∧ s.job q.job = some (running wide) ∧
       ((s.memRegion q.job r.rkey).map fun m => m.allows r.va.toNat r.len 1) = some true ∧
       (s.hubWrite (running wide) r.va.toNat r.payload).2 = none) ∧
    (let q := qp .rts
     let s := rtsMapped q
     q.p.poll = true ∧ 64 * q.polled + max 256000 (1000 *
       (s.host.qps.filter fun x => x.p.poll && portOfIf x.p.iface == portOfIf q.p.iface).length) ≤ 64 * s.time.work ∧
       s.job q.job = some (running wide) ∧
       ((s.modQp 1 fun q => { q with polled := s.time.work }).hubRead (running wide) q.p.doorbell.toNat 8).2.toBool = true) := by
  refine ⟨?_, ?_⟩ <;> decide +kernel

theorem wit_ThermalAndPowerEvents :
    up.live = true ∧
    (let r : Region := .compute 0 0
     let readings : List (Option Int) := []
     let k := regionIx r
     let s := up
     let v := s.modRegion k fun r => { r with
       sensors := r.sensors.zipIdx.map fun (x, i) => if x.state = .good then x.sample s.clock ((readings[i]?).getD none) else x }
     let u := (List.range (sensorsOf k)).foldl (fun u i =>
       u.judgeSensor k i (((s.region k).sensors[i]?.map Sensor.state).getD .failed) ((readings[i]?).getD none).isSome) v
     u.live = true ∧ u.temp k = some 400 ∧ 400 < (thresholds k).2.2) ∧
    (let s : State := { up with
       clock := 1000000, therm := thermReset.modify 121 fun r => { r with sensors := List.replicate 4 { reading := 1680 } } }
     s.live = true ∧ s.power.hubStepped + 1000000 ≤ s.clock ∧ ((List.range 4).any fun q => s.atThrottle (120 + q)) = true) ∧
    ((List.range 4).any fun q => up.atThrottle (120 + q)) = false ∧ ((List.range 4).any fun q => (up.region (120 + q)).throttled) = false ∧
    (let s : State := { up with clock := 1000000 }
     (s.region (16 * (5 : DieIx).val + (3 : Fin 16).val)).stepped + 1000000 ≤ s.clock ∧ s.power.hubStepped + 1000000 ≤ s.clock ∧
       s.power.sampled + 100000 ≤ s.clock ∧ 1000 * s.power.cap < 1000 * s.power.cap + 1 ∧
       (1000 * s.power.cap ≤ 1000 * s.power.cap ∧ 1000 * s.power.cap < 1000 * s.power.cap + 100000)) ∧
    up.power.volt.toArray[16 * (5 : DieIx).val + (15 : Fin 16).val]? = some 15 ∧ up.power.ocHold = false ∧
    (let s := { up with clock := 100000, power := { ocHold := true } }
     s.live = true ∧ s.power.ocHold = true ∧ s.dbg.frozen = false ∧ s.power.ocSince + 100000 ≤ s.clock) := by decide +kernel

/-- A module whose time source is its fabric port 15. -/
def timed (t : TimeBase) : State := { fabric {} with time := t, clock := 10000000 }

theorem wit_TimeEvents :
    (let s := timed { source := .mfp 0xFFFF, upstream := some 15 }
     s.live = true ∧ s.time.source = .mfp 0xFFFF ∧ s.askPort = some 15 ∧ s.time.asked + 1000000 ≤ s.clock) ∧
    (let s := timed { upstream := some 15, pending := some (15, 9900000, 1600) }
     s.time.pending = some (15, 9900000, 1600) ∧ s.clock ≤ 9900000 + 100000 ∧ s.time.upstream = some 15 ∧
       (((1600 : BitVec 64).toNat : Int) + (s.ports[(15 : PortIx)].roundTrip / 2 : Nat) - (0 : BitVec 64).toNat).natAbs ≤ 1600) ∧
    (let s := timed { source := .mfp 1, pending := some (15, 9900000, 0), miss := 8 }
     s.time.source = .mfp 1 ∧ s.time.pending = some (15, 9900000, 0) ∧ 9900000 + 100000 ≤ s.clock ∧ s.time.miss < 9) ∧
    (let s := timed { source := .mfp 1, pending := some (15, 9900000, 0), miss := 9 }
     s.time.pending = some (15, 9900000, 0) ∧ 9900000 + 100000 ≤ s.clock ∧ 9 ≤ s.time.miss) ∧
    (let s := timed { source := .ptp 7 }
     s.live = true ∧ s.time.source = .ptp 7 ∧ (1600 : Int).natAbs ≤ 1600) := by decide +kernel

/-! ## Ill-formed commands -/

/-- A JUMP, a PASS and a COPY whose words carry another row's opcode. -/
theorem test_another_rows_opcode_is_ill_formed :
    (Instr.jump 0 (word [(0, 0x02)])).wellFormed = false ∧ (Instr.pass 0 (word [(0, 0x22)])).wellFormed = false ∧
    (Instr.copy 0 (word [(0, 0x41)])).wellFormed = false := by decide +kernel

/-- A SALU with the function code of TSET, a TSET with that of TADD, a TADD with that of ADD. -/
theorem test_another_rows_function_is_ill_formed :
    (Instr.salu 0 (word [(0, 0x10), (48, 0x0D)])).wellFormed = false ∧ (Instr.tset 0 (word [(0, 0x10), (48, 0x0E)])).wellFormed = false ∧
    (Instr.tadd 0 (word [(0, 0x10)])).wellFormed = false := by decide +kernel

/-- A reserved opcode that the table lists; and what is well formed. -/
theorem test_listed_opcode_is_not_reserved :
    (Instr.moveReservedOpcode 0 (word [(0, 0x01)])).wellFormed = false ∧ (Instr.moveReservedOpcode 0 (word [(0, 0xFF)])).wellFormed = true ∧
    (Instr.tset 0 (word [(0, 0x10), (48, 0x0D)])).wellFormed = true ∧ (Instr.moduleRestart req).wellFormed = true := by decide +kernel

/-! ## The worked examples of spec/ -/

/-- C3:07.19 and its tile SRAM (00, "Numbers and notation"). -/
theorem test_tile_number : 3 * 512 + (7 * 32 + 19) = 1779 ∧ sramBase 1779 = 0x3006F300000 ∧ tileOf 0x3006F300000 = some 1779 ∧
    TileIx.die 1779 = 3 ∧ TileIx.row 1779 = 7 ∧ TileIx.col 1779 = 19 := by decide +kernel

/-- 0x1A5_3C4E_9F40 read by C2 (07): stack M13 of C3, pseudo-channel 37, three links anticlockwise. -/
theorem test_physical_address : stackOf 0x1A53C4E9F40 = some 13 ∧ pseudoChannel 0x1A53C4E9F40 = 37 ∧ dieOf 0x1A53C4E9F40 = some 3 ∧
    (ringPath 2 3 0x1A53C4E9F40).1.length = 3 ∧ (ringPath 2 3 0x1A53C4E9F40).2 = false := by decide +kernel

/-- 13.0, −4.9, 1.3 and 0.26 to E2M1 in a block (03): scale code 0x80, codes 7, C, 1 and 0, one saturation. -/
theorem test_block_of_e2m1 :
    (let vs : List Val := [.fin false 13 0, .fin true 5138022 (-20), .fin false 1363148 (-20), .fin false 272629 (-20)]
     blockScaleCode .e2m1 vs = 0x80 ∧ vs.map (fun v => (blockElem .e2m1 .rne true 0x80 v).1) = [0x7, 0xC, 0x1, 0x0] ∧
       packElts 4 [0x7, 0xC, 0x1, 0x0] = [0xC7, 0x01]) := by decide +kernel

/-- An AX96 of VALUE 3 · 2^40 and ANCHOR −40 (03) is 3.0 in FP32. -/
theorem test_ax96_to_fp32 : fp32Code (decodeAx96 (packAx96 (3 * 2 ^ 40) (-40) 0)) = 0x40400000 := by decide +kernel

/-- A pass of the cancellation example (04): stationary code and scale, streamed code. -/
def pass4 (arith : AccMode) (anchor : Int) (t sc : Nat) : Attempt :=
  { cfg := { shape := 0, south := false, kv := 1, nv := 1, fmtT := .e4m3, fmtS := .e4m3, blkT := 2, blkS := 2, mode := arith, sr := false }
    load := { fmt := .e4m3, blk := 2, kv := 1, nv := 1, elems := [[t]], scales := [[sc]] }
    arith := arith, rows := 1, len := 1, base := 0, ovw := false, seed := 0, tile := 0, passIx := 0, anchor := anchor }

def folds (ps : List (Attempt × Nat)) (e : Elem) : Elem :=
  ps.foldl (fun e p => (p.1.elem (fun _ => ([p.2], [0x7F])) 0 0 e).e) e

/-- In A32 the passes leave 0.75; in the order 1, 3, 2, 4 they leave 2.25 (04). -/
theorem test_cancellation_in_a32 :
    (let p (t sc s : Nat) := (pass4 .a32 0 t sc, s)
     let code : Elem → Nat := fun e => match e with | .f v => fp32Code v | _ => 0
     code (folds [p 0x3C 0x97 0x40, p 0x3C 0x7F 0x38, p 0xBC 0x97 0x40, p 0x34 0x7F 0x38] .zero) = 0x3F400000 ∧
     code (folds [p 0x3C 0x97 0x40, p 0xBC 0x97 0x40, p 0x3C 0x7F 0x38, p 0x34 0x7F 0x38] .zero) = 0x40100000) := by decide +kernel

/-- In ledger mode the anchors are −21 and −45, and the element ends at 9 · 2^19, ANCHOR −21, DUST 0; with a scale of
2^−24 in pass 2, DUST 1 (04). -/
theorem test_cancellation_in_ledger :
    (let l (sc : Nat) : Load := { fmt := .e4m3, blk := 2, kv := 1, nv := 1, elems := [[0x3C]], scales := [[sc]] }
     let p (t sc s : Nat) := (pass4 .ax (anchorOf .e4m3 .e4m3 (l sc) 0x7F) t sc, s)
     anchorOf .e4m3 .e4m3 (l 0x97) 0x7F = -21 ∧ anchorOf .e4m3 .e4m3 (l 0x7F) 0x7F = -45 ∧
     folds [p 0x3C 0x97 0x40, p 0x3C 0x7F 0x38, p 0xBC 0x97 0x40, p 0x34 0x7F 0x38] .zero = .ax ⟨9 * 2 ^ 19, -21, 0, none⟩ ∧
     folds [p 0x3C 0x97 0x40, p 0x3C 0x67 0x38] .zero = .ax ⟨3 * 2 ^ 45, -21, 1, none⟩) := by decide +kernel

/-- The clear of MEM_PC_FAILED of stack M13 (16): the reply, byte for byte, but for STILL_SET, since here nothing sets the
flag again meanwhile. -/
theorem test_flag_clear_reply :
    (let r : ZcpReq := { src := .udp 0 0x0A002807 50211, seq := 0x1F40, tag := 0x12345678 }
     let s := { up with zcp := { flags := [⟨.memPcFailed, 13, 3, 3⟩] } }
     let s' := after (exec (.flagClear r { kind := 3, index := 13 } 0x0301) s) s
     s'.zcp.flags = [] ∧ s'.outbox = [.zcp r.src
       [0x4D, 0x5A, 0x02, 0x01, 0x40, 0x1F, 0x00, 0x00, 0x21, 0x07, 0x00, 0x00, 0x10, 0x00, 0x00, 0x00,
        0x0D, 0x00, 0x00, 0x03, 0x78, 0x56, 0x34, 0x12, 0x00, 0x00, 0x01, 0x00, 0x00, 0x00, 0x00, 0x00,
        0x01, 0x00, 0x04, 0x00, 0x03, 0x00, 0x00, 0x00, 0x02, 0x00, 0x01, 0x00, 0x00, 0x00, 0x00, 0x00]]) := by decide +kernel

end Sys2Proof.Tests
end

section
/-! SUPPORT. Proofs of spec/00_scope.md: every command answers a next state, and an empty queue ticks. -/

namespace Sys2Proof.Machine

/-! ## Every command answers

A command's meaning is `.next` of a state, a `when_`, which is one too, or a case distinction between such: on a field of
its move word, or on a record that it looks up (log 8: where there is none, it answers the same state). -/

/-- The outcome is a next state: no fault and no refusal. -/
def IsNext (o : Out) : Prop := ∃ t, o = .next t

theorem isNext_next (s : State) : IsNext (.next s) := ⟨s, rfl⟩

theorem isNext_when_ (s : State) (c : Bool) (f : State → State) : IsNext (when_ s c f) := isNext_next _

theorem periodAct_isNext (s : State) (job : BitVec 12) (f : Job → Period → Bool) (g : State → Job → Period → State) :
    IsNext (s.periodAct job f g) := by
  unfold State.periodAct
  split
  · exact isNext_next _
  · split
    · exact isNext_next _
    · exact isNext_when_ _ _ _

theorem onRts_isNext (s : State) (n : Nat) (c : Qp → Bool) (f : State → Qp → State) : IsNext (s.onRts n c f) := by
  unfold State.onRts
  split
  · exact isNext_next _
  · exact isNext_when_ _ _ _

/-- A ring pass that wants a granule goes first, or else the first queued array move starts. -/
theorem execPassStart_isNext (t : TileIx) (s : State) : IsNext (execPassStart t s) := by
  unfold execPassStart
  dsimp only
  split
  · exact isNext_when_ _ _ _
  · split
    · exact isNext_next _
    · exact isNext_when_ _ _ _

/-- The row needs a run, an attempt of it that can be evaluated, and a row of that attempt that overflows. -/
theorem execAttemptOverflow_isNext (t : TileIx) (q : Option QuadIx) (s : State) : IsNext (execAttemptOverflow t q s) := by
  unfold execAttemptOverflow
  split
  · exact isNext_next _
  · split
    · exact isNext_next _
    · split
      · exact isNext_next _
      · exact isNext_when_ _ _ _

/-- The row needs an entry of the outstanding request table, and one that backs off. -/
theorem execBackoffExpiry_isNext (seq : BitVec 24) (s : State) : IsNext (execBackoffExpiry seq s) := by
  unfold execBackoffExpiry
  split
  · split
    · exact isNext_when_ _ _ _
    · exact isNext_next _
  · exact isNext_next _

/-- A command is straight (`.next` or `when_`), or one of a few case distinctions. -/
theorem exec_isNext (c : Instr) (s : State) : IsNext (exec c s) := by
  cases c
  case periodStart | check | flagFall | lend | reclaim => exact periodAct_isNext _ _ _ _
  case roceAck | cnp | doorbellPoll | localAckTimeout | rnrTimer | rateTimer => exact onRts_isNext _ _ _ _
  case passStart => exact execPassStart_isNext _ _
  case attemptOverflow => exact execAttemptOverflow_isNext _ _ _
  case backoffExpiry => exact execBackoffExpiry_isNext _ _
  -- a test of the move word comes first
  case yield_ | salu | tset | tadd =>
    simp only [exec, execYield, execSalu, execTset, execTadd]
    split <;> exact isNext_next _
  -- two lookups, one after the other
  case passCommit | quadrantCommit | collComplete | escrowBackoff =>
    simp only [exec, execPassCommit, execQuadrantCommit, execCollComplete, execEscrowBackoff]
    split
    · exact isNext_next _
    · split <;> exact ⟨_, rfl⟩
  -- one lookup, of a move, run or job of a tile
  case waitSatisfied | waitTimeout | loadStallEnd | arrayFault | handshakeTimeout | granuleWritten | walkComplete |
      holdTimeout | tilePrepared | saveComplete | restoreComplete =>
    simp only [exec, execWaitSatisfied, execWaitTimeout, execLoadStallEnd, execArrayFault, execHandshakeTimeout,
      execGranuleWritten, execWalkComplete, execHoldTimeout, execTilePrepared, execSaveComplete, execRestoreComplete]
    split <;> exact ⟨_, rfl⟩
  -- one lookup, in the transport, the router, the links or the collectives
  case receiptFlush | retransmitTimeout | abandon | lowMarkTimer | rateRaise | headFlit | stalemate | ceWait | congMapSend |
      retryRepeat | refuse | result | collTimeout | escWaitExpiry | escTimeout =>
    simp only [exec, execReceiptFlush, execRetransmitTimeout, execAbandon, execLowMarkTimer, execRateRaise, execHeadFlit,
      execStalemate, execCeWait, execCongMapSend, execRetryRepeat, execRefuse, execResult, execCollTimeout, execEscWaitExpiry,
      execEscTimeout]
    split <;> exact ⟨_, rfl⟩
  -- one lookup, in the projection engine, host RDMA, time, debug or the control protocol
  case slotTurn | reprogramDone | roceRequest | pingReply | missedExchange | ptpSync | triggerFire | scanOutComplete |
      interimReply | lockExpiry =>
    simp only [exec, execSlotTurn, execReprogramDone, execRoceRequest, execPingReply, execMissedExchange, execPtpSync,
      execTriggerFire, execScanOutComplete, execInterimReply, execLockExpiry]
    split <;> exact ⟨_, rfl⟩
  all_goals exact ⟨_, rfl⟩

/-- Settles O7: every meaning is a next state (log 8). -/
theorem everyCommandAnswers : Obligations.EveryCommandAnswers := exec_isNext

/-! ## The tick of an empty queue -/

theorem State.step_empty (s : State) (h : s.pending = []) : step s = .next s.tick := by
  simp only [step, h]

/-- Errors of lines change the stacks only. -/
@[simp] theorem State.upset_live (s : State) (errs : List (Nat × Nat)) : (s.upset errs).live = s.live := by
  unfold State.upset
  induction errs generalizing s with
  | nil => rfl
  | cons e es ih =>
    rw [List.foldl_cons, ih]
    split
    · split <;> rfl
    · rfl

@[simp] theorem State.upset_nil (s : State) : s.upset [] = s := rfl

@[simp] theorem State.tickTime_live (s : State) : s.tickTime.live = s.live := rfl

@[simp] theorem State.tickTime_clock (s : State) : s.tickTime.clock = s.clock := rfl

/-- With the rails off only the model's own clock moves. -/
theorem State.tick_of_rails_off (s : State) (h : s.board.rails = false) : s.tick = { s with clock := s.clock + 1 } := by
  simp [State.tick, h]

/-- Until the firmware runs the tick ends after global time and the line that may go wrong. -/
theorem State.tick_of_not_live (s : State) (hr : s.board.rails = true) (hl : s.live = false) :
    s.tick = (({ s with clock := s.clock + 1 } : State).tickTime).upset (Config.upset (s.clock + 1)).toList := by
  have hlive : ({ s with clock := s.clock + 1 } : State).live = false := hl
  cases hu : Config.upset (s.clock + 1) with
  | none => simp [State.tick, hr, hu, hlive]
  | some e => simp [State.tick, hr, hu, hlive]

/-- Global time gains 16 sixteenths where nothing is slewed away (R8, R497). -/
theorem State.tickTime_of_no_slew (s : State) (h : s.live = false ∨ s.clock % 64 ≠ 0 ∨ s.time.slew = 0) :
    s.tickTime.time =
      { s.time with global := s.time.global + 16, work := if s.dbg.frozen then s.time.work else s.time.work + 1 } := by
  rcases h with h | h | h <;> simp [State.tickTime, h]

/-- Settles O2: a step on an empty queue is a tick, and what the tick does before the firmware runs. -/
theorem emptyQueueTicks : Obligations.EmptyQueueTicks := fun s h =>
  ⟨s.step_empty h, s.tick_of_rails_off, s.tick_of_not_live, s.tickTime_of_no_slew⟩

end Sys2Proof.Machine
end

section
/-! SUPPORT. Proofs of spec/01_module.md: what holds at reset, the 48 V input, the pins, RESET_N and the test port. -/

namespace Sys2Proof.Machine

/-! ## A command whose condition holds -/

theorem when_of_true {s : State} {c : Bool} (f : State → State) (h : c = true) : when_ s c f = .next (f s) := by
  rw [when_, if_pos h]

/-! ## The bits of a word that is summed from places -/

/-- A sum of distinct powers of two is the number that has those bits. -/
theorem sum_twoPow_eq_ofBits (f : Nat → Bool) (n : Nat) :
    ((List.range n).map fun k => if f k then 2 ^ k else 0).sum = Nat.ofBits fun k : Fin n => f k := by
  induction n generalizing f with
  | zero => rfl
  | succ n ih =>
    have double : ∀ k, (if f (k + 1) then 2 ^ (k + 1) else 0) = 2 * (if f (k + 1) then 2 ^ k else 0) := by
      intro k; split <;> omega
    have first : (if f 0 then 2 ^ 0 else 0) = (f 0).toNat := by cases f 0 <;> rfl
    calc ((List.range (n + 1)).map fun k => if f k then 2 ^ k else 0).sum
      _ = (f 0).toNat + ((List.range n).map fun k => 2 * (if f (k + 1) then 2 ^ k else 0)).sum := by
          simp only [List.range_succ_eq_map, List.map_cons, List.map_map, List.sum_cons, Function.comp_def, Nat.succ_eq_add_one,
            double, first]
      _ = 2 * Nat.ofBits (fun k : Fin n => f (k + 1)) + (f 0).toNat := by
          rw [List.sum_map_mul_left, ih fun k => f (k + 1), Nat.add_comm]
      _ = Nat.ofBits fun k : Fin (n + 1) => f k := (Nat.ofBits_succ fun k : Fin (n + 1) => f k).symm

/-- Each bit of a word that is summed from its places. -/
theorem getLsbD_ofNat_sum_twoPow (f : Nat → Bool) {n : Nat} (k : Fin n) :
    (BitVec.ofNat n ((List.range n).map fun k => if f k then 2 ^ k else 0).sum).getLsbD k.val = f k.val := by
  rw [sum_twoPow_eq_ofBits, BitVec.getLsbD_ofNat, Nat.testBit_ofBits_lt _ _ k.isLt]
  simp

/-! ## What the module drives on its pins (R25, R26, R29) -/

@[simp] theorem State.drives_presentN (s : State) : s.drives 26 = some false := rfl

theorem State.drives_of_no_input {s : State} {pin : Nat} (hv : s.board.vin = 0) (hp : pin ≠ 26) : s.drives pin = none := by
  simp [State.drives, hv, hp]

/-- The I3C pins, 2 to 23, stand at places 0 to 21 of the boundary-scan register (R25, R28, log 24). -/
theorem scanPins_idxOf_i3c : ∀ k < 22, scanPins.idxOf (k + 2) = k := by decide

theorem State.drives_i3c {s : State} {k : Nat} (hv : s.board.vin ≠ 0) (hk : k < 22) :
    s.drives (k + 2) = some (if s.board.tap = .extest then s.board.bsr.getLsbD k else true) := by
  have h26 : k + 2 ≠ 26 := by omega
  have hle : k + 2 ≤ 23 := by omega
  simp [State.drives, h26, hv, hle, scanPins_idxOf_i3c k hk]

/-- An open-drain pin is driven low or released: low where its level is false. -/
theorem openDrain_eq (level : Bool) :
    (if level = false then some false else none) = if level = true then none else some false := by
  cases level <;> rfl

/-- PGOOD, pin 27, at place 23. -/
theorem State.drives_pgood {s : State} (hv : s.board.vin ≠ 0) :
    s.drives 27 = if s.board.tap = .extest then (if s.board.bsr.getLsbD 23 then none else some false)
      else if s.board.pgood then none else some false := by
  have place : scanPins.idxOf 27 = 23 := by decide
  by_cases ht : s.board.tap = .extest <;> simp [State.drives, hv, ht, place, openDrain_eq]

/-- THERMTRIP_N, pin 28, at place 24: a latched shutdown is driven whatever the test port holds (R29). -/
theorem State.drives_thermtripN {s : State} (hv : s.board.vin ≠ 0) :
    s.drives 28 = if s.board.thermtrip then some false
      else if s.board.tap = .extest then (if s.board.bsr.getLsbD 24 then none else some false) else none := by
  have place : scanPins.idxOf 28 = 24 := by decide
  by_cases hl : s.board.thermtrip = true
  · simp [State.drives, hv, hl]
  · by_cases ht : s.board.tap = .extest <;> simp [State.drives, hv, hl, ht, place, openDrain_eq]

/-- FREEZE_OUT_N, pin 30, at place 26. -/
theorem State.drives_freezeOutN {s : State} (hv : s.board.vin ≠ 0) :
    s.drives 30 = if s.board.tap = .extest then (if s.board.bsr.getLsbD 26 then none else some false)
      else if s.board.freezeOutLow then some false else none := by
  have place : scanPins.idxOf 30 = 26 := by decide
  by_cases ht : s.board.tap = .extest <;> simp [State.drives, hv, ht, place, openDrain_eq]

/-! ## The test port (R28, R29) -/

/-- The word that SAMPLE captures: bit k is the level of the pin at place k (R28). -/
def State.sampled (s : State) : BitVec 37 :=
  BitVec.ofNat 37 ((List.range 37).map fun k =>
    if s.pinLevel (Config.freeValue s.fresh) (scanPins.getD k 0) then 2 ^ k else 0).sum

theorem State.sampled_getLsbD (s : State) (k : Fin 37) :
    s.sampled.getLsbD k.val = s.pinLevel (Config.freeValue s.fresh) (scanPins.getD k.val 0) :=
  getLsbD_ofNat_sum_twoPow (fun k => s.pinLevel (Config.freeValue s.fresh) (scanPins.getD k 0)) k

theorem exec_jtagSamplePreload {s : State} (preload : BitVec 37) (h : s.board.pgood = true) :
    exec (.jtagSamplePreload preload) s = .next { s with
      fresh := s.fresh + 1
      board := { s.board with tap := .samplePreload, tdo := s.sampled, bsr := preload } } := by
  rw [exec, execJtagSamplePreload, when_of_true _ h]
  rfl

/-- Settles O13: the captured word holds every pin's level bit by bit, and each output follows its place of the register. -/
theorem testPort : Obligations.TestPort := by
  intro s preload hp
  refine ⟨?bypass, ?idcode, ?sample, ?select, ?extest⟩
  case bypass => rw [exec, execJtagBypass, when_of_true _ hp]
  case idcode => rw [exec, execJtagIdcode, when_of_true _ hp]
  case select => rw [exec, execJtagExtest, when_of_true _ hp]
  case sample => exact ⟨_, exec_jtagSamplePreload preload hp, rfl, rfl, s.sampled_getLsbD, rfl⟩
  case extest =>
    intro ht hv
    refine ⟨fun k hk => ?_, ?_, ?_, ?_⟩
    · rw [State.drives_i3c hv hk, if_pos ht]
    · rw [State.drives_pgood hv, if_pos ht]
    · rw [State.drives_thermtripN hv, if_pos ht]
    · rw [State.drives_freezeOutN hv, if_pos ht]

/-! ## Right after reset (R22, R32, R463, R523) -/

/-- A tile that is not listed is a tile after self-test. -/
theorem State.reset_tile (t : Nat) : State.reset.tile t = {} := rfl

theorem Memory.read_nil (a : Nat) : Memory.read [] a = 0 := Memory.read_below fun _ h => absurd h List.not_mem_nil

theorem thermReset_length : thermReset.length = 133 := by simp [thermReset]

theorem State.reset_ports (p : PortIx) : State.reset.ports[p] = {} := Vector.getElem_replicate _

/-- The scalar registers hold 0 at first and p0 reads 1 (R131, R132). -/
theorem Tile.registers_at_first (r : Nat) : ({} : Tile).reg r = 0 ∧ ({} : Tile).pred 0 = true := by
  refine ⟨?_, rfl⟩
  by_cases hr : r < 32 <;> simp [Tile.reg, Regs.get, hr]

/-- Settles O3: each clause reads a default of the state, or what an empty list of counters, tiles or bytes reads. -/
theorem resetValues : Obligations.ResetValues := by
  refine ⟨rfl, rfl, rfl, rfl, rfl, rfl, rfl, rfl, rfl, rfl, rfl, rfl, rfl, fun _ => rfl, fun _ _ _ => rfl, rfl, rfl,
    Memory.read_nil, rfl, rfl, thermReset_length, fun t r => ?_, fun p => ?_⟩
  · rw [State.reset_tile]; exact Tile.registers_at_first r
  · rw [State.reset_ports]

/-! ## The 48 V input (R22) -/

theorem exec_powerUp_of_mayStart {s : State} {mv : Nat} (b : BootResult) (h : s.board.mayStart mv = true) :
    exec (.powerUp mv b) s = .next (s.railsOn mv b) := congrArg Host.Outcome.next (if_pos h)

theorem exec_powerUp_of_not_mayStart {s : State} {mv : Nat} (b : BootResult) (h : s.board.mayStart mv = false) :
    exec (.powerUp mv b) s = .next { s with board := { s.board with vin := mv } } :=
  congrArg Host.Outcome.next (if_neg (by simp [h]))

theorem exec_inputBackInRange_of_mayStart {s : State} {mv : Nat} (b : BootResult) (h : s.board.mayStart mv = true)
    (ho : s.board.inputOff = true) : exec (.inputBackInRange mv b) s = .next (s.railsOn mv b) :=
  congrArg Host.Outcome.next (if_pos (by rw [h, ho]; rfl))

theorem exec_inputUndervoltage {s : State} {mv : Nat} (h : mv < 37000) :
    exec (.inputUndervoltage mv) s = .next (s.railsOff mv) := by
  rw [exec, execInputUndervoltage, when_of_true _ (decide_eq_true h)]

theorem exec_inputOvervoltage {s : State} {mv : Nat} (h : 63000 < mv) :
    exec (.inputOvervoltage mv) s = .next (s.railsOff mv) := by
  rw [exec, execInputOvervoltage, when_of_true _ (decide_eq_true h)]

/-- A board that nothing holds down starts above 39.0 V, up to a limit that depends on why the rails are off. -/
theorem Board.mayStart_iff {x : Board} {mv : Nat} (hr : x.rails = false) (ht : x.thermtrip = false) (hf : x.railFault = false) :
    x.mayStart mv = true ↔ 39000 < mv ∧ mv ≤ (if x.inputOff then 60000 else 63000) := by
  simp [Board.mayStart, hr, ht, hf]

theorem Board.mayStart_of_thermtrip {x : Board} (mv : Nat) (h : x.thermtrip = true) : x.mayStart mv = false := by
  simp [Board.mayStart, h]

/-- Settles O10: each command on its side of the limits, and what turning the rails off leaves. -/
theorem inputRange : Obligations.InputRange := fun _ _ b =>
  ⟨exec_inputUndervoltage, exec_inputOvervoltage, exec_powerUp_of_mayStart b, exec_powerUp_of_not_mayStart b,
    exec_inputBackInRange_of_mayStart b, Board.mayStart_iff, rfl, rfl, rfl, rfl, rfl, rfl, rfl, rfl, rfl, rfl⟩

/-! ## Loss of the input (R22, R25, R26, R32) -/

/-- Only 0 mV, the removal of the input, clears the two latches (R32, R460, log 39). -/
@[simp] theorem State.railsOff_thermtrip (s : State) (mv : Nat) :
    (s.railsOff mv).board.thermtrip = (s.board.thermtrip && mv != 0) := rfl

@[simp] theorem State.railsOff_railFault (s : State) (mv : Nat) :
    (s.railsOff mv).board.railFault = (s.board.railFault && mv != 0) := rfl

/-- An input that is out of range but present. -/
theorem State.railsOff_of_present {s : State} {mv : Nat} (h : mv ≠ 0) :
    (s.railsOff mv).board.thermtrip = s.board.thermtrip ∧ (s.railsOff mv).board.railFault = s.board.railFault ∧
      (s.railsOff mv).drives 27 = some false ∧
      (s.railsOff mv).drives 28 = (if s.board.thermtrip then some false else none) := by
  have hv : (s.railsOff mv).board.vin ≠ 0 := h
  have hlatch : (s.railsOff mv).board.thermtrip = s.board.thermtrip := by simp [h]
  refine ⟨hlatch, by simp [h], ?_, ?_⟩
  · rw [State.drives_pgood hv]; rfl
  · rw [State.drives_thermtripN hv, hlatch]; rfl

/-- Settles O11: with 0 mV both latches are cleared, with an input that is present they stay and are driven. -/
theorem lossOfInput : Obligations.LossOfInput := by
  intro s mv k b
  refine ⟨s.drives_presentN, State.drives_of_no_input, ?removed, ?present, ?above, ?latched⟩
  case removed =>
    exact ⟨_, exec_inputUndervoltage (by decide), by simp, by simp, fun _ => State.drives_of_no_input rfl⟩
  case present => exact fun h0 h => ⟨_, exec_inputUndervoltage h, State.railsOff_of_present h0.ne'⟩
  case above =>
    intro h
    obtain ⟨htrip, hfault, hpgood, -⟩ := State.railsOff_of_present (s := s) (mv := mv) (by omega)
    exact ⟨_, exec_inputOvervoltage h, htrip, hfault, hpgood⟩
  case latched => exact fun h => exec_powerUp_of_not_mayStart b (Board.mayStart_of_thermtrip mv h)

/-! ## Reset, READY, the watchdog and the pins (R30, R31, R33, R35, R459, R460, R462) -/

/-- PGOOD alone tells of a rail fault (R30, logs 24 and 39). -/
theorem exec_railFault {s : State} (hr : s.board.rails = true) :
    exec .railFault s = .next { s with board := { s.board with pgood := false } } := by
  rw [exec, execRailFault, when_of_true _ hr]

theorem exec_resetNAssert_of_resets {s : State} (hr : s.board.rails = true) (ht : s.board.thermtrip = false)
    (hl : s.board.resetLow = false) :
    exec .resetNAssert s = .next { s.resetLogic with board := { s.resetLogic.board with resetLow := true } } := by
  simp [exec, execResetNAssert, hr, ht, hl]

/-- RESET_N has no effect while THERMTRIP_N is latched (R31). -/
theorem exec_resetNAssert_of_thermtrip {s : State} (ht : s.board.thermtrip = true) :
    exec .resetNAssert s = .next { s with board := { s.board with resetLow := true } } := by
  simp [exec, execResetNAssert, ht]

theorem exec_resetNRelease_of_resumes {s : State} (b : BootResult) (hl : s.board.resetLow = true) (hr : s.board.rails = true)
    (ht : s.board.thermtrip = false) :
    exec (.resetNRelease b) s = .next (({ s with board := { s.board with resetLow := false } } : State).bootUp b) := by
  simp [exec, execResetNRelease, when_of_true _ hl, hr, ht]

theorem exec_bootWatchdog_of_late {s : State} (b : BootResult) (hl : s.live = true) (hr : s.boot.ready = false)
    (ht : s.boot.fwStartT + 40000000000 ≤ s.clock) : exec (.bootWatchdog b) s = .next (s.resetLogic.bootUp b) := by
  rw [exec, execBootWatchdog, when_of_true _ (by simp [hl, hr, ht])]

theorem exec_ready_of_booted {s : State} (hl : s.live = true) (hr : s.boot.ready = false) (hf : s.dbg.frozen = false)
    (he : s.boot.ethernetNs.isSome = true) (hb : s.boot.fabricNs.isSome = true) : exec .ready s = .next s.becomeReady := by
  rw [exec, execReady, when_of_true _ (by simp [hl, hr, hf, he, hb])]

/-- READY and not frozen: a falling FREEZE_IN_N starts a freeze and counts (R33). -/
theorem exec_freezeInNFall_of_ready {s : State} (hl : s.live = true) (hr : s.boot.ready = true) (hf : s.dbg.frozen = false) :
    exec .freezeInNFall s =
      .next ((({ s with board := { s.board with freezeInLow := true } } : State).bump .boardFreezeInEvents).freeze .pin 0) := by
  have hlive : ({ s with board := { s.board with freezeInLow := true } } : State).live = true := hl
  simp [exec, execFreezeInNFall, hlive, hr, hf]

/-- FREEZE_IN_N is ignored until READY (R33): only its level is kept. -/
theorem exec_freezeInNFall_of_not_ready {s : State} (hr : s.boot.ready = false) :
    exec .freezeInNFall s = .next { s with board := { s.board with freezeInLow := true } } := by
  simp [exec, execFreezeInNFall, hr]

/-- A change of SLOT_ID after its sampling counts (R35). -/
theorem exec_slotIdChange_of_rails {s : State} {pins : BitVec 4} (hr : s.board.rails = true) (hp : pins ≠ s.board.slotPins) :
    exec (.slotIdChange pins) s =
      .next (({ s with board := { s.board with slotPins := pins } } : State).bump .boardSlotIdChanged) := by
  simp [exec, execSlotIdChange, hr, hp]

theorem exec_slotIdChange_of_no_rails {s : State} (pins : BitVec 4) (hr : s.board.rails = false) :
    exec (.slotIdChange pins) s = .next { s with board := { s.board with slotPins := pins } } := by
  simp [exec, execSlotIdChange, hr]

/-- Settles O12: one clause for each command and state of the board that it meets. -/
theorem resetAndPins : Obligations.ResetAndPins := fun _ b pins =>
  ⟨exec_railFault, exec_resetNAssert_of_resets, exec_resetNAssert_of_thermtrip, exec_resetNRelease_of_resumes b,
    exec_bootWatchdog_of_late b, exec_ready_of_booted, exec_freezeInNFall_of_ready, exec_freezeInNFall_of_not_ready,
    exec_slotIdChange_of_rails, exec_slotIdChange_of_no_rails pins⟩

end Sys2Proof.Machine
end

section
/-! SUPPORT. Proofs of spec/02_tiles_and_arrays.md: the moves of the arrays, of the MV and vector units and of the copy
engine at decode. -/

namespace Sys2Proof.Machine

/-! ## A move at decode -/

/-- Whether a program goes on after a move that does not jump depends on its program counter, loops and length only. -/
theorem Tile.goesOn_congr {x y : Tile} (h : x.goesOn) (hpc : y.pc = x.pc) (hl : y.loops = x.loops) (hn : y.len = x.len) :
    y.goesOn := by
  simpa only [Tile.goesOn, Tile.advance, hpc, hl, hn] using h

theorem State.decoded_goesOn {s : State} {t : Nat} (h : (s.tile t).goesOn) : ((s.decoded t).tile t).goesOn := by
  rw [State.decoded_tile]; exact h

/-- A conversion or a pass that takes its index at decode (R114, R133). -/
theorem State.setTile_goesOn {s : State} {t : Nat} {x y : Tile} (h : x.goesOn) (hpc : y.pc = x.pc) (hl : y.loops = x.loops)
    (hn : y.len = x.len) : ((s.setTile t y).tile t).goesOn := by
  rw [State.tile_setTile]; exact Tile.goesOn_congr h hpc hl hn

theorem State.enqueue_goesOn {s : State} {t : Nat} (h : (s.tile t).goesOn) (w : MoveWord) (j : Job) (x : Tile)
    (f : QMove → QMove) : ((s.enqueue t w j x f).tile t).goesOn := by
  rw [State.enqueue, State.modTile, State.tile_setTile]; exact Tile.goesOn_congr h rfl rfl rfl

theorem State.enqueuePass_goesOn {s : State} {t : Nat} (h : (s.tile t).goesOn) (w : MoveWord) (j : Job) (x : Tile)
    (f : QMove → QMove) : ((s.enqueuePass t w j x f).tile t).goesOn := State.enqueue_goesOn h w j x _

/-- A move whose checks pass and that the sequencer does not complete: the sequencer goes past it (R135, R137, R139). -/
theorem Executes.decode_ok {s d : State} {t : TileIx} {w : MoveWord} {j : Job} {x : Tile} (h : Executes s t w j)
    (hd : d = s.decoded t) (hx : x = (s.tile t).decoding) {op : Nat} (ho : Hdr.op w = op) {body : State → Job → Tile → Decoded}
    {u : State} (hb : body d j x = .ok u none false) (hg : (u.tile t).goesOn) (hu : (unitOf op).isNone = false := by decide) :
    s.decode t w op body = u.passOver t := by
  rw [h.decode_eq ho body hu, ← hd, ← hx, hb, State.finishDecode_ok _ _ _ _ _ _ _ fun _ => hg]
  rfl

/-- A move whose checks pass is a no-op of a count of 0, or its unit takes it with what it captured (R135, R139). -/
theorem Executes.decode_issues {s d : State} {t : TileIx} {w : MoveWord} {j : Job} {x : Tile} (h : Executes s t w j)
    (hd : d = s.decoded t) (hx : x = (s.tile t).decoding) {op : Nat} (ho : Hdr.op w = op) {body : State → Job → Tile → Decoded}
    {u : State} {noop : Bool} (hg : (u.tile t).goesOn)
    (hb : body d j x = if noop then .noop u else .queued (u.enqueue t w j x)) (hu : (unitOf op).isNone = false := by decide) :
    s.decode t w op body = (if noop then u else u.enqueue t w j x).passOver t := by
  cases noop
  case true => exact h.decode_ok hd hx ho hb hg hu
  case false => exact h.decode_ok hd hx ho hb (State.enqueue_goesOn hg w j _ _) hu

/-! ## The moves of the array (R44, R62 to R64, R108, R154 to R158) -/

/-- A conversion takes its index at decode and goes on (R133). -/
theorem State.takeConvIx_goesOn {d : State} {t : Nat} {x : Tile} (hd : (d.tile t).goesOn) (hx : x.goesOn) (b : Bool) :
    ((if b then d.setTile t { x with convIx := x.convIx + 1 } else d).tile t).goesOn := by
  cases b
  case false => exact hd
  case true => exact State.setTile_goesOn hx rfl rfl rfl

/-- What follows at once on the decode of a move of the array: the array goes on. -/
theorem next_kickArray {u v : State} {t : Nat} (h : u = v) :
    (Host.Outcome.next (u.kickArray t) : Out) = .next (v.kickArray t) := by rw [h]

/-- Settles O34: the checks pass, so that each move is a no-op or is issued, on the state after decode. -/
theorem arrayMoves : Obligations.ArrayMoves := by
  intro s t w j h hgo x d issues
  have hd : (d.tile t).goesOn := State.decoded_goesOn hgo
  have hx : x.goesOn := hgo
  refine ⟨?load, ?pass, ?split, ?drain, ?clear, ?castle, ?uncastle⟩
  case load =>
    intro ho hc
    refine next_kickArray (h.decode_issues (d := d) (x := x) rfl rfl ho hd ?_)
    rw [hc]; rfl
  case pass =>
    intro ho hc
    by_cases h0 : fld w 113 97 = 0 ∨ fld w 96 84 = 0
    · have hg := State.setTile_goesOn (s := d) (t := t) (y := { x with passIx := x.passIx + 1 }) hx rfl rfl rfl
      rw [if_pos h0]
      refine congrArg Host.Outcome.next (h.decode_ok (d := d) (x := x) rfl rfl ho ?_ hg)
      simp only [hc]; simp [h0, Decoded.noop]
    · rw [if_neg h0]
      refine congrArg Host.Outcome.next
        (h.decode_ok (d := d) (x := x) rfl rfl ho ?_ (State.enqueuePass_goesOn hd w j x _))
      simp only [hc]; simp [h0, Decoded.queued]
  case split =>
    intro ho hc
    refine congrArg Host.Outcome.next
      (h.decode_ok (d := d) (x := x) rfl rfl ho ?_ (State.enqueuePass_goesOn hd w j x _))
    rw [hc]; rfl
  case drain =>
    intro ho hc
    refine next_kickArray (h.decode_issues (d := d) (x := x) rfl rfl ho (State.takeConvIx_goesOn hd hx _) ?_)
    rw [hc]; rfl
  case clear =>
    intro ho hu hr
    refine next_kickArray (h.decode_issues (d := d) (x := x) rfl rfl ho hd ?_)
    rw [hu, hr]; rfl
  case castle =>
    intro ho hc
    refine next_kickArray (h.decode_issues (d := d) (x := x) (noop := false) rfl rfl ho hd ?_)
    rw [hc]; rfl
  case uncastle =>
    intro ho hc
    refine next_kickArray (h.decode_issues (d := d) (x := x) rfl rfl ho hd ?_)
    rw [hc]; rfl

/-! ## The moves of the MV unit, the vector unit and the copy engine (R73, R159 to R161) -/

/-- What follows at once on the decode of a move of the MV or the vector unit: the units of the tile go on. -/
theorem next_kick {u v : State} {t : Nat} (h : u = v) : (Host.Outcome.next (u.kick t) : Out) = .next (v.kick t) := by rw [h]

/-- Settles O35: as for the array, and a COPY to AX96 takes its free anchor first (log 2). -/
theorem vectorAndCopyMoves : Obligations.VectorAndCopyMoves := by
  intro s t w j h hgo x d issues converts
  have hd : (d.tile t).goesOn := State.decoded_goesOn hgo
  have hconv (b : Bool) : ((converts b).tile t).goesOn := State.takeConvIx_goesOn hd (x := x) hgo b
  refine ⟨?mv, ?vop, ?reduce, fun ho hc => ⟨fun hax => ?copy, fun v hv hax hl => ?toAx96⟩⟩
  case mv =>
    intro ho hc
    refine next_kick (h.decode_issues (d := d) (x := x) rfl rfl ho hd ?_)
    rw [hc]; rfl
  case vop =>
    intro ho hc
    refine next_kick (h.decode_issues (d := d) (x := x) rfl rfl ho (hconv (vopSpec w x.regs).converts) ?_)
    simp only [hc, beq_iff_eq]; rfl
  case reduce =>
    intro ho hc
    refine next_kick (h.decode_issues (d := d) (x := x) rfl rfl ho hd ?_)
    simp only [hc, beq_iff_eq]
  case copy =>
    refine congrArg Host.Outcome.next
      (h.decode_issues (d := d) (x := x) rfl rfl ho (hconv (copySpec w x.regs).converts) ?_)
    simp only [hc, beq_iff_eq]
    rcases hax with hax | hax
    · simp only [hax]; rfl
    · simp only [hax]; rfl
  case toAx96 =>
    have hfree : (((converts (copySpec w x.regs).converts).free.2).tile t).goesOn := hconv _
    refine congrArg Host.Outcome.next
      (h.decode_ok (d := d) (x := x) rfl rfl ho ?_ (State.enqueue_goesOn hfree w j x _))
    simp only [hc, hax, hl, hv, if_true, if_false]; rfl

end Sys2Proof.Machine
end

section
/-! SUPPORT. Proofs of spec/02_tiles_and_arrays.md: the events of the arrays. What leaves every tile as it is comes first, then
what each event does to the tile that it names. -/

namespace Sys2Proof.Machine

/-! ## What leaves every tile as it is -/

theorem State.tile_congr {s u : State} (h : u.tiles = s.tiles) (t : Nat) : u.tile t = s.tile t := by
  rw [State.tile, h, State.tile]

/-- What every step of a run of updates keeps, the run keeps. -/
theorem State.foldl_keeps {α β : Type} (g : State → α) (f : State → β → State) (h : ∀ s a, g (f s a) = g s) (l : List β)
    (s : State) : g (l.foldl f s) = g s := by
  induction l generalizing s with
  | nil => rfl
  | cons a l ih => rw [List.foldl_cons, ih, h]

@[simp] theorem State.sendListener_tiles (s : State) (l : Listener) (bs : List Byte) : (s.sendListener l bs).tiles = s.tiles := by
  cases l <;> rfl

@[simp] theorem State.event_tiles (s : State) (c : EventCode) (t : Target) (d : List Byte) (a : Option (BitVec 64)) :
    (s.event c t d a).tiles = s.tiles := by
  rw [State.event, State.bump_tiles, State.foldl_keeps State.tiles _ fun _ _ => State.sendListener_tiles _ _ _]

@[simp] theorem State.setFlag_tiles (s : State) (f : FlagId) (k i : Nat) : (s.setFlag f k i).tiles = s.tiles := by
  unfold State.setFlag
  dsimp only
  split
  · rw [State.event_tiles]
  · rfl

@[simp] theorem State.sendFreezeFlit_tiles (s : State) (p : PortIx) (f : FreezeFlit) (go : Bool) :
    (s.sendFreezeFlit p f go).tiles = s.tiles := by
  unfold State.sendFreezeFlit
  split
  · rfl
  · split <;> simp

@[simp] theorem State.spreadFreeze_tiles (s : State) (c : FreezeCause) (tag no : BitVec 32) (o : Option (PortIx × FreezeFlit)) :
    (s.spreadFreeze c tag no o).tiles = s.tiles := by
  unfold State.spreadFreeze
  split
  · exact State.foldl_keeps State.tiles _ (fun _ _ => State.sendFreezeFlit_tiles _ _ _ _) _ _
  · split
    · rfl
    · refine State.foldl_keeps State.tiles _ (fun s p => ?_) _ _
      split
      · rfl
      · exact State.sendFreezeFlit_tiles _ _ _ _

/-! ### The stacks (R206 to R210) -/

@[simp] theorem State.activate_tiles (s : State) (m : StackIx) (line : Nat) : (s.activate m line).tiles = s.tiles := by
  unfold State.activate State.free
  dsimp only
  split
  · rfl
  · split <;> simp

@[simp] theorem State.clearErrs_tiles (s : State) (m : StackIx) (line : Nat) : (s.clearErrs m line).tiles = s.tiles := rfl

@[simp] theorem State.logLine_tiles (s : State) (m : StackIx) (line : Nat) : (s.logLine m line).tiles = s.tiles := rfl

@[simp] theorem State.uncorrectable_tiles (s : State) (m : StackIx) (line : Nat) (c : Bool) :
    (s.uncorrectable m line c).tiles = s.tiles := by
  unfold State.uncorrectable
  dsimp only
  split <;> simp

/-- Every branch of the check changes the stacks, the counters, the poisoned lines or the bytes of a line only. -/
@[simp] theorem State.dramRead_tiles (s : State) (m : StackIx) (line : Nat) : (s.dramRead m line).1.tiles = s.tiles := by
  unfold State.dramRead
  dsimp only
  repeat' split
  all_goals simp

@[simp] theorem State.flushEntry_tiles (s : State) (m : StackIx) (e : WcbEntry) (c : CtrId) :
    (s.flushEntry m e c).tiles = s.tiles := by
  unfold State.flushEntry
  dsimp only
  repeat' split
  all_goals simp

@[simp] theorem State.flushAll_tiles (s : State) : s.flushAll.tiles = s.tiles :=
  State.foldl_keeps State.tiles _ (fun s m => State.foldl_keeps State.tiles _ (fun s e => s.flushEntry_tiles m e _) _ s) _ s

/-! ### Freezes and fault records (R225, R503, R506) -/

@[simp] theorem State.takeSnapshot_tiles (s : State) : s.takeSnapshot.tiles = s.tiles := s.bump_tiles _ _ _ _

@[simp] theorem State.freeze_tiles (s : State) (c : FreezeCause) (tag : BitVec 32) (o : Option (PortIx × FreezeFlit)) :
    (s.freeze c tag o).tiles = s.tiles := by
  unfold State.freeze
  split
  · simp
  · dsimp only
    split <;> simp

/-- Neither the queue of records, full or not, nor the freeze that a record may start touches a tile. -/
@[simp] theorem State.fault_tiles (s : State) (r : FaultRec) : (s.fault r).tiles = s.tiles := by
  unfold State.fault
  dsimp only
  repeat' split
  all_goals simp

@[simp] theorem State.fault_tile (s : State) (r : FaultRec) (t : Nat) : (s.fault r).tile t = s.tile t :=
  State.tile_congr (s.fault_tiles r) t

/-! ## One tile written -/

@[simp] theorem State.tile_modTile (s : State) (t : Nat) (f : Tile → Tile) : (s.modTile t f).tile t = f (s.tile t) :=
  State.tile_setTile _ _ _

theorem State.tile_modTile_ne (s : State) {t u : Nat} (f : Tile → Tile) (h : u ≠ t) : (s.modTile t f).tile u = s.tile u :=
  State.tile_setTile_ne _ _ _ _ h

/-- What of a tile an update of one tile keeps, it keeps of every tile. -/
theorem State.modTile_keeps {α : Type} (g : Tile → α) {f : Tile → Tile} (s : State) (t u : Nat) (hf : ∀ x, g (f x) = g x) :
    g ((s.modTile t f).tile u) = g (s.tile u) := by
  by_cases h : u = t
  · rw [h, State.tile_modTile, hf]
  · rw [State.tile_modTile_ne s f h]

@[simp] theorem State.modMove_tile (s : State) (t id : Nat) (f : QMove → QMove) :
    (s.modMove t id f).tile t = { s.tile t with queue := mapIf (fun m => m.id == id) f (s.tile t).queue } :=
  State.tile_modTile _ _ _

@[simp] theorem State.modMove_acc (s : State) (t id u : Nat) (f : QMove → QMove) :
    ((s.modMove t id f).tile u).acc = (s.tile u).acc := s.modTile_keeps Tile.acc t u fun _ => rfl

/-- A change of the only move of a queue. -/
theorem mapIf_singleton {m : QMove} {id : Nat} (h : m.id = id) (f : QMove → QMove) :
    mapIf (fun y => y.id == id) f [m] = [f m] := by
  simp [mapIf, h]

@[simp] theorem mapIf_singleton_id (m : QMove) (f : QMove → QMove) : mapIf (fun y => y.id == m.id) f [m] = [f m] :=
  mapIf_singleton rfl f

/-- Looking up a move after a change of it that keeps its number. -/
theorem find?_mapIf_id (id : Nat) (f : QMove → QMove) (hf : ∀ m, (f m).id = m.id) (q : List QMove) :
    (mapIf (fun m => m.id == id) f q).find? (fun m => m.id == id) = (q.find? fun m => m.id == id).map f := by
  induction q with
  | nil => rfl
  | cons m q ih =>
    rw [show mapIf (fun m => m.id == id) f (m :: q) = (if m.id == id then f m else m) :: mapIf (fun m => m.id == id) f q from rfl,
      List.find?_cons, List.find?_cons]
    cases h : m.id == id
    case true => simp [beq_iff_eq.1 h, hf]
    case false => simp [h, ih]

/-! ## The array goes on (R42) -/

/-- With no queued array move at its head the array has nothing to carry out. -/
theorem State.kickArray_of_nextArray {s : State} {t : Nat} (h : (s.tile t).nextArray = none) : s.kickArray t = s := by
  unfold State.kickArray
  cases (s.tile t).queue.length with
  | zero => rfl
  | succ n => simp [State.advanceArray, h]

theorem Tile.nextArray_of_queue {x : Tile} {m : QMove} (hq : x.queue = [m]) (hm : m.state ≠ .queued) : x.nextArray = none := by
  unfold Tile.nextArray Tile.front
  rw [hq]
  cases hp : (m.unit == .array && m.state != .done) <;> simp [List.find?, hp, hm]

/-- A tile whose only move is not queued: the array has nothing to carry out. -/
theorem State.kickArray_of_queue {s : State} {t : Nat} {m : QMove} (hq : (s.tile t).queue = [m]) (hm : m.state ≠ .queued) :
    s.kickArray t = s := State.kickArray_of_nextArray (Tile.nextArray_of_queue hq hm)

/-! ## The end of a load (R44, R549) -/

theorem State.sramPoison_congr {s u : State} (h : u.poisonWords = s.poisonWords) (t a n : Nat) :
    u.sramPoison t a n = s.sramPoison t a n := by unfold State.sramPoison; rw [h]

theorem State.loadPoison_congr {s u : State} (h : u.poisonWords = s.poisonWords) (t src step scl : Nat) (f : Fmt)
    (blk kk kv nv : Nat) : u.loadPoison t src step scl f blk kk kv nv = s.loadPoison t src step scl f blk kk kv nv := by
  simp only [State.loadPoison, h, State.sramPoison_congr h]

theorem State.sram_congr {s u : State} (h : u.mem = s.mem) (t a n : Nat) : u.sram t a n = s.sram t a n := by
  rw [State.sram, h, State.sram]

theorem State.readLoad_congr {s u : State} (h : u.mem = s.mem) (t src stride scl : Nat) (f : Fmt) (blk kk nn kv nv : Nat) :
    u.readLoad t src stride scl f blk kk nn kv nv = s.readLoad t src stride scl f blk kk nn kv nv := by
  simp only [State.readLoad, State.sram_congr h]

@[simp] theorem State.countLoad_tiles (s : State) (t : Nat) (l : Load) : (s.countLoad t l).tiles = s.tiles := by
  rw [State.countLoad, State.bump_tiles, State.bump_tiles]

@[simp] theorem State.countLoad_tile (s : State) (t u : Nat) (l : Load) : (s.countLoad t l).tile u = s.tile u :=
  State.tile_congr (s.countLoad_tiles t l) u

theorem exec_loadStallEnd {s : State} {t : TileIx} {m : QMove} (hm : (s.tile t).front .array = some m) (ho : Hdr.op m.w = 0x20)
    (h : m.state = .started ∧ s.tileRuns t = true ∧ s.unitJob t ≠ none ∨ m.state = .queued ∧ s.mayStart t = true) :
    exec (.loadStallEnd t) s = .next (s.endLoad t m) := by
  rw [exec, execLoadStallEnd, hm]
  refine when_of_true _ ?_
  rcases h with ⟨hs, hr, hj⟩ | ⟨hs, hr⟩
  · simp [ho, hs, hr, Option.isSome_iff_ne_none.2 hj]
  · simp [ho, hs, hr]

/-- A load that meets no poison, on a tile that is no king and has no other move. -/
theorem State.endLoad_tile {s : State} {t : TileIx} {m : QMove} (hp : (s.tile t).pair = none) (hq : (s.tile t).queue = [m])
    (hl : let f := (Fmt.ofCode (fld m.w 38 35)).getD .e4m3
      s.loadPoison t ((sramRef m.w 80).addr m.regs)
        (if fld m.w 79 64 = 0 then f.bytes (shapeN (fld m.w 34 32) false) else fld m.w 79 64) ((sramRef m.w 105).addr m.regs) f
        (fld m.w 40 39) (shapeK (fld m.w 34 32) false) (fld m.w 47 41) (fld m.w 54 48) = none) :
    (s.endLoad t m).tile t = { s.tile t with
      queue := [{ m with state := .done }]
      cells := (s.tile t).cells.put (fld m.w 34 32) (some (s.readLoad t ((sramRef m.w 80).addr m.regs) (fld m.w 79 64)
        ((sramRef m.w 105).addr m.regs) ((Fmt.ofCode (fld m.w 38 35)).getD .e4m3) (fld m.w 40 39) (shapeK (fld m.w 34 32) false)
        (shapeN (fld m.w 34 32) false) (fld m.w 47 41) (fld m.w 54 48))) } := by
  unfold State.endLoad
  simp only [hp, Option.map_none, Option.getD_none, State.loadPoison_congr (State.bump_poisonWords ..), hl,
    State.readLoad_congr (State.bump_mem ..)]
  rw [State.kickArray_of_queue (m := { m with state := .done })]
  · simp [State.moveDone, hq]
  · simp [State.moveDone, hq]
  · simp

/-! ## The start of a pass and of a granule (R46, R107, R114, R156) -/

/-- A ring pass that waits takes its next granule. -/
theorem exec_passStart_of_ring {s : State} {t : TileIx} {r : Run} {m : QMove} {p : PassSpec} (hr : s.tileRuns t = true)
    (hj : s.unitJob t ≠ none) (hx : (s.tile t).runs = [r]) (hs : runSpec t (s.tile t) r = some (m, p))
    (hp : p.ring.isSome = true) (hg : r.taken < p.granules.length) :
    exec (.passStart t) s = .next (s.takeGranule t r m p ((((s.tile t).cells.load p.shape).map Load.kv).getD p.k)) := by
  rw [exec, execPassStart]
  simp only [hx, List.findSome?_cons, hs, Option.bind_some, hp, hg, decide_true, Bool.and_self, if_true]
  exact when_of_true _ (by simp [hr, Option.isSome_iff_ne_none.2 hj])

/-- A granule taken with FILL above 0, no poison anywhere and no SPACE tally. -/
theorem State.takeGranule_tile {s : State} {t : Nat} {r : Run} {m : QMove} {p : PassSpec} (kv : Nat)
    (hx : (s.tile t).runs = [r]) (hf : (((s.tile t).tallies.toArray[fld m.w 61 56]?).getD 0).toNat ≠ 0)
    (hp : s.poisonWords = []) (hb : bit m.w 70 = false) :
    (s.takeGranule t r m p kv).tile t = { s.tile t with
      tallies := (s.tile t).tallies.setIfInBounds (fld m.w 61 56)
        (BitVec.ofNat 32 ((((s.tile t).tallies.toArray[fld m.w 61 56]?).getD 0).toNat - 1))
      runs := [{ r with
        taken := r.taken + 1
        ringBytes := r.ringBytes ++ s.sram t (p.src + p.granules.getD r.taken 0 * 256 % (p.ring.getD 4096)) 256 }] } := by
  unfold State.takeGranule
  simp only [hf, hp, hb, if_false]
  simp [hx, mapIf]

/-- No ring pass waits, and the first array move may start: it is checked and begins. -/
theorem exec_passStart_of_move {s : State} {t : TileIx} {m : QMove} (hx : (s.tile t).runs = []) (hs : s.mayStart t = true)
    (hn : (s.tile t).nextArray = some m)
    (hq : ((s.tile t).queue.find? fun m => m.unit == .array && m.state == .queued) = some m) :
    exec (.passStart t) s = .next (if Hdr.op m.w = 0x21 then s.startPass t m
      else if Hdr.op m.w = 0x22 then (s.startSplit t m).kickArray t else s) := by
  rw [exec, execPassStart]
  simp only [hx, List.findSome?_nil, hq]
  exact when_of_true _ (by simp [hs, hn])

/-- A move that has begun before keeps the pass index that it took (R114). -/
theorem State.startMove_tile (s : State) (t : Nat) (m : QMove) : (s.startMove t m).tile t = { s.tile t with
    queue := mapIf (fun y => y.id == m.id) (fun m => { m with state := .started, began := true }) (s.tile t).queue
    passIx := if m.began then (s.tile t).passIx else (s.tile t).passIx + 1 } := by
  unfold State.startMove
  dsimp only
  split <;> simp

theorem State.startMove_keeps {α : Type} (g : Tile → α) (h : ∀ x q i, g { x with queue := q, passIx := i } = g x) (s : State)
    (t u : Nat) (m : QMove) : g ((s.startMove t m).tile u) = g (s.tile u) := by
  by_cases hu : u = t
  · rw [hu, State.startMove_tile, h]
  · unfold State.startMove State.modMove
    dsimp only
    split
    · rw [State.tile_modTile_ne _ _ hu]
    · rw [State.tile_modTile_ne _ _ hu, State.tile_modTile_ne _ _ hu]

@[simp] theorem State.countRepeat_tiles (s : State) (p : PassSpec) (n : Nat) : (s.countRepeat p n).tiles = s.tiles := by
  unfold State.countRepeat
  dsimp only
  repeat' split
  all_goals simp

@[simp] theorem State.countRepeat_tile (s : State) (p : PassSpec) (n t : Nat) : (s.countRepeat p n).tile t = s.tile t :=
  State.tile_congr (s.countRepeat_tiles p n) t

/-- A pass that has not been abandoned begins with the attempt that its rows ask for (R116, R117). -/
theorem State.beginRun_tile (s : State) (t : Nat) {m : QMove} (hm : m.attempts = []) (p : PassSpec) (nv : Nat)
    (q : Option QuadIx) (l : Option Load) (ch : Bool) : (s.beginRun t m p nv q l ch).tile t = { s.tile t with
      runs := (s.tile t).runs ++ [{
        id := m.id, quad := q, attempt := (s.startsAs p nv).2, escalated := (s.startsAs p nv).1, load := l, chained := ch }] } := by
  unfold State.beginRun
  simp only [hm]
  cases h : (s.startsAs p nv).1 <;> simp

/-- The half-rows of a range depend on the accumulators only. -/
theorem State.halfRows_congr {s u : State} (h : ∀ v, (u.tile v).acc = (s.tile v).acc) (p : PassSpec) (nv : Nat) :
    u.halfRows p nv = s.halfRows p nv := by
  simp only [State.halfRows, Tile.accRow, h]

theorem State.startsAs_congr {s u : State} (h : ∀ v, (u.tile v).acc = (s.tile v).acc) (p : PassSpec) (nv : Nat) :
    u.startsAs p nv = s.startsAs p nv := by
  simp only [State.startsAs, State.halfRows_congr h]

/-- A PASS whose rows and operand pass the checks at start, on a tile with no run. -/
theorem State.startPass_tile {s : State} {t : Nat} {m : QMove} {p : PassSpec} {l : Load} (hx : (s.tile t).runs = [])
    (hm : m.attempts = []) (hp : passSpec t (s.tile t) m = some p) (hl : (s.tile t).cells.load p.shape = some l)
    (hf : l.fmt = p.fmtT) (hb : l.blk = p.blkT) (hc : s.startCheck p l.nv = none) :
    (s.startPass t m).tile t = { s.tile t with
      runs := [{ id := m.id, attempt := (s.startsAs p l.nv).2, escalated := (s.startsAs p l.nv).1 }]
      queue := mapIf (fun y => y.id == m.id) (fun m => { m with state := .started, began := true }) (s.tile t).queue
      passIx := if m.began then (s.tile t).passIx else (s.tile t).passIx + 1 } := by
  have hnv : p.nvOf (some l) = l.nv := rfl
  unfold State.startPass
  simp only [hp, hl, hnv, hc, hf, hb]
  simp [State.startMove_tile, State.beginRun_tile _ _ hm, hx]

/-! ### PASS_SPLIT (R56 to R58, R157) -/

/-- A quadrant whose load meets no poison begins with what it read (R56, R157). -/
theorem State.startQuad_eq {s : State} {t : Nat} {m : QMove} {q : QuadIx} {p : PassSpec}
    (hl : s.loadPoison t (recFld m.desc q 115 96) (if recFld m.desc q 31 16 = 0 then p.fmtT.bytes 16 else recFld m.desc q 31 16)
      (recFld m.desc q 135 116) p.fmtT p.blkT 16 (recFld m.desc q 6 0) (recFld m.desc q 13 7) = none) :
    s.startQuad t m q p =
      let l := s.readLoad t (recFld m.desc q 115 96) (recFld m.desc q 31 16) (recFld m.desc q 135 116) p.fmtT p.blkT 16 16
        (recFld m.desc q 6 0) (recFld m.desc q 13 7)
      (((s.modTile t fun x => { x with cells := x.cells.put q.val (some l) }).countLoad t l).beginRun t m p
        (recFld m.desc q 13 7) (some q) (some l), none) := by
  simp only [State.startQuad, hl]

/-- The quadrants that a PASS_SPLIT starts where only the first has work (R157). -/
theorem splitQuads_first {t : Nat} {m : QMove} {p : PassSpec} (hq : m.quads = [3, 2, 2, 2]) (hp : splitSpec t m 0 = some p) :
    ((List.finRange 4).filterMap fun q : QuadIx =>
      if m.quads.getD q.val 2 == 3 then (splitSpec t m q.val).map fun p => (q, p) else none) = [(0, p)] := by
  have h4 : List.finRange 4 = [0, 1, 2, 3] := by decide
  simp [h4, hq, hp]

/-- A PASS_SPLIT in which only the first quadrant has work, whose rows and load pass their checks. -/
theorem State.startSplit_tile {s : State} {t : Nat} {m : QMove} {p : PassSpec} (hx : (s.tile t).runs = [])
    (hm : m.attempts = []) (hq : m.quads = [3, 2, 2, 2]) (hm1 : (s.tile t).queue = [m]) (hp : splitSpec t m 0 = some p)
    (hc : s.startCheck p (recFld m.desc 0 13 7) = none)
    (hl : s.loadPoison t (recFld m.desc 0 115 96) (if recFld m.desc 0 31 16 = 0 then p.fmtT.bytes 16 else recFld m.desc 0 31 16)
      (recFld m.desc 0 135 116) p.fmtT p.blkT 16 (recFld m.desc 0 6 0) (recFld m.desc 0 13 7) = none) :
    ((s.startSplit t m).tile t).queue = [{ m with state := .started, began := true }] ∧
    ((s.startSplit t m).tile t).runs = [{
      id := m.id, quad := some 0, attempt := (s.startsAs p (recFld m.desc 0 13 7)).2
      escalated := (s.startsAs p (recFld m.desc 0 13 7)).1
      load := some (s.readLoad t (recFld m.desc 0 115 96) (recFld m.desc 0 31 16) (recFld m.desc 0 135 116) p.fmtT p.blkT 16 16
        (recFld m.desc 0 6 0) (recFld m.desc 0 13 7)) }] := by
  have hpoison : ((s.startMove t m).bump .tileArrayLoadSteps (t / 512) 0 16).poisonWords = s.poisonWords := by
    unfold State.startMove; dsimp only; split <;> simp
  have hmem : ((s.startMove t m).bump .tileArrayLoadSteps (t / 512) 0 16).mem = s.mem := by
    unfold State.startMove; dsimp only; split <;> simp
  have hacc (c : Tile → Cells) (l : Load) (v : Nat) :
      (((((s.startMove t m).bump .tileArrayLoadSteps (t / 512) 0 16).modTile t fun x =>
        { x with cells := c x }).countLoad t l).tile v).acc = (s.tile v).acc := by
    have hcells (x : Tile) : ({ x with cells := c x } : Tile).acc = x.acc := rfl
    rw [State.countLoad_tile, State.modTile_keeps Tile.acc _ t v hcells, State.bump_tile,
      State.startMove_keeps Tile.acc fun _ _ _ => rfl]
  have hquad := State.startQuad_eq (s := (s.startMove t m).bump .tileArrayLoadSteps (t / 512) 0 16) (t := t) (m := m)
    (q := 0) (p := p) (by rw [State.loadPoison_congr hpoison]; exact hl)
  unfold State.startSplit
  simp only [splitQuads_first hq hp, List.findSome?_cons, List.findSome?_nil, List.foldl_cons, List.foldl_nil, List.isEmpty_cons,
    hquad, Fin.val_zero, hc, State.readLoad_congr hmem]
  simp [State.beginRun_tile _ _ hm, State.startsAs_congr (hacc _ _), State.startMove_tile, hx, hm1]

/-! ## Overflow (R115, R118, R122) -/

@[simp] theorem State.countScales_tiles (s : State) (e : Eval) (a b : Nat) : (s.countScales e a b).tiles = s.tiles := by
  unfold State.countScales; dsimp only; split <;> simp

@[simp] theorem State.countScales_jobs (s : State) (e : Eval) (a b : Nat) : (s.countScales e a b).jobs = s.jobs := by
  unfold State.countScales; dsimp only; split <;> simp

@[simp] theorem State.countOut_tiles (s : State) (e : Eval) (k : Option (Nat × Nat)) : (s.countOut e k).tiles = s.tiles := by
  simp [State.countOut]

@[simp] theorem State.countOut_jobs (s : State) (e : Eval) (k : Option (Nat × Nat)) : (s.countOut e k).jobs = s.jobs := by
  simp [State.countOut]

@[simp] theorem State.addBusy_jobs (s : State) (t : Nat) (r : Run) (n : Nat) : (s.addBusy t r n).jobs = s.jobs := by
  unfold State.addBusy; split <;> simp

/-- The steps of a PASS are counted at once (R75). -/
theorem State.addBusy_tiles {r : Run} (h : r.quad = none) (s : State) (t n : Nat) : (s.addBusy t r n).tiles = s.tiles := by
  simp [State.addBusy, h]

/-- Those of a quadrant are kept with its move. -/
theorem State.addBusy_tile (s : State) (t : Nat) (r : Run) (n : Nat) :
    ∃ q, (s.addBusy t r n).tile t = { s.tile t with queue := q } := by
  unfold State.addBusy
  split
  · exact ⟨_, s.bump_tile _ _ _ _ t⟩
  · exact ⟨_, s.modMove_tile _ _ _⟩

/-- What a stopped attempt has counted, before its steps (log 14). -/
theorem State.stopAttempt_eq (s : State) (t : Nat) (r : Run) (out read n : Nat) :
    ∃ u : State, s.stopAttempt t r out read n = u.addBusy t r n ∧ u.tiles = s.tiles ∧ u.jobs = s.jobs := by
  unfold State.stopAttempt
  split
  · exact ⟨_, rfl, by simp, by simp⟩
  · exact ⟨_, rfl, rfl, rfl⟩

theorem State.stopAttempt_tiles {r : Run} (h : r.quad = none) (s : State) (t out read n : Nat) :
    (s.stopAttempt t r out read n).tiles = s.tiles := by
  obtain ⟨u, hu, ht, -⟩ := s.stopAttempt_eq t r out read n
  rw [hu, State.addBusy_tiles h, ht]

/-- An attempt that stops changes its tile in the moves only, where steps are kept. -/
theorem State.stopAttempt_tile (s : State) (t : Nat) (r : Run) (out read n : Nat) :
    ∃ q, (s.stopAttempt t r out read n).tile t = { s.tile t with queue := q } := by
  obtain ⟨u, hu, ht, -⟩ := s.stopAttempt_eq t r out read n
  rw [hu, ← State.tile_congr ht]
  exact u.addBusy_tile t r n

@[simp] theorem State.stopAttempt_jobs (s : State) (t : Nat) (r : Run) (out read n : Nat) :
    (s.stopAttempt t r out read n).jobs = s.jobs := by
  obtain ⟨u, hu, -, hj⟩ := s.stopAttempt_eq t r out read n
  rw [hu, State.addBusy_jobs, hj]

/-- The job of a tile's units is told by the jobs, and by whom the tile is prepared for. -/
theorem State.unitJob_congr {s u : State} {t : Nat} {q : List QMove} (hj : u.jobs = s.jobs)
    (ht : u.tile t = { s.tile t with queue := q }) : u.unitJob t = s.unitJob t := by
  simp only [State.unitJob, ht, State.job, hj]

theorem exec_attemptOverflow {s : State} {t : TileIx} {q : Option QuadIx} {r : Run} {e : Eval} {i : Nat} (hr : s.tileRuns t = true)
    (hj : s.unitJob t ≠ none) (hq : (s.tile t).runOf q = some r) (he : s.evalRun t r = some e) (hi : overflowRow e.out = some i)
    (ha : r.attempt < 3) (hp : ∀ k a, s.streamPoison e.p e.l.kv = some (k, a) → i < k) :
    exec (.attemptOverflow t q) s = .next (s.overflowed t r e i) := by
  have hpoison : ((s.streamPoison e.p e.l.kv).all fun x => decide (i < x.1)) = true := by
    cases h : s.streamPoison e.p e.l.kv with
    | none => rfl
    | some x => exact decide_eq_true (hp x.1 x.2 h)
  rw [exec, execAttemptOverflow]
  simp only [hq, he, hi]
  exact when_of_true _ (by simp [hr, Option.isSome_iff_ne_none.2 hj, ha, hpoison])

/-- Without a pre-emption request the next attempt begins (R115, R118). -/
theorem State.overflowed_runs {s : State} {t : Nat} {j : Job} (hj : s.unitJob t = some j) (hp : j.preempt = none) (r : Run)
    (e : Eval) (i : Nat) : ∃ n, ((s.overflowed t r e i).tile t).runs = mapIf (fun y => y.id == r.id && y.quad == r.quad)
      (fun y => { y with attempt := y.attempt + 1, chained := false, seen := max y.seen n }) (s.tile t).runs := by
  obtain ⟨q, hq⟩ : ∃ q, (s.stopOnRow t r e.p i).tile t = { s.tile t with queue := q } := s.stopAttempt_tile _ _ _ _ _
  have hjob : (s.stopOnRow t r e.p i).unitJob t = some j :=
    (State.unitJob_congr (State.stopAttempt_jobs _ _ _ _ _ _) hq).trans hj
  unfold State.overflowed
  simp only [hjob, Option.bind_some, hp]
  refine ⟨max (i + 1) (r.entered e.p (2 * i / r.rate2 e.p + latency e.p.shape)), ?_⟩
  simp only [Option.isSome_none, Bool.false_eq_true, if_false, State.tile_modTile, State.countRepeat_tile, hq]

/-! ## The end of a run (R58, R106, R157) -/

theorem State.dropRun_tile {s : State} {t : Nat} {r : Run} (hx : (s.tile t).runs = [r]) :
    (s.dropRun t r).tile t = { s.tile t with runs := [] } := by
  simp [State.dropRun, hx]

@[simp] theorem State.dropRun_acc (s : State) (t v : Nat) (r : Run) : ((s.dropRun t r).tile v).acc = (s.tile v).acc := by
  have hruns (x : Tile) : ({ x with runs := x.runs.filter fun y => !(y.id == r.id && y.quad == r.quad) } : Tile).acc = x.acc := rfl
  exact s.modTile_keeps Tile.acc t v hruns

/-- A PASS ends, with the tile's only move, and the array has nothing more to carry out. -/
theorem State.endRun_pass {s : State} {t : Nat} {r : Run} {m : QMove} (hx : (s.tile t).runs = [r]) (hq : (s.tile t).queue = [m])
    (hm : m.id = r.id) (hr : r.quad = none) (st : Nat) :
    (((s.endRun t r st).kickArray t).tile t).runs = [] ∧
    (((s.endRun t r st).kickArray t).tile t).queue = [{ m with state := .done }] ∧
    ∀ v, (((s.endRun t r st).kickArray t).tile v).acc = (s.tile v).acc := by
  have hend : s.endRun t r st = (s.dropRun t r).moveDone t m.id := by simp only [State.endRun, hr, hm]
  have hqueue : (((s.dropRun t r).moveDone t m.id).tile t).queue = [{ m with state := .done }] := by
    simp [State.moveDone, State.dropRun_tile hx, hq]
  rw [hend, State.kickArray_of_queue hqueue (by simp)]
  exact ⟨by simp [State.moveDone, State.dropRun_tile hx], hqueue, fun v => by simp [State.moveDone]⟩

/-- No quadrant of the tile's only move is in flight: the steps it kept are counted (R75). -/
theorem State.flushBusy_tile {s : State} {t : Nat} {m : QMove} (hx : (s.tile t).runs = []) (hq : (s.tile t).queue = [m]) :
    (s.flushBusy t m.id).tile t = { s.tile t with queue := [{ m with busy := [0, 0, 0, 0] }] } := by
  have hfind : (s.tile t).move m.id = some m := by simp [Tile.move, hq]
  simp only [State.flushBusy, hx, hfind, List.any_nil, Bool.false_eq_true, if_false, State.modMove_tile, State.bump_tile, hq]
  rw [mapIf_singleton_id]

@[simp] theorem State.flushBusy_acc (s : State) (t id v : Nat) : ((s.flushBusy t id).tile v).acc = (s.tile v).acc := by
  unfold State.flushBusy
  dsimp only
  repeat' split
  all_goals simp

/-- The last quadrant of a PASS_SPLIT ends, with the tile's only move. -/
theorem State.endRun_quadrant {s : State} {t : Nat} {r : Run} {m : QMove} {q : QuadIx} {st : Nat} (hx : (s.tile t).runs = [r])
    (hq : (s.tile t).queue = [m]) (hm : m.id = r.id) (hr : r.quad = some q) (hl : (m.quads.set q.val st).all (· != 3) = true) :
    (((s.endRun t r st).kickArray t).tile t).runs = [] ∧
    (((s.endRun t r st).kickArray t).tile t).queue =
      [{ m with quads := m.quads.set q.val st, state := .done, busy := [0, 0, 0, 0] }] ∧
    ∀ v, (((s.endRun t r st).kickArray t).tile v).acc = (s.tile v).acc := by
  obtain ⟨u, hend, hu, hacc⟩ : ∃ u : State, s.endRun t r st = u.flushBusy t m.id ∧
      u.tile t = { s.tile t with runs := [], queue := [{ m with quads := m.quads.set q.val st, state := .done }] } ∧
      ∀ v, (u.tile v).acc = (s.tile v).acc := by
    refine ⟨_, by simp only [State.endRun, hr, hm]; rfl, ?_, fun v => by simp⟩
    simp only [State.modMove_tile, State.dropRun_tile hx, hq, mapIf_singleton hm, hl, if_true]
  have htile := State.flushBusy_tile (m := { m with quads := m.quads.set q.val st, state := .done }) (by rw [hu]) (by rw [hu])
  rw [State.kickArray_of_queue (by rw [hend, htile]) (by simp)]
  exact ⟨by rw [hend, htile, hu], by rw [hend, htile], fun v => by rw [hend, State.flushBusy_acc, hacc]⟩

/-! ## Commits (R44, R58, R106) -/

/-- What of a tile no write of a row address changes, no commit of a half-row does. -/
theorem State.commitHalf_keeps {α : Type} (g : Tile → α) (hg : ∀ (x : Tile) a r, g (x.setAccRow a r) = g x) (s : State)
    (p : PassSpec) (k : Nat × Nat) (o : HalfOut) (v : Nat) : g ((s.commitHalf p k o).tile v) = g (s.tile v) := by
  unfold State.commitHalf
  generalize p.place o.1 o.2.1 = place
  obtain ⟨t, addrs, half⟩ := place
  refine s.modTile_keeps g t v fun x => ?_
  generalize addrs.zipIdx = l
  induction l generalizing x with
  | nil => rfl
  | cons a l ih => rw [List.foldl_cons, ih, hg]

/-- What of a tile no write of a row address changes, the rows that a pass commits leave as it is. -/
theorem State.commitHalves_keeps {α : Type} (g : Tile → α) (hg : ∀ (x : Tile) a r, g (x.setAccRow a r) = g x) (s : State)
    (p : PassSpec) (k : Nat × Nat) (os : List HalfOut) (v : Nat) :
    g ((os.foldl (fun s o => s.commitHalf p k o) s).tile v) = g (s.tile v) :=
  State.foldl_keeps (fun u => g (u.tile v)) _ (fun u o => u.commitHalf_keeps g hg p k o v) os s

theorem State.commitHalf_tiles_congr {s u : State} (h : u.tiles = s.tiles) (p : PassSpec) (k : Nat × Nat) (o : HalfOut) :
    (u.commitHalf p k o).tiles = (s.commitHalf p k o).tiles := by
  simp only [State.commitHalf, State.modTile, State.setTile, State.tile_congr h, h]

/-- The rows that a pass commits depend on the tiles only. -/
theorem State.commitHalves_tiles_congr (p : PassSpec) (k : Nat × Nat) (os : List HalfOut) {s u : State} (h : u.tiles = s.tiles) :
    (os.foldl (fun s o => s.commitHalf p k o) u).tiles = (os.foldl (fun s o => s.commitHalf p k o) s).tiles := by
  induction os generalizing s u with
  | nil => exact h
  | cons o os ih => exact ih (State.commitHalf_tiles_congr h p k o)

/-- A commit writes its rows, and counts; its steps count, and its run ends. -/
theorem State.commitRun_eq (s : State) (t : Nat) (r : Run) (e : Eval) :
    ∃ u w : State, s.commitRun t r e = (u.endRun t r 0).kickArray t ∧ u.tiles = (w.addBusy t r (r.steps e.p)).tiles ∧
      w.tiles = (e.out.foldl (fun s o => s.commitHalf e.p (commitKind e.p.mode r.attempt r.escalated) o) s).tiles := by
  refine ⟨_, (e.out.foldl (fun s o => s.commitHalf e.p (commitKind e.p.mode r.attempt r.escalated) o)
    ((s.countScales e r.seen e.p.rows).countOut e (some (commitKind e.p.mode r.attempt r.escalated)))).bump
      .tileArrayPasses (t / 512), rfl, ?_, (State.bump_tiles _ _ _ _ _).trans (State.commitHalves_tiles_congr _ _ _ ?_)⟩
  · split <;> split <;> simp
  · rw [State.countOut_tiles, State.countScales_tiles]

theorem exec_passCommit {s : State} {t : TileIx} {r : Run} {e : Eval} (hx : (s.tile t).runs.head? = some r)
    (he : s.evalRun t r = some e) (hr : r.quad = none) (hc : s.mayCommit t r e = true) :
    exec (.passCommit t) s = .next (s.commitRun t r e) := by
  rw [exec, execPassCommit]
  simp only [hx, he]
  exact when_of_true _ (by simp [hr, hc])

theorem exec_quadrantCommit {s : State} {t : TileIx} {q : QuadIx} {r : Run} {e : Eval}
    (hx : ((s.tile t).runs.find? fun r => r.quad == some q) = some r) (he : s.evalRun t r = some e)
    (hc : s.mayCommit t r e = true) : exec (.quadrantCommit t q) s = .next (s.commitRun t r e) := by
  rw [exec, execQuadrantCommit]
  simp only [hx, he]
  exact when_of_true _ hc

/-- A PASS commits, with the tile's only run and move. -/
theorem State.commitRun_pass {s : State} {t : Nat} {r : Run} {m : QMove} (e : Eval) (hx : (s.tile t).runs = [r])
    (hq : (s.tile t).queue = [m]) (hm : m.id = r.id) (hr : r.quad = none) :
    ((s.commitRun t r e).tile t).runs = [] ∧ ((s.commitRun t r e).tile t).queue = [{ m with state := .done }] ∧
    ∀ v, ((s.commitRun t r e).tile v).acc =
      ((e.out.foldl (fun s o => s.commitHalf e.p (commitKind e.p.mode r.attempt r.escalated) o) s).tile v).acc := by
  obtain ⟨u, w, hc, hu, hw⟩ := s.commitRun_eq t r e
  have htile := State.tile_congr ((hu.trans (State.addBusy_tiles hr w t _)).trans hw)
  obtain ⟨hruns, hqueue, hacc⟩ := State.endRun_pass (s := u) (t := t) (r := r) (m := m)
    (by rw [htile, State.commitHalves_keeps Tile.runs fun _ _ _ => rfl, hx])
    (by rw [htile, State.commitHalves_keeps Tile.queue fun _ _ _ => rfl, hq]) hm hr 0
  rw [hc]
  exact ⟨hruns, hqueue, fun v => by rw [hacc, htile]⟩

/-- The last quadrant of a PASS_SPLIT commits, with the tile's only run and move. -/
theorem State.commitRun_quadrant {s : State} {t : Nat} {r : Run} {m : QMove} {q : QuadIx} (e : Eval) (hx : (s.tile t).runs = [r])
    (hq : (s.tile t).queue = [m]) (hm : m.id = r.id) (hr : r.quad = some q) (hl : (m.quads.set q.val 0).all (· != 3) = true) :
    ((s.commitRun t r e).tile t).runs = [] ∧
    ((s.commitRun t r e).tile t).queue = [{ m with quads := m.quads.set q.val 0, state := .done, busy := [0, 0, 0, 0] }] ∧
    ∀ v, ((s.commitRun t r e).tile v).acc =
      ((e.out.foldl (fun s o => s.commitHalf e.p (commitKind e.p.mode r.attempt r.escalated) o) s).tile v).acc := by
  obtain ⟨u, w, hc, hu, hw⟩ := s.commitRun_eq t r e
  have hbusy : w.addBusy t r (r.steps e.p) =
      w.modMove t r.id fun m => { m with busy := m.busy.set q.val (m.busy.getD q.val 0 + r.steps e.p) } := by
    simp only [State.addBusy, hr]
  rw [hbusy] at hu
  let m' : QMove := { m with busy := m.busy.set q.val (m.busy.getD q.val 0 + r.steps e.p) }
  have htile : u.tile t = { w.tile t with queue := [m'] } := by
    have hqueue : (w.tile t).queue = [m] := by
      rw [State.tile_congr hw, State.commitHalves_keeps Tile.queue fun _ _ _ => rfl, hq]
    rw [State.tile_congr hu, State.modMove_tile, hqueue, mapIf_singleton hm]
  have hwruns : (w.tile t).runs = [r] := by
    rw [State.tile_congr hw, State.commitHalves_keeps Tile.runs fun _ _ _ => rfl, hx]
  obtain ⟨hruns, hqueue, hacc⟩ := State.endRun_quadrant (m := m') (st := 0) (by rw [htile]; exact hwruns)
    (by rw [htile]) hm hr hl
  rw [hc]
  refine ⟨hruns, hqueue, fun v => ?_⟩
  rw [hacc, State.tile_congr hu, State.modMove_acc, State.tile_congr hw]

/-! ## Faults of a pass (R59, R60, R67, R106) -/

/-- A property that one step of a run of updates brings about, and that every step keeps, holds at the end. -/
theorem foldl_establishes {α β : Type} {f : β → α → β} {P : β → Prop} {a : α} {l : List α} (ha : a ∈ l)
    (hset : ∀ b, P (f b a)) (hkeep : ∀ b c, P b → P (f b c)) (b : β) : P (l.foldl f b) := by
  induction l generalizing b with
  | nil => cases ha
  | cons c l ih =>
    rcases List.mem_cons.1 ha with rfl | hl
    · exact List.foldlRecOn l f (motive := P) (hset b) fun b hb c _ => hkeep b c hb
    · exact ih hl (f b c)

theorem find?_insertRow_ne {a b : Nat} (h : a ≠ b) (r : AccRow) (l : List (Nat × AccRow)) :
    (insertRow a r l).find? (fun p => p.1 == b) = l.find? fun p => p.1 == b := by
  induction l with
  | nil => unfold insertRow; split <;> simp [h]
  | cons p ps ih =>
    unfold insertRow
    split
    case isTrue hp => split <;> simp [hp, h]
    case isFalse =>
      split
      · split <;> simp [h]
      · simp [List.find?_cons, ih]

/-- A row that is not a row of zeros with reset metadata is listed. -/
theorem find?_insertRow_same (a : Nat) {r : AccRow} (h : r ≠ {}) (l : List (Nat × AccRow)) :
    (insertRow a r l).find? (fun p => p.1 == a) = some (a, r) := by
  induction l with
  | nil => rw [insertRow, if_neg h]; simp
  | cons p ps ih =>
    unfold insertRow
    rw [if_neg h, if_neg h]
    split
    · simp
    · split
      · simp
      · simp [*]

theorem Tile.accRow_setAccRow_ne (x : Tile) {a b : Nat} (h : a ≠ b) (r : AccRow) : (x.setAccRow a r).accRow b = x.accRow b := by
  simp only [Tile.accRow, Tile.setAccRow, find?_insertRow_ne h]

theorem Tile.accRow_setAccRow_same (x : Tile) (a : Nat) {r : AccRow} (h : r ≠ {}) : (x.setAccRow a r).accRow a = r := by
  simp [Tile.accRow, Tile.setAccRow, find?_insertRow_same a h]

/-- The metadata byte of a column half, written and read: `0` names one half and any other number the other (R103). -/
theorem AccRow.meta_setMeta_same (r : AccRow) {h k v : Nat} (hk : k = 0 ↔ h = 0) (hv : v < 256) : (r.setMeta h v).meta k = v := by
  by_cases h0 : h = 0 <;> simp [AccRow.setMeta, AccRow.meta, hk, h0, Nat.mod_eq_of_lt hv]

theorem AccRow.meta_setMeta_other (r : AccRow) {h k : Nat} (hk : ¬(k = 0 ↔ h = 0)) (v : Nat) :
    (r.setMeta h v).meta k = r.meta k := by
  by_cases h0 : h = 0
  · have : k ≠ 0 := by omega
    simp [AccRow.setMeta, AccRow.meta, h0, this]
  · have : k = 0 := by omega
    simp [AccRow.setMeta, AccRow.meta, h0, this]

/-- POISON set in the metadata byte of a half-row (R103). -/
def AccRow.poisonMeta (r : AccRow) (half : Nat) : AccRow := r.setMeta half (r.meta half % 128 + 128)

theorem AccRow.poison_poisonMeta (r : AccRow) {half k : Nat} (hk : k = 0 ↔ half = 0) :
    Meta.poison ((r.poisonMeta half).meta k) = true := by
  rw [AccRow.poisonMeta, AccRow.meta_setMeta_same r hk (by omega), Meta.poison, decide_eq_true_eq]
  omega

/-- POISON set in one half-row leaves it set in the other. -/
theorem AccRow.poison_poisonMeta_of {r : AccRow} {k : Nat} (half : Nat) (h : Meta.poison (r.meta k) = true) :
    Meta.poison ((r.poisonMeta half).meta k) = true := by
  by_cases hk : k = 0 ↔ half = 0
  · exact r.poison_poisonMeta hk
  · rw [AccRow.poisonMeta, AccRow.meta_setMeta_other r hk]; exact h

/-- A row of zeros with reset metadata has no POISON. -/
theorem AccRow.poisonMeta_ne (r : AccRow) (half : Nat) : r.poisonMeta half ≠ {} := by
  intro h
  have hp := r.poison_poisonMeta (Iff.refl (half = 0))
  rw [h] at hp
  unfold AccRow.meta at hp
  split at hp <;> exact absurd hp (by decide)

/-- POISON set in the half-row at a row address of a tile (R60). -/
def Tile.poisonRow (half : Nat) (x : Tile) (a : Nat) : Tile := x.setAccRow a ((x.accRow a).poisonMeta half)

/-- A half-row of a tile is poisoned. -/
def Tile.Poisoned (x : Tile) (a half : Nat) : Prop := Meta.poison ((x.accRow a).meta half) = true

theorem Tile.poisoned_poisonRow (x : Tile) (a half : Nat) : (x.poisonRow half a).Poisoned a half := by
  rw [Tile.Poisoned, Tile.poisonRow, Tile.accRow_setAccRow_same _ _ (AccRow.poisonMeta_ne _ _)]
  exact AccRow.poison_poisonMeta _ Iff.rfl

theorem Tile.Poisoned.poisonRow {x : Tile} {b k : Nat} (h : x.Poisoned b k) (half a : Nat) : (x.poisonRow half a).Poisoned b k := by
  unfold Tile.Poisoned Tile.poisonRow
  by_cases hab : a = b
  · rw [hab, Tile.accRow_setAccRow_same _ _ (AccRow.poisonMeta_ne _ _)]
    exact AccRow.poison_poisonMeta_of half h
  · rw [Tile.accRow_setAccRow_ne _ hab]; exact h

/-- The half-row of one result half of a row of the range. -/
def State.poisonPlace (s : State) (p : PassSpec) (j h : Nat) : State :=
  s.modTile (p.place j h).1 fun x => (p.place j h).2.1.foldl (Tile.poisonRow (p.place j h).2.2) x

theorem State.poisonRange_eq (s : State) (p : PassSpec) : s.poisonRange p =
    (List.range p.len).foldl (fun s j => (List.range (p.n / 16)).foldl (fun s h => s.poisonPlace p j h) s) s := rfl

theorem State.poisonPlace_sets (s : State) (p : PassSpec) {j h a : Nat} (ha : a ∈ (p.place j h).2.1) :
    ((s.poisonPlace p j h).tile (p.place j h).1).Poisoned a (p.place j h).2.2 := by
  rw [State.poisonPlace, State.tile_modTile]
  exact foldl_establishes (P := fun x => Tile.Poisoned x a (p.place j h).2.2) ha (fun x => x.poisoned_poisonRow a _)
    (fun _ c hx => hx.poisonRow _ c) _

theorem State.poisonPlace_keeps {s : State} {v b k : Nat} (hs : (s.tile v).Poisoned b k) (p : PassSpec) (j h : Nat) :
    ((s.poisonPlace p j h).tile v).Poisoned b k := by
  unfold State.poisonPlace
  by_cases hv : v = (p.place j h).1
  · rw [← hv, State.tile_modTile]
    exact List.foldlRecOn _ _ (motive := fun x : Tile => x.Poisoned b k) hs fun x hx c _ => hx.poisonRow _ c
  · rw [State.tile_modTile_ne _ _ hv]; exact hs

/-- Every half-row of the range is poisoned (R60, R106). -/
theorem State.poisonRange_poisoned (s : State) (p : PassSpec) {j h a : Nat} (hj : j < p.len) (hh : h < p.n / 16)
    (ha : a ∈ (p.place j h).2.1) : ((s.poisonRange p).tile (p.place j h).1).Poisoned a (p.place j h).2.2 := by
  rw [State.poisonRange_eq]
  refine foldl_establishes (P := fun u : State => (u.tile (p.place j h).1).Poisoned a (p.place j h).2.2)
    (List.mem_range.2 hj) (fun u => ?_) (fun u i hu => ?_) s
  · exact foldl_establishes (P := fun u : State => (u.tile (p.place j h).1).Poisoned a (p.place j h).2.2)
      (List.mem_range.2 hh) (fun u => u.poisonPlace_sets p ha) (fun u i hu => State.poisonPlace_keeps hu p j i) u
  · exact List.foldlRecOn _ _ (motive := fun u : State => (u.tile (p.place j h).1).Poisoned a (p.place j h).2.2) hu
      fun u hu k _ => State.poisonPlace_keeps hu p i k

/-- What of a tile no write of a row address changes, the poisoning of a range leaves as it is. -/
theorem State.poisonRange_keeps {α : Type} (g : Tile → α) (hg : ∀ (x : Tile) a r, g (x.setAccRow a r) = g x) (s : State)
    (p : PassSpec) (v : Nat) : g ((s.poisonRange p).tile v) = g (s.tile v) := by
  have hrows (half : Nat) (l : List Nat) (x : Tile) : g (l.foldl (Tile.poisonRow half) x) = g x := by
    induction l generalizing x with
    | nil => rfl
    | cons a l ih => rw [List.foldl_cons, ih, Tile.poisonRow, hg]
  have hplace (u : State) (j h : Nat) : g ((u.poisonPlace p j h).tile v) = g (u.tile v) := u.modTile_keeps g _ v (hrows _ _)
  rw [State.poisonRange_eq]
  exact State.foldl_keeps (fun u => g (u.tile v)) _
    (fun u j => State.foldl_keeps (fun u => g (u.tile v)) _ (fun u h => hplace u j h) _ u) _ s

/-! ### The events of a fault -/

/-- The run, move and pass that a fault in a quadrant meets are those of the tile. -/
theorem exec_arrayFault_of_hit {s : State} {t : TileIx} {cause : ArrayCause} {q : QuadIx} {rook : Bool} {r : Run} {m : QMove}
    {p : PassSpec} (hr : s.tileRuns t = true) (hj : s.unitJob t ≠ none) (hit : (s.tile t).hit t q rook = some (r, m, p))
    (hc : cause = .stationaryParity ∨ cause = .accUncorrectable ∧ p.ovw = false) :
    exec (.arrayFault t cause q rook) s =
      .next ((s.stopSomewhere t r p 1).faultRun t r m p (causeStatus cause) q.val rook) := by
  have hjob := Option.isSome_iff_ne_none.2 hj
  rw [exec, execArrayFault]
  simp only [hit]
  rcases hc with rfl | ⟨rfl, ho⟩
  · exact when_of_true _ (by simp [hr, hjob])
  · exact when_of_true _ (by simp [hr, hjob, ho])

theorem exec_handshakeTimeout_of_hit {s : State} {t : TileIx} {q : QuadIx} {rook : Bool} {r : Run} {m : QMove} {p : PassSpec}
    (hr : s.tileRuns t = true) (hj : s.unitJob t ≠ none) (hit : (s.tile t).hit t q rook = some (r, m, p)) :
    exec (.handshakeTimeout t q rook) s =
      .next ((s.stopSomewhere t r p 4097).faultRun t r m p .handshakeTimeout q.val rook) := by
  rw [exec, execHandshakeTimeout]
  simp only [hit]
  exact when_of_true _ (by simp [hr, Option.isSome_iff_ne_none.2 hj])

/-- The third overflow of an AX pass (R122). -/
theorem exec_arrayFault_of_ledgerOverflow {s : State} {t : TileIx} {q : QuadIx} {rook : Bool} {r : Run} {m : QMove} {p : PassSpec}
    {e : Eval} {i : Nat} (hr : s.tileRuns t = true) (hj : s.unitJob t ≠ none) (hit : (s.tile t).hit t q rook = some (r, m, p))
    (he : s.evalRun t r = some e) (hm : e.p.mode = .ax) (ha : r.attempt = 3) (hi : overflowRow e.out = some i) :
    exec (.arrayFault t .ledgerOverflow q rook) s =
      .next (((s.bump .tileLedgerOverflowFaults (t / 512)).stopOnRow t r p i).faultRun t r m p .ledgerOverflow q.val rook) := by
  have hthird : (e.p.mode == AccMode.ax && r.attempt == 3) = true := by simp [hm, ha]
  rw [exec, execArrayFault]
  simp only [hit, he, hthird, if_true, hi]
  exact when_of_true _ (by simp [hr, Option.isSome_iff_ne_none.2 hj])

/-- A parity error in a quadrant that idles in a PASS_SPLIT is counted and recorded only (R60). -/
theorem exec_arrayFault_of_idle {s : State} {t : TileIx} {q : QuadIx} {m : QMove} (hr : s.tileRuns t = true)
    (hj : s.unitJob t ≠ none) (hx : (s.tile t).runOf (some q) = none) (hm : m ∈ (s.tile t).queue) (ho : Hdr.op m.w = 0x22)
    (hs : m.state = .started) :
    exec (.arrayFault t .stationaryParity q false) s = .next ((s.bump .tileQuadFaults (t / 512) q.val).fault
      { s.tileRec t 1 .stationaryParity with pc := 0, quad := q.val, flags := 1 }) := by
  have hmiss : (s.tile t).hit t q false = none := by rw [Tile.hit, hx]; rfl
  have hidle : ((s.tile t).queue.any fun m => Hdr.op m.w == 0x22 && m.state == .started) = true :=
    List.any_eq_true.2 ⟨m, hm, by simp [ho, hs]⟩
  rw [exec, execArrayFault]
  simp only [hmiss]
  exact when_of_true _ (by simp [hr, Option.isSome_iff_ne_none.2 hj, hx, hidle])

/-- A PASS that a fault aborts, on a tile with no other run and move: it ends, and its range is poisoned (R59, R60, R106). -/
theorem State.faultRun_pass {s : State} {t : Nat} {r : Run} {m : QMove} (hx : (s.tile t).runs = [r]) (hq : (s.tile t).queue = [m])
    (hm : m.id = r.id) (hr : r.quad = none) (p : PassSpec) (extra : Nat) (st : Status) (q : Nat) (rook : Bool) :
    let u := (s.stopSomewhere t r p extra).faultRun t r m p st q rook
    (u.tile t).runs = [] ∧ (u.tile t).queue = [{ m with state := .done }] ∧
      ∀ j h, j < p.len → h < p.n / 16 → ∀ a ∈ (p.place j h).2.1,
        (u.tile (p.place j h).1).Poisoned a (p.place j h).2.2 := by
  intro u
  obtain ⟨v, w, hu, hv, hw⟩ : ∃ v w : State, u = (v.endRun t r 1).kickArray t ∧
      (∀ i, v.tile i = (w.poisonRange p).tile i) ∧ w.tiles = s.tiles := by
    refine ⟨_, s.stopSomewhere t r p extra, rfl, fun i => ?_, State.stopAttempt_tiles hr _ t _ _ _⟩
    rw [State.fault_tile, State.bump_tile]
  obtain ⟨hruns, hqueue, hacc⟩ := State.endRun_pass (s := v) (t := t) (r := r) (m := m)
    (by rw [hv, State.poisonRange_keeps Tile.runs fun _ _ _ => rfl, State.tile_congr hw, hx])
    (by rw [hv, State.poisonRange_keeps Tile.queue fun _ _ _ => rfl, State.tile_congr hw, hq]) hm hr 1
  rw [hu]
  refine ⟨hruns, hqueue, fun j h hj hh a ha => ?_⟩
  have hpoison := w.poisonRange_poisoned p hj hh ha
  simp only [Tile.Poisoned, Tile.accRow, hacc, hv] at hpoison ⊢
  exact hpoison

/-- Settles O42: each event where its conditions hold, and what it leaves of the tile. -/
theorem arrayEvents : Obligations.ArrayEvents := by
  intro s t x
  refine ⟨?load, fun hr hj => ⟨?ring, ?start, ?overflow, ?commit, ?fault, ?ledger, ?idle⟩⟩
  case load =>
    intro m hm ho hs
    have hexec := exec_loadStallEnd hm ho hs
    refine ⟨hexec, ?_⟩
    intro shape f hp hq hl
    have htile := State.endLoad_tile hp hq hl
    exact ⟨_, hexec, by rw [htile], by rw [htile]⟩
  case ring =>
    intro r m p hx hs hp hg kv fill
    have hexec := exec_passStart_of_ring hr hj hx hs hp hg
    refine ⟨hexec, fun hf hw hb => ⟨_, hexec, ?_⟩⟩
    have htile := State.takeGranule_tile (p := p) kv hx hf hw hb
    exact ⟨by rw [htile], by rw [htile]⟩
  case start =>
    intro m hs hx hn hq
    have hexec := exec_passStart_of_move hx hs hn hq
    refine ⟨fun ho => ?pass, fun ho => ?split, ?firstAttempt, ?firstQuadrant⟩
    case pass => rw [hexec, if_pos ho]
    case split => rw [hexec, ho]; rfl
    case firstAttempt =>
      intro p l ho hm hmove hp hl hf hb hc
      have htile := State.startPass_tile hx hm hp hl hf hb hc
      refine ⟨_, by rw [hexec, if_pos ho], by rw [htile], ?_, by rw [htile]⟩
      have hfind : (s.tile t).queue.find? (fun y => y.id == m.id) = some m := hmove
      have hkeep (y : QMove) : ({ y with state := .started, began := true } : QMove).id = y.id := rfl
      rw [htile]
      exact (find?_mapIf_id m.id _ hkeep _).trans (by rw [hfind]; rfl)
    case firstQuadrant =>
      intro p ho hm hquads hqueue hp f hc hl
      obtain ⟨hstarted, hruns⟩ := State.startSplit_tile hx hm hquads hqueue hp hc hl
      rw [ho] at hexec
      refine ⟨_, hexec.trans (congrArg Host.Outcome.next ?_), hruns, hstarted⟩
      exact State.kickArray_of_queue hstarted (by simp)
  case overflow =>
    intro q r e i hq he hi ha hp
    have hexec := exec_attemptOverflow hr hj hq he hi ha hp
    refine ⟨hexec, fun j hjob hpre => ?_⟩
    obtain ⟨n, hn⟩ := State.overflowed_runs hjob hpre r e i
    exact ⟨n, _, hexec, hn⟩
  case commit =>
    intro r e q he hc
    refine ⟨fun hx hpass => ?pass, fun hx => ?quadrant⟩
    case pass =>
      have hexec := exec_passCommit hx he hpass hc
      exact ⟨hexec, fun m hx hq hm => ⟨_, hexec, State.commitRun_pass e hx hq hm hpass⟩⟩
    case quadrant =>
      have hexec := exec_quadrantCommit hx he hc
      refine ⟨hexec, fun m hruns hqueue hm hl => ⟨_, hexec, ?_⟩⟩
      have hquad : r.quad = some q := beq_iff_eq.1 (List.find?_some (p := fun r : Run => r.quad == some q) hx)
      obtain ⟨hnone, hdone, hacc⟩ := State.commitRun_quadrant e hruns hqueue hm hquad hl
      exact ⟨hnone, hacc, _, hdone, rfl, rfl⟩
  case fault =>
    intro cause q rook r m p hit hc aborted
    have hfault := exec_arrayFault_of_hit hr hj hit hc
    have htimeout := exec_handshakeTimeout_of_hit hr hj hit
    exact ⟨hfault, htimeout, fun hx hq hm hquad =>
      ⟨⟨_, hfault, State.faultRun_pass hx hq hm hquad p _ _ _ _⟩,
        ⟨_, htimeout, State.faultRun_pass hx hq hm hquad p _ _ _ _⟩⟩⟩
  case ledger => exact fun q rook r m p e i hit he hm ha hi => exec_arrayFault_of_ledgerOverflow hr hj hit he hm ha hi
  case idle => exact fun q m hx hm ho hs => exec_arrayFault_of_idle hr hj hx hm ho hs

end Sys2Proof.Machine
end

section
/-! SUPPORT. Proofs of spec/03_number_formats.md: a finite code of a number format converts to itself. A decoded magnitude
already has its last place where the format rounds, so that no rounding rule is ever asked. -/

namespace Sys2Proof.Machine

/-! ## Rounding and comparing -/

@[simp] theorem roundAt_self (r : Rnd) (m : Nat) (e : Int) : roundAt r m e e = (m, false) := by simp [roundAt]

theorem magLt_of_le {e₁ e₂ : Int} (h : e₂ ≤ e₁) (m₁ m₂ : Nat) :
    magLt m₁ e₁ m₂ e₂ = decide (m₁ * 2 ^ (e₁ - e₂).toNat < m₂) := by
  simp [magLt, min_eq_right h]

/-! ## The magnitude of a code of a floating format (R80) -/

namespace FloatFmt

theorem magnitude_subnormal (f : FloatFmt) {a : Nat} (h : a < 2 ^ f.mb) : f.magnitude a = (a, f.lsb) := by
  simp [magnitude, Nat.div_eq_of_lt h, Nat.mod_eq_of_lt h]

theorem magnitude_normal (f : FloatFmt) (i : Nat) {x : Nat} (h : x < 2 ^ f.mb) :
    f.magnitude ((i + 1) * 2 ^ f.mb + x) = (x + 2 ^ f.mb, f.lsb + i) := by
  have hdiv : ((i + 1) * 2 ^ f.mb + x) / 2 ^ f.mb = i + 1 := by
    rw [Nat.add_comm, Nat.add_mul_div_right _ _ (Nat.two_pow_pos _), Nat.div_eq_of_lt h, Nat.zero_add]
  have hmod : ((i + 1) * 2 ^ f.mb + x) % 2 ^ f.mb = x := by
    rw [Nat.mul_add_mod_self_right, Nat.mod_eq_of_lt h]
  simp [magnitude, hdiv, hmod]

/-- A magnitude code is a fraction alone, or a fraction below a non-zero exponent field. -/
theorem subnormal_or_normal (f : FloatFmt) (a : Nat) :
    a < 2 ^ f.mb ∨ ∃ i x, x < 2 ^ f.mb ∧ a = (i + 1) * 2 ^ f.mb + x := by
  rcases Nat.lt_or_ge a (2 ^ f.mb) with h | h
  · exact .inl h
  · have hpos : 0 < a / 2 ^ f.mb := Nat.div_pos h (Nat.two_pow_pos _)
    refine .inr ⟨a / 2 ^ f.mb - 1, a % 2 ^ f.mb, Nat.mod_lt _ (Nat.two_pow_pos _), ?_⟩
    rw [Nat.sub_add_cancel hpos, Nat.div_add_mod']

/-- A subnormal has its last place at the weight of the smallest one. -/
theorem ulp_subnormal (f : FloatFmt) {m : Nat} (h0 : m ≠ 0) (h : m < 2 ^ f.mb) : f.ulp m f.lsb = f.lsb := by
  have hlog : m.log2 < f.mb := (Nat.log2_lt h0).2 h
  unfold ulp
  omega

/-- A significand with its leading 1 in place has its last place at its own exponent. -/
theorem ulp_normal (f : FloatFmt) (i : Nat) {x : Nat} (h : x < 2 ^ f.mb) :
    f.ulp (x + 2 ^ f.mb) (f.lsb + i) = f.lsb + i := by
  have hlog : (x + 2 ^ f.mb).log2 = f.mb := (Nat.log2_eq_iff (by positivity)).2 ⟨by omega, by omega⟩
  unfold ulp
  omega

/-- The magnitude of a code rounds to that code under every rule (R89). -/
theorem roundMag_magnitude (f : FloatFmt) (r : Rnd) (a : Nat) :
    f.roundMag r (f.magnitude a).1 (f.magnitude a).2 = (a, decide (a > f.maxCode)) := by
  rcases f.subnormal_or_normal a with h | ⟨i, x, h, rfl⟩
  · rw [magnitude_subnormal f h]
    by_cases h0 : a = 0
    · simp [roundMag, h0]
    · simp [roundMag, h0, ulp_subnormal f h0 h]
  · have hcode : i * 2 ^ f.mb + (x + 2 ^ f.mb) = (i + 1) * 2 ^ f.mb + x := by ring
    simp [magnitude_normal f i h, roundMag, ulp_normal f i h, hcode]

/-- Magnitudes are ordered as their codes. -/
theorem magLt_magnitude_of_le (f : FloatFmt) {a b : Nat} (h : a ≤ b) :
    magLt (f.magnitude b).1 (f.magnitude b).2 (f.magnitude a).1 (f.magnitude a).2 = false := by
  rcases f.subnormal_or_normal a with ha | ⟨i, x, hx, rfl⟩ <;>
    rcases f.subnormal_or_normal b with hb | ⟨j, y, hy, rfl⟩
  case inl.inl => simpa [magnitude_subnormal f ha, magnitude_subnormal f hb, magLt_of_le] using h
  case inl.inr =>
    have hscale : (y + 2 ^ f.mb) * 1 ≤ (y + 2 ^ f.mb) * 2 ^ j := Nat.mul_le_mul_left _ Nat.one_le_two_pow
    simp only [magnitude_subnormal f ha, magnitude_normal f j hy]
    rw [magLt_of_le (by omega), decide_eq_false_iff_not, add_sub_cancel_left, Int.toNat_natCast]
    omega
  case inr.inl =>
    have hlow : 1 * 2 ^ f.mb ≤ (i + 1) * 2 ^ f.mb := Nat.mul_le_mul_right _ (by omega)
    omega
  case inr.inr =>
    simp only [magnitude_normal f i hx, magnitude_normal f j hy]
    have hij : i ≤ j := by
      by_contra hji
      have hfield : (j + 2) * 2 ^ f.mb ≤ (i + 1) * 2 ^ f.mb := Nat.mul_le_mul_right _ (by omega)
      have hsucc : (j + 2) * 2 ^ f.mb = (j + 1) * 2 ^ f.mb + 2 ^ f.mb := by ring
      omega
    rw [magLt_of_le (by omega), decide_eq_false_iff_not,
      show (f.lsb + j - (f.lsb + i) : Int).toNat = j - i by omega, Nat.not_lt]
    rcases hij.eq_or_lt with rfl | hlt
    · rw [Nat.sub_self, Nat.pow_zero]
      omega
    · calc x + 2 ^ f.mb ≤ (y + 2 ^ f.mb) * 2 ^ 1 := by omega
        _ ≤ (y + 2 ^ f.mb) * 2 ^ (j - i) := by gcongr <;> omega

/-! ## Codes of the floating formats -/

/-- The codes that decode to a finite value: their sign, and their magnitude at most the largest. -/
theorem decode_eq_fin {f : FloatFmt} {c m : Nat} {neg : Bool} {e : Int} (h : f.decode c = .fin neg m e) :
    c % 2 ^ (f.eb + f.mb) ≤ f.maxCode ∧ neg = decide (c / 2 ^ (f.eb + f.mb) % 2 = 1) ∧
      f.magnitude (c % 2 ^ (f.eb + f.mb)) = (m, e) := by
  simp only [decode] at h
  split_ifs at h with hmax
  simp only [Val.fin.injEq] at h
  obtain ⟨hneg, hm, he⟩ := h
  exact ⟨hmax, hneg.symm, Prod.ext hm he⟩

/-- A finite magnitude that is a code's converts to that code with its sign. -/
theorem encode_magnitude (f : FloatFmt) (r : Rnd) (sat neg : Bool) {a : Nat} (h : a ≤ f.maxCode) :
    f.encode r sat (.fin neg (f.magnitude a).1 (f.magnitude a).2) =
      (a + (if neg then 2 ^ (f.eb + f.mb) else 0), {}) := by
  simp [encode, roundMag_magnitude, magLt_magnitude_of_le f h, Nat.not_lt.2 h]

/-- A code is its magnitude and its sign bit. -/
theorem mod_add_sign {c w : Nat} (h : c < 2 ^ (w + 1)) :
    c % 2 ^ w + (if decide (c / 2 ^ w % 2 = 1) then 2 ^ w else 0) = c := by
  have hsign : c / 2 ^ w < 2 := by
    rwa [Nat.div_lt_iff_lt_mul (Nat.two_pow_pos w), ← Nat.pow_succ']
  have hsum := Nat.mod_add_div c (2 ^ w)
  obtain h0 | h1 : c / 2 ^ w = 0 ∨ c / 2 ^ w = 1 := Nat.le_one_iff_eq_zero_or_eq_one.1 (Nat.le_of_lt_succ hsign)
  · simpa [h0] using hsum
  · simpa [h1] using hsum

theorem encode_decode {f : FloatFmt} {c m : Nat} {neg : Bool} {e : Int} (hc : c < 2 ^ (f.eb + f.mb + 1))
    (h : f.decode c = .fin neg m e) (r : Rnd) (sat : Bool) : f.encode r sat (.fin neg m e) = (c, {}) := by
  obtain ⟨hmax, rfl, hmag⟩ := decode_eq_fin h
  have hself := f.encode_magnitude r sat (decide (c / 2 ^ (f.eb + f.mb) % 2 = 1)) hmax
  rwa [hmag, mod_add_sign hc] at hself

end FloatFmt

/-- A floating format is a sign, its exponent and its fraction. -/
theorem Fmt.width_of_float {f : Fmt} {ff : FloatFmt} (h : f.float = some ff) : f.width = ff.eb + ff.mb + 1 := by
  cases f <;> cases h <;> rfl

/-! ## Integers (R81, R82, R91) -/

theorem signed_emod {n c : Nat} (h : c < 2 ^ n) : (signed n c % 2 ^ n).toNat = c := by
  have hmod : ((c : Int) % 2 ^ n).toNat = c := by
    rw [Int.emod_eq_of_lt (by positivity) (by exact_mod_cast h), Int.toNat_natCast]
  unfold signed
  rw [Nat.mod_eq_of_lt h]
  split_ifs
  · exact hmod
  · rwa [Int.sub_emod_right]

theorem signed_bounds (n c : Nat) : -2 ^ n ≤ signed (n + 1) c ∧ signed (n + 1) c ≤ 2 ^ n - 1 := by
  have hlt : c % 2 ^ (n + 1) < 2 ^ (n + 1) := Nat.mod_lt _ (Nat.two_pow_pos _)
  have htwo : (2 : Int) ^ (n + 1) = 2 * 2 ^ n := pow_succ' 2 n
  simp only [signed, Nat.add_sub_cancel]
  generalize c % 2 ^ (n + 1) = k at *
  zify at hlt ⊢
  split_ifs <;> omega

/-- An integer between the bounds is not rounded and does not saturate. -/
theorem encodeInt_ofInt {lo hi z : Int} (hlo : lo ≤ z) (hhi : z ≤ hi) (bits : Nat) (r : Rnd) :
    encodeInt lo hi bits r (Val.ofInt z) = ((z % 2 ^ bits).toNat, {}) := by
  have hz : (if decide (z < 0) = true then -(z.natAbs : Int) else z.natAbs) = z := by
    simp only [decide_eq_true_eq]
    split_ifs <;> omega
  have hlim : ¬ (if decide (z < 0) = true then lo.natAbs else hi.natAbs) < z.natAbs := by
    simp only [decide_eq_true_eq]
    split_ifs <;> omega
  simp only [encodeInt, Val.ofInt, roundAt_self, hz, if_neg (not_lt.2 hlo), if_neg (not_lt.2 hhi), magLt_of_le le_rfl,
    Int.sub_self, Int.toNat_zero, Nat.pow_zero, Nat.mul_one, decide_eq_false hlim]

theorem encodeInt_signed {lo hi : Int} {n c : Nat} (hc : c < 2 ^ n) (h : lo ≤ signed n c ∧ signed n c ≤ hi) (r : Rnd) :
    encodeInt lo hi n r (Val.ofInt (signed n c)) = (c, {}) := by
  rw [encodeInt_ofInt h.1 h.2, signed_emod hc]

/-- But for its second code of 0, each code of T2 is the one that its integer converts to. -/
theorem encodeInt_decode_t2 {c : Nat} (hc : c < 4) (h : c ≠ 2) (r : Rnd) :
    encodeInt (-1) 1 2 r (Fmt.t2.decode c) = (c, {}) := by
  obtain rfl | rfl | rfl : c = 0 ∨ c = 1 ∨ c = 3 := by omega
  · exact encodeInt_ofInt (z := 0) (by decide) (by decide) 2 r
  · exact encodeInt_ofInt (z := 1) (by decide) (by decide) 2 r
  · exact encodeInt_ofInt (z := -1) (by decide) (by decide) 2 r

/-! ## E8M0 (R83, R91) -/

/-- The code of NaN converts to itself too. -/
theorem encodeE8m0_decode {c : Nat} (hc : c < 256) : encodeE8m0 (Fmt.e8m0.decode c) = (c, {}) := by
  have hdecode : Fmt.e8m0.decode c = if c = 255 then .nan else .fin false 1 ((c : Int) - 127) := by
    simp [Fmt.decode, Fmt.float, Nat.mod_eq_of_lt hc]
  rw [hdecode]
  split_ifs with h
  · rw [h]; rfl
  · have hlog : (c : Int) - 127 + Nat.log2 1 = c - 127 := by simp [Nat.log2_eq_log_two]
    have hlo : ¬ (c : Int) - 127 < -127 := by omega
    have hhi : ¬ (c : Int) - 127 > 127 := by omega
    simp only [encodeE8m0, hlog, if_neg hlo, if_neg hhi, Int.sub_add_cancel, Int.toNat_natCast, one_ne_zero, if_false]

/-! ## Every format -/

/-- Settles O59: by the kind of format, floating, integer, T2 or E8M0. -/
theorem numberFormatsRoundTrip : Obligations.NumberFormatsRoundTrip := by
  intro f c r sat anchor neg m e hax hpa hc ht h
  cases hf : f.float with
  | some ff =>
    rw [Fmt.width_of_float hf] at hc
    simp only [Fmt.decode, Fmt.encode, hf] at h ⊢
    exact FloatFmt.encode_decode hc h r sat
  | none =>
    rw [← h]
    cases f
    case fp32 | fp16 | bf16 | e4m3 | e5m2 | e3m2 | e2m3 | e2m1 => cases hf
    case ax96 => exact absurd rfl hax
    case pa6 => exact absurd rfl hpa
    case int8 => exact encodeInt_signed hc (signed_bounds 7 c) r
    case int4 => exact encodeInt_signed hc (signed_bounds 3 c) r
    case int32 => exact encodeInt_signed hc (signed_bounds 31 c) r
    case t2 => exact encodeInt_decode_t2 hc (ht rfl) r
    case e8m0 => exact encodeE8m0_decode hc

end Sys2Proof.Machine
end

section
/-! SUPPORT. Proofs of spec/05_move_programs.md: the moves of the sequencer at decode. What a decode can do comes first: a move
completes at once or leaves the sequencer waiting, or it is skipped, held or refused. -/

namespace Sys2Proof.Machine

/-! ## The constant registers (R132) -/

@[simp] theorem Tile.setReg_zero (x : Tile) (v : BitVec 64) : x.setReg 0 v = x := rfl

@[simp] theorem Tile.setPred_zero (x : Tile) (b : Bool) : x.setPred 0 b = x := rfl

@[simp] theorem Tile.reg_zero (x : Tile) : x.reg 0 = 0 := rfl

@[simp] theorem Tile.pred_zero (x : Tile) : x.pred 0 = true := rfl

/-- A reference whose base is s0 is its offset (R132, R151). -/
@[simp] theorem Ref.addr_zero (off : Nat) (r : Regs) : (⟨0, off⟩ : Ref).addr r = off := by
  have h0 : r.get 0 = 0 := rfl
  simp [Ref.addr, h0]

/-- Settles O6: each reads its constant whatever the tile holds, so a write to it that is discarded shows nowhere. -/
theorem constantRegisters : Obligations.ConstantRegisters := fun x =>
  ⟨x.reg_zero, x.pred_zero, x.setReg_zero, x.setPred_zero, fun _ _ => Tile.reg_zero _, fun _ _ => Tile.pred_zero _,
    fun off => Ref.addr_zero off x.regs, fun w hp hn => by rw [hp, hn, x.pred_zero]; rfl⟩

/-! ## What a fetched move meets before its own checks (R135, R136, R140, R142) -/

section
variable {s : State} {t : Nat} {w : MoveWord} {j : Job} {yields : Bool} (body : State → Job → Tile → Decoded)
  (hdec : s.decodes t yields = some j) (hw : s.moveAt t = w) (hp : s.sramPoison t (s.tile t).fetchAddr 32 = none)
include hdec hw hp

/-- 256 moves wait to start. -/
theorem State.decodeMove_of_full (hf : (s.tile t).full = true) :
    s.decodeMove t w yields body = s.setTile t (s.tile t).decoding := by
  simp [State.decodeMove, State.fetch, hdec, hw, hp, hf, Tile.decoding]

/-- A register or a unit that the move names is not ready. -/
theorem State.decodeMove_of_hold (hf : (s.tile t).full = false) (hon : ((s.tile t).pred (Hdr.psel w) == Hdr.pneg w) = false)
    (hh : (s.tile t).mustHold w = true) :
    s.decodeMove t w yields body = s.setTile t { s.tile t with seq := .waiting, wait := .dep } := by
  simp [State.decodeMove, State.fetch, hdec, hw, hp, hf, hon, hh]

/-- The move waits for a descriptor buffer, or as a HALT for earlier moves. -/
theorem State.decodeMove_of_stay (hf : (s.tile t).full = false) (hon : ((s.tile t).pred (Hdr.psel w) == Hdr.pneg w) = false)
    (hh : (s.tile t).mustHold w = false) (hs : (s.tile t).mustStay w = true) :
    s.decodeMove t w yields body = s.setTile t (s.tile t).decoding := by
  simp [State.decodeMove, State.fetch, hdec, hw, hp, hf, hon, hh, hs, Tile.decoding]

/-- A reserved opcode is refused, whatever the predicate. -/
theorem State.decodeMove_of_reservedOpcode (hf : (s.tile t).full = false) (hu : unitOf (Hdr.op w) = none)
    (hh : ((s.tile t).pred (Hdr.psel w) == Hdr.pneg w) = true ∨ (s.tile t).mustHold w = false) :
    s.decodeMove t w yields body = (s.decoded t).finishDecode t w j.id (.refuse .reservedValue) := by
  have h22 : Hdr.op w ≠ 0x22 := fun h => absurd (h ▸ hu) (by decide)
  have h06 : Hdr.op w ≠ 0x06 := fun h => absurd (h ▸ hu) (by decide)
  have hs : (s.tile t).mustStay w = false := by simp [Tile.mustStay, h22, h06]
  rcases hh with hh | hh <;>
    simp [State.decodeMove, State.fetch, hdec, hw, hp, hf, hh, hs, hu, State.decoded, Tile.decoding]

/-- A move whose predicate is false is skipped, with no DTEN tally. -/
theorem State.decodeMove_of_skip (hf : (s.tile t).full = false) (hoff : ((s.tile t).pred (Hdr.psel w) == Hdr.pneg w) = true)
    (hu : (unitOf (Hdr.op w)).isNone = false) :
    s.decodeMove t w yields body = (s.decoded t).finishDecode t w j.id (.ok (s.decoded t) none false) := by
  simp [State.decodeMove, State.fetch, hdec, hw, hp, hf, hoff, hu, State.decoded, Tile.decoding]

/-- A reserved bit of the header is refused. -/
theorem State.decodeMove_of_reservedBit (hf : (s.tile t).full = false)
    (hon : ((s.tile t).pred (Hdr.psel w) == Hdr.pneg w) = false) (hh : (s.tile t).mustHold w = false)
    (hs : (s.tile t).mustStay w = false) (hu : (unitOf (Hdr.op w)).isNone = false) (hr : clear w Hdr.resv = false) :
    s.decodeMove t w yields body = (s.decoded t).finishDecode t w j.id (.refuse .reservedValue) := by
  simp [State.decodeMove, State.fetch, hdec, hw, hp, hf, hon, hh, hs, hu, hr, State.decoded, Tile.decoding]

/-- The move executes: its own checks answer. -/
theorem State.decodeMove_of_executes (hf : (s.tile t).full = false)
    (hon : ((s.tile t).pred (Hdr.psel w) == Hdr.pneg w) = false) (hh : (s.tile t).mustHold w = false)
    (hs : (s.tile t).mustStay w = false) (hu : (unitOf (Hdr.op w)).isNone = false) (hr : clear w Hdr.resv = true) :
    s.decodeMove t w yields body =
      (s.decoded t).finishDecode t w j.id (body (s.decoded t) j (s.tile t).decoding) := by
  simp [State.decodeMove, State.fetch, hdec, hw, hp, hf, hon, hh, hs, hu, hr, State.decoded, Tile.decoding]

end

/-- A poisoned move stops the program (log 12). -/
theorem State.decodeMove_of_poison {s : State} {t p : Nat} {w : MoveWord} {j : Job} {yields : Bool}
    (body : State → Job → Tile → Decoded) (hdec : s.decodes t yields = some j) (hw : s.moveAt t = w)
    (hp : s.sramPoison t (s.tile t).fetchAddr 32 = some p) :
    s.decodeMove t w yields body = s.stopTile t (Machine.refusal .poison p) := by
  simp [State.decodeMove, State.fetch, hdec, hw, hp]

/-! ## Moves that are skipped, held or refused (R134 to R136, R140, R142, R143, R150, R170, R235) -/

/-- Every move command decodes a move of a unit of R150. -/
theorem unitOf_of_opcode {c : Instr} {op : Nat} {w : MoveWord} (h : c.opcode = some (op, w)) : (unitOf op).isNone = false := by
  cases c <;> cases h <;> rfl

/-- A well-formed move command decodes the move that it carries, with what follows at once on it. -/
theorem exec_move_decodeMove {c : Instr} {s : State} {t : TileIx} {op : Nat} {w : MoveWord} {j : Job} (hc : moveTile c = some t)
    (hop : c.opcode = some (op, w)) (hwf : c.wellFormed = true) (hd : s.decodes t = some j) :
    ∃ body, exec c s = .next (afterDecode c t (s.decodeMove t w false body)) := by
  obtain ⟨body, hb⟩ := exec_move c s t op w j hc hop hwf hd
  refine ⟨body, ?_⟩
  rw [hb, State.decode, if_neg (not_not.mpr (move_op c op w hop hwf))]

theorem exec_moveReservedOpcode {s : State} {t : TileIx} {w : MoveWord} (hu : unitOf (Hdr.op w) = none) :
    exec (.moveReservedOpcode t w) s = .next (s.decodeMove t w false fun _ _ _ => .refuse .reservedValue) := by
  simp [exec, execMoveReservedOpcode, hu]

/-- A reserved opcode belongs to no unit, so that no unit counts its refusal (R63, R75, R385). -/
theorem State.finishDecode_of_reservedOpcode (s : State) (t : Nat) {w : MoveWord} (j : BitVec 12) (hu : unitOf (Hdr.op w) = none) :
    s.finishDecode t w j (.refuse .reservedValue) = s.stopTile t (Machine.refusal .reservedValue) := by
  have h25 : Hdr.op w ≠ 0x25 := fun h => absurd (h ▸ hu) (by decide)
  have h58 : Hdr.op w ≠ 0x58 := fun h => absurd (h ▸ hu) (by decide)
  simp [State.finishDecode, State.countRefusal, hu, h25, h58]

/-- Settles O37: a skipped move is counted and passed over, and the opcode is checked before the predicate. -/
theorem skippedMoves : Obligations.SkippedMoves := by
  refine ⟨fun c s t op w j hc hop hwf hf hoff hgo => ?skip, fun s t w j hf hoff hu => ?reserved⟩
  case skip =>
    obtain ⟨body, hb⟩ := exec_move_decodeMove hc hop hwf hf.decodes
    have hu : (unitOf (Hdr.op w)).isNone = false := by rw [move_op c op w hop hwf]; exact unitOf_of_opcode hop
    rw [hb, State.decodeMove_of_skip body hf.decodes hf.word hf.clean hf.room hoff hu,
      State.finishDecode_ok _ _ _ _ _ _ _ fun _ => State.decoded_goesOn hgo]
    rfl
  case reserved =>
    rw [exec_moveReservedOpcode hu, State.decodeMove_of_reservedOpcode _ hf.decodes hf.word hf.clean hf.room hu (.inl hoff),
      State.finishDecode_of_reservedOpcode _ _ _ hu]

/-- Settles O38: a full queue comes first, then what only a move that executes waits for. -/
theorem heldMoves : Obligations.HeldMoves := by
  intro c s t op w j hc hop hwf hd hw hp
  obtain ⟨body, hb⟩ := exec_move_decodeMove hc hop hwf hd
  rw [hb]
  refine ⟨fun hf => ?full, fun hf hon => ⟨fun hh => ?hold, fun hh hs => ?stay⟩⟩
  case full => rw [State.decodeMove_of_full body hd hw hp hf]
  case hold => rw [State.decodeMove_of_hold body hd hw hp hf hon hh]
  case stay => rw [State.decodeMove_of_stay body hd hw hp hf hon hh hs]

/-- Settles O39: the fetch finds the poison, then the opcode is checked, then the header. -/
theorem refusedMoves : Obligations.RefusedMoves := by
  refine ⟨fun c s t op w j hc hop hwf hf hon hh hs hr => ?header, fun c s t op p w j hc hop hwf hd hw hp => ?poison,
    fun s t w j hf hu hh => ?opcode⟩
  case header =>
    obtain ⟨body, hb⟩ := exec_move_decodeMove hc hop hwf hf.decodes
    have ho : Hdr.op w = op := move_op c op w hop hwf
    have hu : (unitOf (Hdr.op w)).isNone = false := by rw [ho]; exact unitOf_of_opcode hop
    rw [hb, State.decodeMove_of_reservedBit body hf.decodes hf.word hf.clean hf.room hon hh hs hu hr, State.finishDecode, ho]
  case poison =>
    obtain ⟨body, hb⟩ := exec_move_decodeMove hc hop hwf hd
    rw [hb, State.decodeMove_of_poison body hd hw hp]
  case opcode =>
    rw [exec_moveReservedOpcode hu, State.decodeMove_of_reservedOpcode _ hf.decodes hf.word hf.clean hf.room hu hh,
      State.finishDecode_of_reservedOpcode _ _ _ hu]

/-! ## A move whose checks pass -/

@[simp] theorem State.modTile_setTile (s : State) (t : Nat) (x : Tile) (f : Tile → Tile) :
    (s.setTile t x).modTile t f = s.setTile t (f x) := by
  rw [State.modTile, State.tile_setTile, State.setTile_setTile]

/-- The decoded state holds the tile that decodes. -/
theorem State.decoded_setTile (s : State) (t : Nat) : (s.decoded t).setTile t (s.tile t).decoding = s.decoded t := by
  rw [State.decoded, State.bump_setTile, State.setTile_setTile]

/-- A move that the sequencer completes: the program counter goes on, and the DTEN tally counts (R137). -/
theorem Executes.decode_ends {s d u : State} {t : TileIx} {w : MoveWord} {j : Job} {x : Tile} (h : Executes s t w j)
    (hd : d = s.decoded t) (hx : x = (s.tile t).decoding) {op : Nat} (ho : Hdr.op w = op) {body : State → Job → Tile → Decoded}
    {taken : Option Nat} (hb : body d j x = .ok u taken)
    (hg : ((u.tile t).advance taken).seq = .running → ((u.tile t).advance taken).pc < ((u.tile t).advance taken).len)
    (hu : (unitOf op).isNone = false := by decide) :
    s.decode t w op body = if Hdr.dten w then (u.modTile t fun x => x.advance taken).arrive j.id t (Hdr.dtal w) 1
      else u.modTile t fun x => x.advance taken := by
  rw [h.decode_eq ho body hu, ← hd, ← hx, hb, State.finishDecode_ok _ _ _ _ _ _ _ hg, Bool.true_and]

/-- A move that completes later, or never: the program counter goes on. -/
theorem Executes.decode_leaves {s d u : State} {t : TileIx} {w : MoveWord} {j : Job} {x : Tile} (h : Executes s t w j)
    (hd : d = s.decoded t) (hx : x = (s.tile t).decoding) {op : Nat} (ho : Hdr.op w = op) {body : State → Job → Tile → Decoded}
    {taken : Option Nat} (hb : body d j x = .ok u taken false)
    (hg : ((u.tile t).advance taken).seq = .running → ((u.tile t).advance taken).pc < ((u.tile t).advance taken).len)
    (hu : (unitOf op).isNone = false := by decide) :
    s.decode t w op body = u.modTile t fun x => x.advance taken := by
  rw [h.decode_eq ho body hu, ← hd, ← hx, hb, State.finishDecode_ok _ _ _ _ _ _ _ hg]
  rfl

/-- A move that changes its own tile only, to z: the program counter of z goes on. -/
theorem Executes.decode_completes {s d : State} {t : TileIx} {w : MoveWord} {j : Job} {x : Tile} (h : Executes s t w j)
    (hd : d = s.decoded t) (hx : x = (s.tile t).decoding) {op : Nat} (ho : Hdr.op w = op) {body : State → Job → Tile → Decoded}
    (z : Tile) (taken : Option Nat) (hb : body d j x = .ok (d.setTile t z) taken)
    (hg : (z.advance taken).pc < (z.advance taken).len) (hu : (unitOf op).isNone = false := by decide) :
    s.decode t w op body = d.completes t w j.id (z.advance taken) := by
  rw [h.decode_ends hd hx ho hb (fun _ => by rw [State.tile_setTile]; exact hg) hu, State.modTile_setTile, State.completes]

/-! ## Jumps, calls and loops (R152, R167 to R169) -/

theorem lt_of_jumpTarget {w : MoveWord} {x : Tile} {p : Nat} (h : jumpTarget w x = .ok p) : p < x.len := by
  unfold jumpTarget at h
  dsimp only at h
  generalize (if bit w 48 then (x.reg (fld w 47 43)).toNat else fld w 42 32) = v at h
  by_cases hv : v < x.len
  · rw [if_pos hv] at h
    exact Except.ok.inj h ▸ hv
  · rw [if_neg hv] at h
    cases h

/-- Settles O29: each move sets its target, its return stack and its loops on the tile that decodes, and the program counter
goes to the target; a move at END counts its loop in either case (log 18). -/
theorem jumpsCallsAndLoops : Obligations.JumpsCallsAndLoops := by
  intro s t w j h x d
  refine ⟨?jump, ?branch, ?call, ?return_, ?loop⟩
  case jump =>
    intro p ho hr hp
    refine congrArg Host.Outcome.next (h.decode_completes (d := d) (x := x) rfl rfl ho
      { x with loops := keepLoops p x.loops } (some p) ?_ (lt_of_jumpTarget hp))
    simp only [hr, hp]; rfl
  case branch =>
    intro p ho hr hp hlen
    have hin : (decide ((p : Int) < 0) || decide ((p : Int) ≥ x.len)) = false := by
      rw [Bool.or_eq_false_iff, decide_eq_false_iff_not, decide_eq_false_iff_not]; omega
    refine congrArg Host.Outcome.next (h.decode_completes (d := d) (x := x) rfl rfl ho
      { x with loops := keepLoops p x.loops } (some p) ?_ hlen)
    simp only [hr, hp, hin, Int.toNat_natCast]; rfl
  case call =>
    intro p ho hr hp hdepth
    refine congrArg Host.Outcome.next (h.decode_completes (d := d) (x := x) rfl rfl ho
      { x with rets := (x.pc + 1) :: x.rets } (some p) ?_ (lt_of_jumpTarget hp))
    simp only [hr, hp, ge_iff_le, Nat.not_le.mpr hdepth]; rfl
  case return_ =>
    intro p rs ho hr hrets hlen
    refine congrArg Host.Outcome.next (h.decode_completes (d := d) (x := x) rfl rfl ho
      { x with rets := rs, loops := x.loops.filter fun l => l.depth < rs.length + 1 } (some p) ?_ hlen)
    simp only [hr, hrets]; rfl
  case loop =>
    intro c ho hr hpc hlen hdepth hc
    have hrange : (decide (fld w 42 32 ≥ x.len) || decide (fld w 42 32 ≤ x.pc)) = false := by
      rw [Bool.or_eq_false_iff, decide_eq_false_iff_not, decide_eq_false_iff_not]; omega
    refine ⟨fun h0 h32 => ?enter, fun h0 hskip => ?skip⟩
    case enter =>
      have hnext : x.pc + 1 < x.len := by omega
      refine congrArg Host.Outcome.next (h.decode_completes (d := d) (x := x) rfl rfl ho
        { x with loops := ⟨x.pc, fld w 42 32, c, x.rets.length⟩ :: x.loops } (some (x.pc + 1)) ?_ hnext)
      simp only [hr, ← hc, hrange, ge_iff_le, Nat.not_le.mpr hdepth, Nat.not_le.mpr h32, h0.ne']; rfl
    case skip =>
      have htile : d.tile t = x := s.decoded_tile t
      refine congrArg Host.Outcome.next ((h.decode_leaves (d := d) (u := d) (x := x) rfl rfl ho
        (taken := some (fld w 42 32 + 1)) ?_ fun _ => by rw [htile]; exact hskip).trans ?_)
      · simp only [hr, ← hc, hrange, ge_iff_le, Nat.not_le.mpr hdepth, h0]; rfl
      · rw [State.modTile, htile]; rfl

/-! ## Scalar moves (R132, R145, R148, R151, R153) -/

theorem Tile.setReg_goesOn {x : Tile} (h : x.goesOn) (r : Nat) (v : BitVec 64) : (x.setReg r v).goesOn := by
  unfold Tile.setReg
  split
  · exact h
  · exact Tile.goesOn_congr h rfl rfl rfl

theorem Tile.setPred_goesOn {x : Tile} (h : x.goesOn) (r : Nat) (b : Bool) : (x.setPred r b).goesOn := by
  unfold Tile.setPred
  split
  · exact h
  · exact Tile.goesOn_congr h rfl rfl rfl

theorem State.setTally_goesOn {s : State} {t : Nat} (h : (s.tile t).goesOn) (tal v : Nat) : ((s.setTally t tal v).tile t).goesOn := by
  obtain ⟨k, hk⟩ := s.setTally_tile t tal v t
  rw [hk]; exact Tile.goesOn_congr h rfl rfl rfl

theorem State.addTally_goesOn {s : State} {t : Nat} (h : (s.tile t).goesOn) (tal n : Nat) : ((s.addTally t tal n).tile t).goesOn := by
  obtain ⟨k, hk⟩ := s.addTally_tile t tal n t
  rw [hk]; exact Tile.goesOn_congr h rfl rfl rfl

theorem State.decoded_sramPoison (s : State) (t u a n : Nat) : (s.decoded t).sramPoison u a n = s.sramPoison u a n :=
  State.sramPoison_congr (State.bump_poisonWords ..) u a n

theorem State.decoded_sram (s : State) (t u a n : Nat) : (s.decoded t).sram u a n = s.sram u a n :=
  State.sram_congr (State.bump_mem ..) u a n

/-- Settles O32: a move that writes a register or a predicate changes the tile that decodes, TSET and TADD a tally, SST the
tile's SRAM; each goes on and completes. -/
theorem scalarMoves : Obligations.ScalarMoves := by
  intro s t w j h hgo hc x d writes
  have hx : x.goesOn := hgo
  have hd : (d.tile t).goesOn := State.decoded_goesOn hgo
  refine ⟨?salu, ?tset, ?tadd, ?scmp, ?sldi, ?sld, ?sst, ?sread⟩
  case salu =>
    intro v ho hset hadd hv
    refine (if_neg (by simp [hset, hadd])).trans (congrArg Host.Outcome.next (h.decode_completes (d := d) (x := x) rfl rfl ho
      (x.setReg (fld w 36 32) v) none ?_ (Tile.setReg_goesOn hx _ v)))
    simp only [hc, hv]; rfl
  case tset =>
    intro ho hf
    refine (if_neg (not_not.mpr hf)).trans (congrArg Host.Outcome.next (h.decode_ends (d := d) (x := x) rfl rfl ho
      (u := (d.setTally t (fld w 70 65) ((operand2 w x).toNat % 2 ^ 32)).bump .tileTallySets (t / 512)) (taken := none) ?_
      fun _ => ?_))
    · simp only [hc]; rfl
    · rw [State.bump_tile]; exact State.setTally_goesOn hd _ _
  case tadd =>
    intro ho hf
    refine (if_neg (not_not.mpr hf)).trans (congrArg Host.Outcome.next (h.decode_ends (d := d) (x := x) rfl rfl ho
      (u := d.addTally t (fld w 70 65) ((operand2 w x).toNat % 2 ^ 32)) (taken := none) ?_ fun _ => State.addTally_goesOn hd _ _))
    simp only [hc]; rfl
  case scmp =>
    intro b ho hb
    refine congrArg Host.Outcome.next (h.decode_completes (d := d) (x := x) rfl rfl ho
      (x.setPred (fld w 58 56) b) none ?_ (Tile.setPred_goesOn hx _ b))
    simp only [hc, hb]; rfl
  case sldi =>
    intro ho
    refine congrArg Host.Outcome.next (h.decode_completes (d := d) (x := x) rfl rfl ho
      (x.setReg (fld w 36 32) (BitVec.ofNat 64 (fld w 159 96))) none ?_ (Tile.setReg_goesOn hx _ _))
    simp only [hc]; rfl
  case sld =>
    intro a n ho ha hp
    refine congrArg Host.Outcome.next (h.decode_completes (d := d) (x := x) rfl rfl ho
      (x.setReg (fld w 36 32) (if bit w 73 then BitVec.ofInt 64 (signed (8 * n) (leNat (s.sram t a n)))
        else BitVec.ofNat 64 (leNat (s.sram t a n)))) none ?_ (Tile.setReg_goesOn hx _ _))
    simp only [hc, ha, d, State.decoded_sramPoison, State.decoded_sram, hp]; rfl
  case sst =>
    intro a n ho ha
    refine congrArg Host.Outcome.next (h.decode_ends (d := d) (x := x) rfl rfl ho
      (u := d.writeSram (sramBase t + a) (leBytes n (x.reg (fld w 41 37)).toNat) false) (taken := none) ?_ fun _ => hd)
    simp only [hc, ha]; rfl
  case sread =>
    intro v ho hv
    refine congrArg Host.Outcome.next (h.decode_completes (d := d) (x := x) rfl rfl ho
      (x.setReg (fld w 36 32) v) none ?_ (Tile.setReg_goesOn hx _ v))
    simp only [hc, hv]; rfl

/-! ## HALT, the waits, YIELD and FENCE (R147, R152, R170, R171, R173, R286) -/

@[simp] theorem State.arrive_seq (s : State) (j : BitVec 12) (u tal n t : Nat) :
    ((s.arrive j u tal n).tile t).seq = (s.tile t).seq := by
  obtain ⟨v, hv⟩ := s.arrive_tile j u tal n t
  rw [hv]

/-- The program counter goes past a move that leaves its sequencer waiting: no fetch follows, wherever it points (R143). -/
theorem Executes.decode_waits {s d : State} {t : TileIx} {w : MoveWord} {j : Job} {x : Tile} (h : Executes s t w j)
    (hd : d = s.decoded t) (hx : x = (s.tile t).decoding) {op : Nat} (ho : Hdr.op w = op) {body : State → Job → Tile → Decoded}
    (z : Tile) (hb : body d j x = .ok (d.setTile t z) none false) (hz : z.seq ≠ .running)
    (hu : (unitOf op).isNone = false := by decide) :
    s.decode t w op body = (d.setTile t z).passOver t :=
  h.decode_leaves hd hx ho hb (fun hrun => absurd (by rwa [State.tile_setTile] at hrun) hz) hu

/-- A YIELD with no pre-emption request pending is a decode as any other (R173). -/
theorem exec_yield_of_not_asked {s : State} {t : TileIx} {w : MoveWord} (ho : Hdr.op w = 0x09)
    (hp : (s.holder t).bind Job.preempt = none) : exec (.yield_ t w) s =
      .next (s.decode t w 0x09 fun s _ _ => if !onlyUses w [] then .refuse .reservedValue else .ok s) := by
  rw [exec, execYield, if_neg (not_not.mpr ho), State.decode, if_neg (not_not.mpr ho), hp]
  rfl

/-- Settles O30: HALT sets the state of the sequencer and notifies, a wait leaves it waiting with what it waits for, and a wait
for nothing is a no-op. -/
theorem haltsAndWaits : Obligations.HaltsAndWaits := by
  intro s t w j h x d
  refine ⟨?halt, fun c ho hr hc => ⟨fun h0 h32 => ?tally, fun h0 hgo => ?noTally⟩, ?epoch, ?yield_, ?fence⟩
  case halt =>
    intro ho hr hgroup
    have hin : (bit w 138 && !jobHas j.p (fld w 131 120)) = false := by
      cases hb : bit w 138
      · rfl
      · rw [hgroup hb]; rfl
    have hseq : (if bit w 145 then SeqState.parked else .halted) ≠ .running := by cases bit w 145 <;> decide
    refine congrArg (fun u : State => Host.Outcome.next (afterDecode (.halt t w) t u))
      (h.decode_ends (d := d) (x := x) rfl rfl ho (taken := none) (u := if bit w 138 then
        (d.setTile t { x with seq := if bit w 145 then .parked else .halted, wtal := fld w 144 139 }).arrive j.id
          (fld w 131 120) (fld w 137 132) 1
        else d.setTile t { x with seq := if bit w 145 then .parked else .halted, wtal := fld w 144 139 }) ?_
      fun hrun => absurd ?_ hseq)
    · simp only [hr, hin]; rfl
    · rw [← hrun]
      change _ = (State.tile _ t).seq
      cases bit w 138
      · rw [if_neg Bool.false_ne_true, State.tile_setTile]
      · rw [if_pos rfl, State.arrive_seq, State.tile_setTile]
  case tally =>
    refine congrArg Host.Outcome.next (h.decode_waits (d := d) (x := x) rfl rfl ho { x with
        seq := .waiting, waitTal := dtalOf w
        wait := .tally (fld w 54 49) c (bit w 55) (fld w 58 56)
          (if fld w 119 96 = 0 then none else some (s.time.work + fld w 119 96 * 64)) } ?_ (by simp))
    simp only [hr, ← hc, ge_iff_le, Nat.not_le.mpr h32, h0.ne', d, State.decoded, State.bump_time]; rfl
  case noTally =>
    refine congrArg Host.Outcome.next (h.decode_ok (d := d) (x := x) rfl rfl ho ?_ (State.decoded_goesOn hgo))
    simp only [hr, ← hc, h0]; rfl
  case epoch =>
    intro ho hr hp
    refine congrArg (fun u : State => Host.Outcome.next (u.noteWork t)) (h.decode_waits (d := d) (x := x) rfl rfl ho { x with
      seq := .waiting, waitTal := dtalOf w, wait := .epoch (bit w 59) (fld w 71 64) j.periodNo } ?_ (by simp))
    simp only [hr, hp]; rfl
  case yield_ =>
    intro ho hr hgo
    rw [exec_yield_of_not_asked ho (decodes_preempt h.decodes)]
    refine congrArg Host.Outcome.next (h.decode_completes (d := d) (x := x) rfl rfl ho x none ?_ hgo)
    simp only [hr, d, x, State.decoded_setTile]; rfl
  case fence =>
    intro ho hr
    refine congrArg Host.Outcome.next (h.decode_waits (d := d) (x := x) rfl rfl ho
      { x with seq := .waiting, waitTal := dtalOf w, wait := .fence } ?_ (by simp))
    simp only [hr]; rfl

/-- A YIELD with a pre-emption request pending is decoded, and waits (R173). -/
theorem exec_yield_of_asked {s : State} {t : TileIx} {w : MoveWord} {j : Job} (ho : Hdr.op w = 0x09) (hh : s.holder t = some j)
    (hp : j.preempt ≠ none) : exec (.yield_ t w) s =
      .next (s.decodeMove t w true fun s _ x => if !onlyUses w [] then .refuse .reservedValue
        else .ok (s.setTile t { x with wait := .yield_, waitTal := dtalOf w }) none false) := by
  have hasked : ((s.holder t).bind Job.preempt).isSome = true := by
    rw [hh]; exact Option.isSome_iff_ne_none.2 hp
  rw [exec, execYield, if_neg (not_not.mpr ho)]
  simp only [hasked, if_true]

/-- A sequencer that has yielded decodes no more, not even a YIELD (R173). -/
theorem State.decodes_of_yield {s : State} {t : Nat} (h : (s.tile t).wait = .yield_) (y : Bool) : s.decodes t y = none := by
  simp [State.decodes, h]

/-- It fetches no more either, so that it cannot run past its last move (R143, R173). -/
theorem State.fetchCheck_of_yield {s : State} {t : Nat} (h : (s.tile t).wait = .yield_) : s.fetchCheck t = s := by
  simp [State.fetchCheck, h]

/-- Settles O31: the YIELD is passed over and waits, so that no fetch follows. -/
theorem yieldStopsForPreemption : Obligations.YieldStopsForPreemption := by
  intro s t w j hh hp hd hw hclean hroom ho hon hhold hr huses u
  have hstay : (s.tile t).mustStay w = false := by simp [Tile.mustStay, ho]
  have hunit : (unitOf (Hdr.op w)).isNone = false := by rw [ho]; rfl
  have hwait : (u.tile t).wait = .yield_ := by
    rw [show u.tile t = _ from State.tile_modTile .., State.tile_setTile]; rfl
  refine ⟨?_, fun y => State.decodes_of_yield hwait y⟩
  rw [exec_yield_of_asked ho hh hp, State.decodeMove_of_executes _ hd hw hclean hroom hon hhold hstay hunit hr]
  exact congrArg Host.Outcome.next ((congrArg _ (if_neg (by simp [huses]))).trans (State.fetchCheck_of_yield hwait))

/-! ## PERIOD_MARK, TRACE and BREAK (R165, R166, R252, R259, R503) -/

@[simp] theorem State.decoded_now (s : State) (t : Nat) : (s.decoded t).now = s.now := by
  simp [State.now, State.decoded]

/-- A move that completes now, whatever it has changed: the program counter goes past it, its DTEN tally counts, and the next
fetch follows (R137, R143). -/
theorem Executes.decode_completed {s d u : State} {t : TileIx} {w : MoveWord} {j : Job} {x : Tile} (h : Executes s t w j)
    (hd : d = s.decoded t) (hx : x = (s.tile t).decoding) {op : Nat} (ho : Hdr.op w = op) {body : State → Job → Tile → Decoded}
    (hb : body d j x = .ok u) (hu : (unitOf op).isNone = false := by decide) :
    s.decode t w op body = if Hdr.dten w then ((u.passOver t).arrive j.id t (Hdr.dtal w) 1).fetchCheck t
      else (u.passOver t).fetchCheck t := by
  rw [h.decode_eq ho body hu, ← hd, ← hx, hb, State.finishDecode]
  cases Hdr.dten w <;> rfl

/-- Settles O33: the checks pass, and what the move marks, writes or freezes comes before its completion. -/
theorem marksTracesAndBreaks : Obligations.MarksTracesAndBreaks := by
  intro s t w j h hgo x d ends completed
  refine ⟨fun ho hc hp => ⟨fun hk => ?milestone, fun u hk ha hr hu => ?outputs, fun hk => ?work⟩,
    fun ho hc => ⟨fun hl => ?dropped, fun u v hl hu hv => ?traced⟩,
    fun ho hc => ⟨fun hb => ?armed, fun hb => ?ignored⟩⟩
  case milestone =>
    refine congrArg Host.Outcome.next (h.decode_completed (d := d) (x := x) rfl rfl ho ?_)
    simp only [hc, hk, hp, d, State.decoded_now]; rfl
  case outputs =>
    refine congrArg Host.Outcome.next (h.decode_completed (d := d) (x := x) rfl rfl ho ?_)
    simp only [hc, hk, hp, ha, Nat.not_le.mpr hr, hu]; rfl
  case work =>
    refine congrArg Host.Outcome.next (h.decode_completed (d := d) (x := x) rfl rfl ho ?_)
    simp only [hc, hk, hp]; rfl
  case dropped =>
    refine congrArg Host.Outcome.next (h.decode_completed (d := d) (x := x) rfl rfl ho ?_)
    simp only [hc, hl]; rfl
  case traced =>
    refine congrArg Host.Outcome.next (h.decode_completed (d := d) (x := x) rfl rfl ho ?_)
    have hnow : d.now = s.now := s.decoded_now t
    simp only [hc, hl, hnow, hu, hv]; rfl
  case armed =>
    refine congrArg Host.Outcome.next (h.decode_completed (d := d) (x := x) rfl rfl ho ?_)
    simp only [hc, hb]; rfl
  case ignored =>
    refine congrArg Host.Outcome.next (h.decode_completed (d := d) (x := x) rfl rfl ho ?_)
    simp only [hc, hb]; rfl

end Sys2Proof.Machine
end

section
/-! SUPPORT. Two statements of spec/05_move_programs.md that fail, each refuted on a state that is written out: what COLL_ISSUE
leaves of a context that it binds, and what SST leaves of memory that does not stand in its canonical form. -/

namespace Sys2Proof.Machine

/-! ## A state on which a move executes -/

/-- The state that a command answers. -/
def Out.state : Out → Option State
  | .next s => some s
  | _ => none

/-- Job 1 runs on tile 0 alone. -/
def loneJob : Job := { id := 1, p := { imageMoves := 2 }, state := .running }

/-- A module that runs and is READY, with `loneJob` on tile 0. Its sequencer stands at the move w, at the start of the tile's
SRAM, with a second move after it; memory holds m behind the two. -/
def standsAt (w : MoveWord) (x : Tile) (m : List Host.Cell) : State := { State.reset with
  board := { rails := true, pgood := true }
  boot := { step := .running, ready := true }
  jobs := [loneJob]
  tiles := [(0, { x with seq := .running, pc := 0, len := 2, job := 1, prepared := true })]
  mem := Memory.writeN [] (sramBase 0) (leBytes 32 w.toNat) ++ m }

/-! ## COLL_ISSUE (R385, R387, R405) -/

/-- COLL_ISSUE of one element to group 0, sequence 0. -/
def issueMove : MoveWord := BitVec.ofNat 256 (0x58 + 2 ^ 128)

/-- A context of the reserve that a data packet opened at time 0 (R388). -/
def admittedCtx : Ctx := { group := 0, seq := 0, job := 1, reserve := true }

/-- Tile 0 stands at the COLL_ISSUE at time 5, with a COPY suspended, so that the move is bound but not handed over (R136,
R227). -/
def issueState : State := { standsAt issueMove {
    queue := [{ id := 0, w := 0x40, pc := 0, regs := Vector.replicate 32 0, state := .suspended { status := .notMapped, addr := 0 } }]
    nextId := 1 } [] with
  time := { work := 5 }
  fab := { plan := some [] }
  coll := { groups := [{ id := 0, job := 1, record := 0, rank := 0, fids := [0] }], ctxs := [admittedCtx] } }

theorem issueState_executes : Executes issueState 0 issueMove loneJob where
  decodes := by decide +kernel
  word := by decide +kernel
  clean := by decide +kernel
  room := by decide +kernel
  predicate := by decide +kernel
  ready := by decide +kernel
  stays := by decide +kernel
  reserved := by decide +kernel

/-- The moment from which the timeout of the context of group 0 and sequence 0 counts (R405). -/
def lastOf (o : Out) : Option Nat := o.state.bind fun s => (s.ctx 0 0).map Ctx.last

/-- Refutes O36: COLL_ISSUE restarts the timeout of the context that it binds. On `issueState` that moment is 5, and 0 in the
state that is claimed. -/
theorem not_fabricProjectAndCollectiveMoves : ¬ Obligations.FabricProjectAndCollectiveMoves := by
  intro h
  obtain ⟨-, -, hissue⟩ := h issueState 0 issueMove loneJob issueState_executes (by show _ < _; decide +kernel)
  obtain ⟨-, hbinds, -⟩ := hissue (by decide +kernel) (by decide +kernel)
  have hlast := congrArg lastOf (hbinds admittedCtx (by decide +kernel) (by decide +kernel))
  exact absurd hlast (by decide +kernel)

/-! ## SST (R153) -/

/-- SST of the low byte of s0 to byte 0x100 of the tile's SRAM. -/
def storeMove : MoveWord := BitVec.ofNat 256 (0x14 + 0x100 * 2 ^ 160)

/-- Memory lists byte 0x100 of the SRAM before byte 0x80: not the canonical form, so that byte 0x80 reads 0. -/
def storeState : State := standsAt storeMove {} [(sramBase 0 + 0x100, 5), (sramBase 0 + 0x80, 7)]

/-- Refutes O41: the store of a 0 takes byte 0x100 off the list, and byte 0x80 behind it now reads 7. -/
theorem not_sequencerMovesMemoryFrame : ¬ Obligations.SequencerMovesMemoryFrame := by
  intro h
  obtain ⟨s', hs⟩ := exec_isNext (.sst 0 storeMove) storeState
  have hfrozen : (Out.state (exec (.sst 0 storeMove) storeState)).map (fun s => s.dbg.frozen) = some false := by decide +kernel
  have hread : (Out.state (exec (.sst 0 storeMove) storeState)).map (fun s => Memory.read s.mem (sramBase 0 + 0x80)) = some 7 := by
    decide +kernel
  rw [hs] at hfrozen hread
  obtain ⟨-, hstore⟩ := h (.sst 0 storeMove) storeState s' 0 0x14 storeMove rfl rfl hs (Option.some.inj hfrozen)
  have haddr : scalarAddr storeMove (storeState.tile 0).decoding = .ok (0x100, 1) := by decide +kernel
  have hsame := hstore rfl (sramBase 0 + 0x80) fun b n hb => by
    obtain ⟨rfl, rfl⟩ := Prod.mk.inj (Except.ok.inj (haddr.symm.trans hb))
    exact .inl (by decide)
  have hbefore : Memory.read storeState.mem (sramBase 0 + 0x80) = 0 := by decide +kernel
  have hafter : Memory.read s'.mem (sramBase 0 + 0x80) = 7 := Option.some.inj hread
  exact absurd (hafter.symm.trans (hsame.trans hbefore)) (by decide)

end Sys2Proof.Machine
end

section
/-! SUPPORT. Proofs of spec/05_move_programs.md: the completion of moves, granules and walks, and the ends of waits and holds. -/

namespace Sys2Proof.Machine

/-! ## Completion (R137) -/

theorem exec_moveCompletion {s : State} {t : TileIx} {id : Nat} {m : QMove} {j : Job} (hr : s.tileRuns t = true)
    (hm : ((s.kickAll t).tile t).move id = some m) (hj : (s.kickAll t).unitJob t = some j) (hd : m.state = .done) :
    exec (.moveCompletion t id) s = .next ((s.kickAll t).completeMove t m j) := by
  rw [exec, execMoveCompletion, when_of_true _ hr]
  simp only [hm, hj, hd, ne_eq, not_true_eq_false, if_false]

/-- A move that writes no register, counts no tally and has nothing outstanding only leaves its queue. -/
theorem State.completeMove_of_plain {s : State} {t : Nat} {m : QMove} (j : Job) (hf : (s.tile t).finishing = false)
    (hl : lateValue m = none) (hd : Hdr.dten m.w = false) (ho : s.outstanding j.id t m.id = 0) :
    s.completeMove t m j =
      (s.modTile t fun x => { x with queue := x.queue.filter fun y => y.id != m.id }).kickAll t := by
  unfold State.completeMove
  simp only [hl, ho, Nat.lt_irrefl, gt_iff_lt, if_false, Bool.false_eq_true, State.tile_modTile, hf,
    State.countDone, hd, Bool.not_false, if_true]

/-! ## Granules (R146) -/

theorem exec_granuleWritten {s : State} {t : TileIx} {id : Nat} {m : QMove} {j : Job} (hs : s.mayStart t = true)
    (hm : (s.tile t).move id = some m) (hj : s.unitJob t = some j) (ho : Hdr.op m.w = 0x40) (hc : (s.tile t).copyRuns m = true)
    (errs : List (Nat × Nat)) : exec (.granuleWritten t id errs) s = .next ((s.upset errs).writeGranule t m j) := by
  rw [exec, execGranuleWritten]
  simp only [hm, hj]
  exact when_of_true _ (by simp [hs, ho, hc])

/-- What no counter holds, the count of bytes on the ring leaves as it is (R15). -/
theorem State.ringBytes_keeps {α : Type} (g : State → α) (hg : ∀ (s : State) c i k n, g (s.bump c i k n) = g s) (s : State)
    (d a n : Nat) (write : Bool) : g (s.ringBytes d a n write) = g s := by
  unfold State.ringBytes
  split
  · rfl
  · split
    · rfl
    · exact State.foldl_keeps g _ (fun s p => State.foldl_keeps g _ (fun s l => hg s _ _ _ _) _ s) _ s

@[simp] theorem State.ringBytes_tiles (s : State) (d a n : Nat) (write : Bool) : (s.ringBytes d a n write).tiles = s.tiles :=
  State.ringBytes_keeps State.tiles State.bump_tiles s d a n write

@[simp] theorem State.ringBytes_mem (s : State) (d a n : Nat) (write : Bool) : (s.ringBytes d a n write).mem = s.mem :=
  State.ringBytes_keeps State.mem State.bump_mem s d a n write

@[simp] theorem State.writeSram_tiles (s : State) (a : Nat) (bs : List Byte) (bad : Bool) : (s.writeSram a bs bad).tiles = s.tiles := rfl

@[simp] theorem State.writeSram_mem (s : State) (a : Nat) (bs : List Byte) (bad : Bool) :
    (s.writeSram a bs bad).mem = Memory.writeN s.mem a bs := rfl

/-- Source bytes in the tile's own SRAM, none poisoned. -/
theorem State.copyRead_of_sram {s : State} {t : Nat} {c : CopySpec} {o n : Nat} (j : Job) (hk : c.sk = 0)
    (hp : s.sramPoison t (c.src + o) n = none) :
    s.copyRead t j c o n = (s.ringBytes (t / 512) (sramBase t + c.src + o) n false, .ok (s.sram t (c.src + o) n)) := by
  simp [State.copyRead, CopySpec.tileOf, hk, hp]

/-- A destination in the tile's own SRAM that is no ring takes the bytes whole. -/
theorem State.copyWrite_of_sram (s : State) (t : Nat) (j : Job) {c : CopySpec} (hk : c.dk = 0) (hw : c.wrap = 0) (o : Nat)
    (bs : List Byte) : s.copyWrite t j c o bs =
      ((s.writeSram (sramBase t + (c.dst + o)) bs false).ringBytes (t / 512) (sramBase t + (c.dst + o)) bs.length true, none) := by
  simp [State.copyWrite, CopySpec.tileOf, CopySpec.dstAt, hk, hw]

/-- A granule of a copy within the tile's SRAM that neither converts nor wraps. -/
theorem State.copyGranule_of_sram {s : State} {t : Nat} {c : CopySpec} {g : Nat} (j : Job) (m : QMove) (hf : c.sf = c.df)
    (hsk : c.sk = 0) (hdk : c.dk = 0) (hw : c.wrap = 0)
    (hp : s.sramPoison t (c.src + 256 * g) (min 256 (c.len - 256 * g)) = none) :
    ∃ v, s.copyGranule t j m c g = (v, none) ∧ v.tiles = s.tiles ∧
      v.mem = Memory.writeN s.mem (sramBase t + (c.dst + 256 * g)) (s.sram t (c.src + 256 * g) (min 256 (c.len - 256 * g))) := by
  have hconv : c.converts = false := by simp [CopySpec.converts, hf]
  have hout : c.out = c.len := by simp [CopySpec.out, hconv]
  unfold State.copyGranule
  simp only [hconv, hout, State.copyRead_of_sram j hsk hp, State.copyWrite_of_sram _ t j hdk hw, Bool.not_false, if_true]
  refine ⟨_, rfl, ?_, ?_⟩
  · rw [State.ringBytes_tiles, State.writeSram_tiles, State.ringBytes_tiles]
  · rw [State.ringBytes_mem, State.writeSram_mem, State.ringBytes_mem]

/-- A move that has written one more granule of its copy. -/
def QMove.nextGranule (c : CopySpec) (m : QMove) : QMove :=
  { m with done := m.done + 1, state := if m.done + 1 ≥ c.granules then .done else .started }

/-- Such a granule of a move outside a period job, with no tally for it: the move goes on by one granule. -/
theorem State.writeGranule_of_sram {s : State} {t id : Nat} {m : QMove} {j : Job} (hm : (s.tile t).move id = some m)
    (hj : j.p.periodic = false) {c : CopySpec} (hc : c = copySpec m.w m.regs) (hf : c.sf = c.df) (hsk : c.sk = 0)
    (hdk : c.dk = 0) (hw : c.wrap = 0) (ha : c.aten = false)
    (hp : s.sramPoison t (c.src + 256 * m.done) (min 256 (c.len - 256 * m.done)) = none) :
    ((s.writeGranule t m j).tile t).move id = some (m.nextGranule c) ∧
      (s.writeGranule t m j).mem = Memory.writeN s.mem (sramBase t + (c.dst + 256 * m.done))
        (s.sram t (c.src + 256 * m.done) (min 256 (c.len - 256 * m.done))) := by
  obtain ⟨v, hv, htiles, hmem⟩ := State.copyGranule_of_sram j m hf hsk hdk hw hp
  have hexp : s.expired j m = false := by simp [State.expired, hj]
  have hnext : s.writeGranule t m j = v.modMove t m.id (QMove.nextGranule c) := by
    unfold State.writeGranule
    simp only [hexp, ← hc, hv, ha]
    rfl
  have hid : m.id = id := beq_iff_eq.1 (List.find?_some (p := fun m : QMove => m.id == id) hm)
  rw [hnext, State.modMove_tile, State.tile_congr htiles, hid]
  refine ⟨?_, hmem⟩
  exact (find?_mapIf_id id (QMove.nextGranule c) (fun _ => rfl) _).trans (congrArg _ hm)

/-! ## Walks (R219, R220) -/

theorem State.job_id {s : State} {id : BitVec 12} {j : Job} (h : s.job id = some j) : j.id = id :=
  beq_iff_eq.1 (List.find?_some (p := fun x : Job => x.id == id) h)

theorem exec_walkComplete {s : State} {u : WalkUnit} {job : BitVec 12} {addr : BitVec 48} {j : Job} (hw : s.working = true)
    (hj : s.job job = some j) (hmiss : ∀ e ∈ s.xlat[u].cache, e.job = job → e.page ≠ addr.toNat / 2 ^ e.size) (write : Bool)
    (mv : Option (TileIx × Nat)) : exec (.walkComplete u job addr write mv) s = .next (s.walked u j addr write mv) := by
  have hany : (s.xlat[u].cache.any fun e => e.job == job && e.page == addr.toNat / 2 ^ e.size) = false := by
    simpa using hmiss
  rw [exec, execWalkComplete]
  simp only [hj]
  exact when_of_true _ (by rw [hw, hany]; rfl)

/-- A miss whose walk ends at a leaf, with no move that waits on it: what the walk leaves is all (R219). -/
theorem State.walked_of_leaf {s v : State} {u : WalkUnit} {j : Job} {addr : BitVec 48} {size phys level : Nat} {rd wr : Bool}
    (hmiss : ∀ e ∈ s.xlat[u].cache, e.job = j.id → e.page ≠ addr.toNat / 2 ^ e.size)
    (hwalk : (s.bump .xlatMisses u.val).doWalk u j addr.toNat = (v, .leaf size phys rd wr level)) (write : Bool) :
    s.walked u j addr write none = v := by
  have hfind : (s.xlat[u].cache.find? fun e => e.job == j.id && e.page == addr.toNat / 2 ^ e.size) = none :=
    List.find?_eq_none.2 fun e he => by simpa using hmiss e he
  have htranslate : s.translate u j addr.toNat write = (v, permit addr.toNat phys size rd wr level write) := by
    rw [State.translate, hfind, hwalk]
  rw [State.walked, htranslate]
  cases permit addr.toNat phys size rd wr level write <;> rfl

/-! ## Waits (R147, R170, R171) -/

theorem exec_parkWake {s : State} {t : TileIx} {j : Job} (hh : s.holder t = some j) (hr : s.tileRuns t = true)
    (hp : (s.tile t).seq = .parked) (hc : (s.tile t).castle = .none) {v : Nat}
    (hv : v = (((s.tile t).tallies.toArray[(s.tile t).wtal]?).getD 0).toNat) (h1 : 1 ≤ v) :
    exec (.parkWake t) s = .next (((s.setTile t { s.tile t with
      tallies := (s.tile t).tallies.setIfInBounds (s.tile t).wtal (BitVec.ofNat 32 (v - 1)) }).bump
        .tileTallyConsumed (t / 512)).wake t) := by
  subst hv
  rw [exec, execParkWake]
  exact when_of_true _ (by simpa [hh, hr, hp, hc] using h1)

/-- A WAIT_TALLY whose tally has come, without CONSUME: its predicate tells so (R147). -/
theorem exec_waitSatisfied_of_tally {s : State} {t : TileIx} {j : Job} (hh : s.holder t = some j) (hr : s.tileRuns t = true)
    (hs : (s.tile t).seq = .waiting) {tal target pdst : Nat} {dl : Option Nat} (hw : (s.tile t).wait = .tally tal target false pdst dl)
    (hv : target ≤ (((s.tile t).tallies.toArray[tal]?).getD 0).toNat) :
    exec (.waitSatisfied t) s = .next ((s.setTile t ((s.tile t).setPred pdst true)).wake t) := by
  rw [exec, execWaitSatisfied]
  simp only [hh]
  rw [when_of_true _ (by simpa [hr, hs, State.waitMet, hw] using hv)]
  simp only [hw]
  rfl

/-- A FENCE with no move of the tile left (R286). -/
theorem exec_waitSatisfied_of_fence {s : State} {t : TileIx} {j : Job} (hh : s.holder t = some j) (hr : s.tileRuns t = true)
    (hs : (s.tile t).seq = .waiting) (hw : (s.tile t).wait = .fence) (hl : (s.tile t).late = []) (hq : (s.tile t).queue = []) :
    exec (.waitSatisfied t) s = .next (s.wake t) := by
  rw [exec, execWaitSatisfied]
  simp only [hh]
  rw [when_of_true _ (by simp [hr, hs, State.waitMet, hw, hl, hq])]
  simp only [hw]

theorem exec_waitTimeout {s : State} {t : TileIx} {j : Job} (hh : s.holder t = some j) (hr : s.tileRuns t = true)
    (hs : (s.tile t).seq = .waiting) {tal target pdst dl : Nat} {consume : Bool}
    (hw : (s.tile t).wait = .tally tal target consume pdst (some dl)) (ht : dl ≤ s.time.work)
    (hv : (((s.tile t).tallies.toArray[tal]?).getD 0).toNat < target) : exec (.waitTimeout t) s =
      .next (((s.setTile t ((s.tile t).setPred pdst false)).bump .tileSeqWaitTimeouts (t / 512)).wake t) := by
  rw [exec, execWaitTimeout]
  simp only [hw, hh]
  exact when_of_true _ (by simpa [hr, hs, State.waitMet, hw, ht] using hv)

/-! ## What leaves every job as it is -/

@[simp] theorem State.sendListener_jobs (s : State) (l : Listener) (bs : List Byte) : (s.sendListener l bs).jobs = s.jobs := by
  cases l <;> rfl

@[simp] theorem State.event_jobs (s : State) (c : EventCode) (t : Target) (d : List Byte) (a : Option (BitVec 64)) :
    (s.event c t d a).jobs = s.jobs := by
  rw [State.event, State.bump_jobs, State.foldl_keeps State.jobs _ fun _ _ => State.sendListener_jobs _ _ _]

@[simp] theorem State.dropRun_jobs (s : State) (t : Nat) (r : Run) : (s.dropRun t r).jobs = s.jobs := rfl

@[simp] theorem State.flushBusy_jobs (s : State) (t id : Nat) : (s.flushBusy t id).jobs = s.jobs := by
  unfold State.flushBusy
  dsimp only
  split
  · rfl
  · split
    · rfl
    · rw [State.modMove_jobs, State.bump_jobs]

@[simp] theorem State.cutRun_jobs (s : State) (t : Nat) (r : Run) : (s.cutRun t r).jobs = s.jobs := by
  unfold State.cutRun
  split
  · rfl
  · exact State.stopAttempt_jobs _ _ _ _ _ _

@[simp] theorem State.dropRuns_jobs (s : State) (t : Nat) (p : Run → Bool) : (s.dropRuns t p).jobs = s.jobs := by
  unfold State.dropRuns
  dsimp only
  rw [State.foldl_keeps State.jobs _ fun _ _ => State.flushBusy_jobs _ _ _, State.modTile_jobs,
    State.foldl_keeps State.jobs _ fun _ _ => State.cutRun_jobs _ _ _]

@[simp] theorem State.abandonRun_jobs (s : State) (t : Nat) (r : Run) (n : Nat) : (s.abandonRun t r n).jobs = s.jobs := by
  rw [State.abandonRun, State.flushBusy_jobs, State.modMove_jobs, State.bump_jobs, State.dropRun_jobs]

@[simp] theorem State.abandonRuns_jobs (s : State) (t : Nat) : (s.abandonRuns t).jobs = s.jobs := by
  unfold State.abandonRuns
  refine State.foldl_keeps State.jobs _ (fun s r => ?_) _ s
  split
  · split
    · rfl
    · rw [State.abandonRun_jobs, State.cutRun_jobs]
  · rfl

@[simp] theorem State.discardRecords_jobs (s : State) (j : BitVec 12) (ms : List (Nat × Nat)) : (s.discardRecords j ms).jobs = s.jobs := rfl

@[simp] theorem State.jobDoneEvent_jobs (s : State) (j : BitVec 12) (code stopped : Nat) (st : Status) :
    (s.jobDoneEvent j code stopped st).jobs = s.jobs := State.event_jobs _ _ _ _ _

@[simp] theorem State.escRelease_jobs (s : State) (c : Ctx) (x : Share) : (s.escRelease c x).jobs = s.jobs := by
  unfold State.escRelease
  split <;> rfl

@[simp] theorem State.dropCtx_jobs (s : State) (c : Ctx) : (s.dropCtx c).jobs = s.jobs := by
  rw [State.dropCtx, State.modColl_jobs, State.foldl_keeps State.jobs _ fun s x => s.escRelease_jobs c x]

@[simp] theorem State.dropJobCtxs_jobs (s : State) (j : BitVec 12) : (s.dropJobCtxs j).jobs = s.jobs :=
  State.foldl_keeps State.jobs _ State.dropCtx_jobs _ s

@[simp] theorem State.kickPpe_jobs (s : State) (t : Nat) : (s.kickPpe t).jobs = s.jobs := by
  unfold State.kickPpe
  split
  · rfl
  · split
    · rfl
    · rw [State.foldl_keeps State.jobs]
      intro s m
      dsimp only
      split
      · rw [State.modMove_jobs, State.modPpe_jobs]
      · rfl

@[simp] theorem State.refillPpe_jobs (s : State) : s.refillPpe.jobs = s.jobs := by
  rw [State.refillPpe, State.foldl_keeps State.jobs (fun s (p : Nat × Tile) => s.kickPpe p.1) fun s p => s.kickPpe_jobs p.1]

/-! ## Jobs that end (R227, R244) -/

/-- Every job of the number j has ended with the status st, and there is one. -/
def State.EndedAs (s : State) (j : BitVec 12) (st : Status) : Prop :=
  (∃ b ∈ s.jobs, b.id = j) ∧ ∀ b ∈ s.jobs, b.id = j → b.state = .ended ∧ b.restoring = false ∧ b.endStatus = st

section
variable {s u : State} {j : BitVec 12} {st : Status}

theorem State.EndedAs.congr (h : s.EndedAs j st) (hu : u.jobs = s.jobs) : u.EndedAs j st := by
  unfold State.EndedAs at *
  rwa [hu]

/-- The job that its number finds. -/
theorem State.EndedAs.job (h : s.EndedAs j st) : ∃ b, s.job j = some b ∧ b.state = .ended ∧ b.endStatus = st := by
  obtain ⟨⟨b, hb, hid⟩, hall⟩ := h
  cases hf : s.job j with
  | none => exact absurd (beq_iff_eq.2 hid) (List.find?_eq_none.1 hf b hb)
  | some c =>
    obtain ⟨hstate, -, hstatus⟩ := hall c (List.mem_of_find?_eq_some hf) (State.job_id hf)
    exact ⟨c, rfl, hstate, hstatus⟩

/-- A change that ends a job. -/
theorem State.endedAs_modJob (h : ∃ b ∈ s.jobs, b.id = j) {f : Job → Job}
    (hf : ∀ b, (f b).id = b.id ∧ (f b).state = .ended ∧ (f b).restoring = false ∧ (f b).endStatus = st) :
    (s.modJob j f).EndedAs j st := by
  obtain ⟨b, hb, hid⟩ := h
  have hkeep (c : Job) : (if (c.id == j) = true then f c else c).id = c.id := by split <;> simp [hf]
  refine ⟨⟨_, List.mem_map_of_mem hb, (hkeep b).trans hid⟩, fun c hc hcid => ?_⟩
  obtain ⟨a, -, rfl⟩ := List.mem_map.1 hc
  have haid : (a.id == j) = true := beq_iff_eq.2 ((hkeep a).symm.trans hcid)
  rw [if_pos haid]
  exact (hf a).2

/-- A change of another job. -/
theorem State.EndedAs.modJob_ne (h : s.EndedAs j st) {k : BitVec 12} (hk : k ≠ j) {f : Job → Job} (hf : ∀ b, (f b).id = b.id) :
    (s.modJob k f).EndedAs j st := by
  obtain ⟨⟨b, hb, hid⟩, hall⟩ := h
  have hkeep (c : Job) : (if (c.id == k) = true then f c else c).id = c.id := by split <;> simp [hf]
  refine ⟨⟨_, List.mem_map_of_mem hb, (hkeep b).trans hid⟩, fun c hc hcid => ?_⟩
  obtain ⟨a, ha, rfl⟩ := List.mem_map.1 hc
  have haid : a.id = j := (hkeep a).symm.trans hcid
  have hne : a.id ≠ k := fun hak => hk (hak.symm.trans haid)
  simpa [hne] using hall a ha haid

/-- An ended job is not runnable (R247). -/
theorem State.EndedAs.ne_of_runnable (h : s.EndedAs j st) {k : Job} (hk : k ∈ s.jobs) (hr : s.runnable 8 k = true) : k.id ≠ j := by
  intro hid
  obtain ⟨hstate, -, -⟩ := h.2 k hk hid
  simp [State.runnable, hstate] at hr

/-- An ended job holds no tiles (R244). -/
theorem State.EndedAs.ne_of_holds (h : s.EndedAs j st) {k : Job} (hk : k ∈ s.jobs) (hh : k.holds = true) : k.id ≠ j := by
  intro hid
  obtain ⟨hstate, hrestoring, -⟩ := h.2 k hk hid
  simp [Job.holds, hstate, hrestoring] at hh

/-- A request to another job to go (R247 to R249). -/
theorem State.EndedAs.askPreempt (h : s.EndedAs j st) {k : Job} (hk : k.id ≠ j) (urgent : Bool) :
    (s.askPreempt k urgent).EndedAs j st := by
  unfold State.askPreempt
  split
  · exact h
  · dsimp only
    have hasked := State.EndedAs.modJob_ne (f := fun b => { b with
      preempt := some urgent, preemptT := s.time.work, preemptSteps := s.steps.toList, preemptLate := false })
      (h.congr (u := (s.bump .jobPreemptions).bump .jobPreemptionsUrgent 0 0 (if urgent then 1 else 0)) (by simp)) hk fun _ => rfl
    simp only [State.bump_time, State.bump_steps]
    refine hasked.congr ?_
    by_cases hu : urgent = true
    · rw [if_pos hu, State.foldl_keeps State.jobs _ fun s t => ?_]
      split
      · exact s.abandonRuns_jobs t
      · rfl
    · rw [if_neg hu]

/-- Another job takes its tiles (R243, R247). -/
theorem State.EndedAs.takeTiles (h : s.EndedAs j st) {k : Job} (hk : k.id ≠ j) : (s.takeTiles k).EndedAs j st := by
  unfold State.takeTiles State.beginJob
  split
  · refine State.EndedAs.modJob_ne (h.congr ?_) hk fun _ => rfl
    exact State.foldl_keeps State.jobs _ (fun s t => s.modTile_jobs t _) _ s
  · exact h.modJob_ne hk fun _ => rfl

/-- It neither takes tiles nor is asked to go (R247). -/
theorem State.EndedAs.tryJob (h : s.EndedAs j st) (id : BitVec 12) : (s.tryJob id).EndedAs j st := by
  unfold State.tryJob
  split
  · exact h
  · rename_i k hk
    split
    · exact h
    · rename_i hwaits
      have hrun : s.runnable 8 k = true := by
        cases hr : s.runnable 8 k
        · simp [hr] at hwaits
        · rfl
      dsimp only
      split
      · exact h.takeTiles (h.ne_of_runnable (List.mem_of_find?_eq_some hk) hrun)
      · refine List.foldlRecOn _ _ (motive := fun u : State => u.EndedAs j st) h fun u hu b hb => hu.askPreempt ?_ _
        obtain ⟨hmem, hlow⟩ := List.mem_filter.1 hb
        exact h.ne_of_holds hmem (by simp at hlow; exact hlow.2)

theorem State.EndedAs.scheduleJobs (h : s.EndedAs j st) : s.scheduleJobs.EndedAs j st :=
  List.foldlRecOn _ _ (motive := fun u : State => u.EndedAs j st) h fun _ hu _ _ =>
    List.foldlRecOn _ _ (motive := fun u : State => u.EndedAs j st) hu fun _ hv b _ => hv.tryJob b.id

end

/-- A job that has not ended ends with the status that is asked for (R244). -/
theorem State.endJob_endedAs {s : State} {j : BitVec 12} {b : Job} (hb : s.job j = some b) (hs : b.state ≠ .ended) (st : Status) :
    (s.endJob j st).EndedAs j st := by
  unfold State.endJob
  rw [hb]
  simp only [beq_iff_eq, hs, if_false]
  have hthen (v : State) (hv : v.EndedAs j st) : v.scheduleJobs.refillPpe.EndedAs j st :=
    hv.scheduleJobs.congr v.scheduleJobs.refillPpe_jobs
  refine hthen _ (State.EndedAs.congr ?_ (State.jobDoneEvent_jobs _ _ _ _ _))
  refine State.endedAs_modJob ⟨b, ?_, State.job_id hb⟩ fun _ => ⟨rfl, rfl, rfl, rfl⟩
  rw [State.dropJobCtxs_jobs, State.modPpe_jobs, State.foldl_keeps State.jobs, State.discardRecords_jobs]
  · exact List.mem_of_find?_eq_some hb
  · intro s t
    split
    · rw [State.modTile_jobs, State.dropRuns_jobs]
    · rfl

theorem exec_holdTimeout {s : State} {t : TileIx} {id : Nat} {j : Job} (hw : s.working = true)
    (hj : s.jobs.find? (s.heldTooLong t id) = some j) :
    exec (.holdTimeout t id) s = .next ((s.bump .faultTimeouts).endJob j.id .faultTimeout) := by
  rw [exec, execHoldTimeout]
  simp only [hj]
  exact when_of_true _ hw

/-- Settles O43: each event where its conditions hold, and what it leaves of the move, of the tile or of the job. -/
theorem moveEvents : Obligations.MoveEvents := by
  intro s t x
  refine ⟨?completion, ?granule, ?walk, ?hold, fun j hh hr => ⟨?parked, fun hs => ⟨?tally, ?fence, ?timeout⟩⟩⟩
  case completion =>
    intro id m j u hr hm hj hd
    have hexec := exec_moveCompletion hr hm hj hd
    exact ⟨hexec, fun hf hl hten ho => by rw [hexec, State.completeMove_of_plain j hf hl hten ho]⟩
  case granule =>
    intro id m j hs hm hj ho hc
    have hexec := exec_granuleWritten hs hm hj ho hc
    refine ⟨hexec, ?_⟩
    intro c n hper hf hsk hdk hw ha hp
    obtain ⟨hmove, hmem⟩ := State.writeGranule_of_sram hm hper rfl hf hsk hdk hw ha hp
    exact ⟨_, hexec [], hmove, hmem⟩
  case walk =>
    intro u job addr write mv j hw hj hmiss
    refine ⟨exec_walkComplete hw hj hmiss write mv, fun v size phys rd wr level hwalk => ?_⟩
    rw [exec_walkComplete hw hj hmiss, State.walked_of_leaf (State.job_id hj ▸ hmiss) hwalk]
  case hold =>
    intro id j hw hj
    refine ⟨exec_holdTimeout hw hj, fun hjob hs => ⟨_, exec_holdTimeout hw hj, ?_⟩⟩
    have hbump : (s.bump .faultTimeouts).job j.id = some j := by rw [State.job, State.bump_jobs]; exact hjob
    exact (State.endJob_endedAs hbump hs .faultTimeout).job
  case parked => exact fun hp hc hv => exec_parkWake hh hr hp hc rfl hv
  case tally => exact fun tal target pdst dl hw hv => exec_waitSatisfied_of_tally hh hr hs hw hv
  case fence => exact fun hw hl hq => exec_waitSatisfied_of_fence hh hr hs hw hl hq
  case timeout => exact fun tal target c pdst dl hw ht hv => exec_waitTimeout hh hr hs hw ht hv

end Sys2Proof.Machine
end

section
/-! SUPPORT. Proofs of spec/09_jobs_and_periods.md for the commands of jobs: what each command's own body answers where its
conditions hold. -/

namespace Sys2Proof.Machine

/-- A ZCP command is answered as its own body answers on the state that it executes on (R433 to R450). -/
theorem answers_of_body {c : Instr} {z : ZcpRow} {u : Use} {body : State → Ans} {s : State} {ok : State → Prop}
    {f : State → State} {vs : State → List (List Byte)} (hz : zcpRow c = some z)
    (hc : exec c s = .next (s.zcpStep z.req u body)) (hu : z.Fits u)
    (hb : ∀ s, ok s → body s = .ok (f s) (vs s)) : Answers c s ok f vs := by
  intro y s₀ w hy hr hok
  obtain rfl : z = y := Option.some.inj (hz.symm.trans hy)
  rw [hc, hr.ok hu (hb s₀ hok)]

theorem State.jobCmd_of_job {s : State} {id : BitVec 12} {j : Job} (h : s.job id = some j) (f : Job → Ans) :
    s.jobCmd id f = f j := by
  rw [State.jobCmd, h]

/-- A COUNT of 1 to 64 (R226, R259). -/
theorem countRange {n : Nat} (h1 : 1 ≤ n) (h64 : n ≤ 64) : (decide (n < 1) || decide (n > 64)) = false := by
  rw [Bool.or_eq_false_iff, decide_eq_false_iff_not, decide_eq_false_iff_not]; omega

/-- Settles O21: each command's body, where its conditions hold, has the effect and the items that are claimed. -/
theorem jobCommands : Obligations.JobCommands := by
  intro s r job
  refine ⟨?load, ?start, ?stop, ?unload, ?resume, ?preempt, ?statusOfAll, ?status, ?faultsOfAll, ?faults, ?reports, ?break_⟩
  case load =>
    intro p hbad
    refine answers_of_body rfl rfl ⟨rfl, rfl, rfl, rfl, rfl, rfl, hbad⟩ fun s hcheck => ?_
    simp only [hcheck]
  case start =>
    intro j
    refine answers_of_body rfl rfl ⟨rfl, rfl, rfl, rfl, rfl, rfl, rfl⟩ fun s ⟨hj, hs, hw⟩ => ?_
    simp only [State.jobCmd_of_job hj, hs, hw]; rfl
  case stop =>
    intro j
    refine answers_of_body rfl rfl ⟨rfl, rfl, rfl, rfl, rfl, rfl, rfl⟩ fun s hj => ?_
    simp only [State.jobCmd_of_job hj]
  case unload =>
    intro j
    refine answers_of_body rfl rfl ⟨rfl, rfl, rfl, rfl, rfl, rfl, rfl⟩ fun s ⟨hj, hs⟩ => ?_
    have hstate : (j.state == .loaded || j.state == .done || j.state == .ended) = true := by
      rcases hs with hs | hs | hs <;> rw [hs] <;> rfl
    simp only [State.jobCmd_of_job hj, hstate, if_true]
  case resume =>
    intro a tile j
    refine answers_of_body rfl rfl ⟨rfl, rfl, rfl, rfl, rfl, rfl, rfl⟩ fun s ⟨hj, ha, ht⟩ => ?_
    have htile : (tile.map fun (t : TileIx) => !jobHas j.p t.val).getD false = false := by
      cases tile with
      | none => rfl
      | some t => simp [ht t rfl]
    cases a with
    | retry => simp only [State.jobCmd_of_job hj, htile]; rfl
    | skip => simp only [State.jobCmd_of_job hj, htile]; rfl
    | entry k => simp only [State.jobCmd_of_job hj, htile, ge_iff_le, Nat.not_le.mpr (ha k rfl)]; rfl
  case preempt =>
    intro urgent prio j hprio
    have hbad : (if prio.getD 0 > 7 then some Status.reservedValue else none) = none := if_neg (Nat.not_lt.mpr hprio)
    refine answers_of_body rfl rfl ⟨rfl, rfl, rfl, rfl, rfl, rfl, hbad⟩ fun s ⟨hj, hall⟩ => ?_
    have hnone : (s.jobs.any fun k => k.id != job && groupsOverlap k.p (j.preempted urgent prio) &&
        k.p.priority == (j.preempted urgent prio).priority) = false := by
      simpa using hall
    simp only [State.jobCmd_of_job hj, hnone]; rfl
  case statusOfAll =>
    exact answers_of_body rfl rfl ⟨rfl, rfl, rfl, rfl, rfl, rfl, rfl⟩ fun s _ => rfl
  case status =>
    intro j
    refine answers_of_body rfl rfl ⟨rfl, rfl, rfl, rfl, rfl, rfl, rfl⟩ fun s ⟨hne, hj⟩ => ?_
    simp only [hne, if_false, State.jobCmd_of_job hj, id]
  case faultsOfAll =>
    intro count
    refine answers_of_body rfl rfl ⟨rfl, rfl, rfl, rfl, rfl, rfl, rfl⟩ fun s ⟨h1, h64⟩ => ?_
    simp only [countRange h1 h64]; rfl
  case faults =>
    intro count j
    refine answers_of_body rfl rfl ⟨rfl, rfl, rfl, rfl, rfl, rfl, rfl⟩ fun s ⟨hne, hj, h1, h64⟩ => ?_
    simp only [hne, if_false, State.jobCmd_of_job hj, countRange h1 h64]; rfl
  case reports =>
    intro first count j p b
    refine answers_of_body rfl rfl ⟨rfl, rfl, rfl, rfl, rfl, rfl, rfl⟩ fun s ⟨hj, hp, h1, h64, hb⟩ => ?_
    simp only [State.jobCmd_of_job hj, hp, countRange h1 h64]
    generalize s.readReports j p first count = x at hb ⊢
    obtain ⟨t, e⟩ := x
    obtain rfl : e = .ok b := hb
    rfl
  case break_ =>
    intro armed j
    refine answers_of_body rfl rfl ⟨rfl, rfl, rfl, rfl, rfl, rfl, rfl⟩ fun s hj => ?_
    simp only [State.jobCmd_of_job hj]

end Sys2Proof.Machine
end

section
/-! SUPPORT. Proofs of spec/06_projection_engine.md for the commands of the laser cartridges and of the projection engine. -/

namespace Sys2Proof.Machine

/-! ## A command that completes later -/

/-- A ZCP command goes on executing where its own body says so on the state that it executes on (R445). -/
theorem answersLater_of_body {c : Instr} {z : ZcpRow} {u : Use} {body : State → Ans} {s : State} {ok : State → Prop}
    {f : State → State} (hz : zcpRow c = some z) (hc : exec c s = .next (s.zcpStep z.req u body)) (hu : z.Fits u)
    (hb : ∀ s, ok s → body s = .later (f s)) : AnswersLater c s ok f := by
  intro y s₀ w hy hr hok
  obtain rfl : z = y := Option.some.inj (hz.symm.trans hy)
  rw [hc, hr.later hu (hb s₀ hok), id]

/-! ## Drains (R374, R377) -/

theorem State.drainBegins_of_spareIn {s : State} {b : BayIx} (h : s.spareInRuns b = true) :
    s.drainBegins b = s.modBay b fun x => { x with drainWanted := true } := by
  rw [State.drainBegins, if_pos h]

theorem State.drainBegins_of_no_spareIn {s : State} {b : BayIx} (h : s.spareInRuns b = false) :
    s.drainBegins b =
      let t := (s.modBay b fun x => { x with state := .draining, drainT := s.clock, drainWanted := false }).cartEvent b
      if bayKind b = 2 ∧ t.ppe.state ≠ .offline then t.ppeOffline else t := by
  simp only [State.drainBegins, h, Bool.false_eq_true, if_false, Bool.and_eq_true, decide_eq_true_eq]

/-! ## Slots (R177, R178) -/

theorem filter_ne_eq_ite (o : Option SlotIx) (n : SlotIx) : (o.filter fun k => !(k == n)) = if o = some n then none else o := by
  cases o with
  | none => rfl
  | some k => by_cases h : k = n <;> simp [Option.filter, h]

/-- A place of a vector that lies in it. -/
theorem setIfInBounds_fin {α : Type} {n : Nat} (v : Vector α n) (i : Fin n) (a : α) : v.setIfInBounds i a = v.set i a :=
  Vector.toArray_inj.1 (dif_pos (Nat.lt_of_lt_of_eq i.isLt v.size_toArray.symm))

/-- What the mesh loses when one slot loses its transform (R178, R180). -/
theorem Ppe.forget_slot (p : Ppe) (n : SlotIx) : p.forget (fun k => k == n) = { p with
    active := if p.active = some n then none else p.active
    reprog := p.reprog.map fun x => (if x.1 = some n then none else x.1, x.2) } := by
  simp only [Ppe.forget, filter_ne_eq_ite]

theorem Ppe.forget_slot_val (p : Ppe) (n : SlotIx) : p.forget (fun k => k.val == n.val) = p.forget fun k => k == n := by
  refine congrArg p.forget (funext fun k => ?_)
  rw [Bool.eq_iff_iff, beq_iff_eq, beq_iff_eq, Fin.ext_iff]

/-- Settles O25: each command's body, where its conditions hold, has the effect and the items that are claimed. -/
theorem cartridgeAndPpeCommands : Obligations.CartridgeAndPpeCommands := by
  intro s r
  refine ⟨?status, ?ledger, ?drain, ?drainWaits, ?resume, ?reauth, ?load, ?clear, ?slots, ?calibrate, ?calibrating⟩
  case status =>
    intro b
    exact answers_of_body rfl rfl ⟨rfl, rfl, rfl, rfl, rfl, rfl, rfl⟩ fun s _ => rfl
  case ledger =>
    intro b
    refine answers_of_body rfl rfl ⟨rfl, rfl, rfl, rfl, rfl, rfl, rfl⟩ fun s hp => ?_
    simp only [hp]; rfl
  case drain =>
    intro b
    refine answers_of_body rfl rfl ⟨rfl, rfl, rfl, rfl, rfl, rfl, rfl⟩ fun s ⟨hp, ha, hs⟩ => ?_
    simp only [hp, ha, State.drainBegins_of_no_spareIn hs]; rfl
  case drainWaits =>
    intro b
    refine answers_of_body rfl rfl ⟨rfl, rfl, rfl, rfl, rfl, rfl, rfl⟩ fun s ⟨hp, ha, hs⟩ => ?_
    simp only [hp, ha, State.drainBegins_of_spareIn hs]; rfl
  case resume =>
    intro b
    refine answers_of_body rfl rfl ⟨rfl, rfl, rfl, rfl, rfl, rfl, rfl⟩ fun s ⟨hp, hd⟩ => ?_
    simp only [hp, hd]; rfl
  case reauth =>
    intro b
    refine answersLater_of_body rfl rfl ⟨rfl, rfl, rfl, rfl, rfl, rfl, rfl⟩ fun s ⟨hp, hs⟩ => ?_
    rcases hs with hs | hs | hs <;> simp only [hp, hs] <;> rfl
  case load =>
    intro slot p q gains hk hm
    have hbad : (if slot.val ≥ 8 || p.kind > 1 || p.smode > 1 then some Status.reservedValue else none) = none := by
      simp [hk, hm]
    refine answers_of_body rfl rfl ⟨rfl, rfl, rfl, rfl, rfl, rfl, hbad⟩ fun s hcheck => ?_
    simp only [hcheck, Ppe.forget_slot_val, Ppe.forget_slot, setIfInBounds_fin]
  case clear =>
    intro slot
    refine answers_of_body rfl rfl ⟨rfl, rfl, rfl, rfl, rfl, rfl, rfl⟩ fun s hs => ?_
    simp only [hs, Ppe.forget_slot]; rfl
  case slots =>
    intro slot
    refine answers_of_body rfl rfl ⟨rfl, rfl, rfl, rfl, rfl, rfl, rfl⟩ fun s _ => ?_
    cases slot <;> rfl
  case calibrate =>
    refine answersLater_of_body rfl rfl ⟨rfl, rfl, rfl, rfl, rfl, rfl, rfl⟩ fun s ⟨hl, hc⟩ => ?_
    simp only [hl, hc]; rfl
  case calibrating =>
    refine answersLater_of_body rfl rfl ⟨rfl, rfl, rfl, rfl, rfl, rfl, rfl⟩ fun s ⟨hl, hc⟩ => ?_
    simp only [hl, hc]; rfl

end Sys2Proof.Machine
end

section
/-! SUPPORT. Proofs of spec/06_projection_engine.md for the events of the projection engine. What a record that is written and
the light that is seen leave of the tiles, the jobs, the mesh and memory comes first, then each event where its conditions
hold. -/

namespace Sys2Proof.Machine

/-! ## What leaves the tiles, the jobs and the mesh as they are -/

/-- The tiles, the jobs and the batches in the mesh. -/
def State.units (s : State) : List (Nat × Tile) × List Job × List Batch := (s.tiles, s.jobs, s.ppe.mesh)

theorem State.units_eq_iff {s t : State} :
    t.units = s.units ↔ t.tiles = s.tiles ∧ t.jobs = s.jobs ∧ t.ppe.mesh = s.ppe.mesh := by
  simp only [State.units, Prod.mk.injEq]

theorem State.bump_units (s : State) (c : CtrId) (i j n : Nat) : (s.bump c i j n).units = s.units := by
  simp [State.units]

theorem SameBut.units {s t : State} (h : SameBut s t) : t.units = s.units := by
  obtain ⟨z, o, c, i, rfl⟩ := (sameBut_iff s t).mp h
  rfl

/-! ### A write into a stack or into tile SRAM (R198, R203 to R207) -/

theorem State.setFlag_units (s : State) (f : FlagId) (k i : Nat) : (s.setFlag f k i).units = s.units := by
  unfold State.setFlag
  dsimp only
  split
  · exact (SameBut.event _ _ _ _ _).units
  · rfl

theorem State.activate_units (s : State) (m : StackIx) (line : Nat) : (s.activate m line).units = s.units := by
  unfold State.activate State.free
  dsimp only
  split
  · rfl
  · split
    · exact State.bump_units _ _ _ _ _
    · rfl

theorem State.uncorrectable_units (s : State) (m : StackIx) (line : Nat) (c : Bool) :
    (s.uncorrectable m line c).units = s.units := by
  unfold State.uncorrectable
  dsimp only
  split
  · rw [State.setFlag_units]; exact State.bump_units _ _ _ _ _
  · exact State.bump_units _ _ _ _ _

/-- Each count of symbols in error: none, one that is corrected, one that is not, and one that may be miscorrected (R207). -/
theorem State.dramRead_units (s : State) (m : StackIx) (line : Nat) : (s.dramRead m line).1.units = s.units := by
  rw [← s.activate_units m line]
  unfold State.dramRead
  dsimp only
  split
  · exact State.bump_units _ _ _ _ _
  split
  · rfl
  split
  · exact State.bump_units _ _ _ _ _
  split
  · exact State.uncorrectable_units _ m line true
  split
  · rfl
  · exact State.uncorrectable_units _ m line false

/-- A whole entry closes its line, any other reads it first (R206, R207). -/
theorem State.flushEntry_units (s : State) (m : StackIx) (e : WcbEntry) (c : CtrId) : (s.flushEntry m e c).units = s.units := by
  have hdrop (k : Stack) : ((s.setStack m k).bump c m.val).units = s.units := State.bump_units _ _ _ _ _
  unfold State.flushEntry
  dsimp only
  split
  · split
    · exact (State.activate_units _ _ _).trans (hdrop _)
    · exact (State.activate_units _ _ _).trans (hdrop _)
  · have hread (u : State) (n : Nat) : ((u.bump .memWcbRmw n).dramRead m e.line).1.units = u.units :=
      (State.dramRead_units _ _ _).trans (State.bump_units _ _ _ _ _)
    split
    · rw [State.bump_units]
      split
      · exact (hread _ _).trans (hdrop _)
      · exact (hread _ _).trans (hdrop _)
    · exact (hread _ _).trans (hdrop _)

/-- The bytes reach memory, the line's entry of the write-combining buffer takes them, and an entry that is full, or that makes
room, is flushed (R206). -/
theorem State.writeLine_units (s : State) (m : StackIx) (a : Nat) (bs : List Byte) (bad : Bool) :
    (s.writeLine m a bs bad).units = s.units := by
  unfold State.writeLine
  extract_lets line s₁ mask s₂ _ room _ s₃ s₄
  have h₂ : s₂.units = s.units := State.bump_units _ _ _ _ _
  have hroom : room.units = s₂.units := by
    simp only [room]
    split
    · split
      · exact State.flushEntry_units _ _ _ _
      · rfl
    · rfl
  have h₃ : s₃.units = s₂.units := by
    simp only [s₃]
    split
    · exact State.bump_units _ _ _ _ _
    · exact hroom
  have h₄ : s₄.units = s₃.units := by
    simp only [s₄]
    split
    · exact State.flushEntry_units _ _ _ _
    · rfl
  split
  · exact State.bump_units _ _ _ _ _
  · split
    · exact (h₄.trans h₃).trans h₂
    · exact (h₄.trans h₃).trans h₂

theorem State.writePhys_units (s : State) (a : Nat) (bs : List Byte) (bad : Bool) : (s.writePhys a bs bad).units = s.units := by
  unfold State.writePhys
  split
  next m _ =>
    refine State.foldl_keeps State.units _ (fun u p => ?_) _ s
    exact u.writeLine_units m p.1 _ bad
  · split
    · rfl
    · rfl

/-! ## What leaves memory too as it is -/

/-- The tiles, the jobs, the batches in the mesh, and memory. -/
def State.holdings (s : State) : (List (Nat × Tile) × List Job × List Batch) × List Host.Cell := (s.units, s.mem)

theorem SameBut.holdings {s t : State} (h : SameBut s t) : t.holdings = s.holdings := by
  obtain ⟨z, o, c, i, rfl⟩ := (sameBut_iff s t).mp h
  rfl

theorem State.bump_holdings (s : State) (c : CtrId) (i j n : Nat) : (s.bump c i j n).holdings = s.holdings :=
  (SameBut.bump s c i j n).holdings

/-! ### Replies and the source of light (R187, R193, R194, R439, R445, R475) -/

/-- What a final reply sends, keeps and starts is the control processor's, and the configuration chain that it may extend
the security engine's (R439, R441, R444, R475). -/
theorem State.reply_holdings (s : State) (w : Waiting) (change : Bool) (st : Status) (body : List Byte) :
    (s.reply w change st body).holdings = s.holdings := by
  unfold State.reply
  generalize (if body.length > 65536 then (Status.lengthRange, []) else (st, body)) = final
  dsimp only
  rw [(SameBut.startQueued _).holdings, (SameBut.cacheReply _ _ _).holdings, (SameBut.sendReply _ _ _ _ _ _).holdings]
  split
  · exact State.bump_holdings _ _ _ _ _
  · rfl

theorem State.finishZcp_holdings (s : State) (op : Nat) (p : Waiting → Bool) (change : Bool) (st : Status)
    (vs : List (List Byte)) : (s.finishZcp op p change st vs).holdings = s.holdings :=
  State.foldl_keeps State.holdings _ (fun u w => u.reply_holdings w change st (items vs)) _ s

theorem State.ppeOffline_holdings (s : State) : s.ppeOffline.holdings = s.holdings := State.finishZcp_holdings _ _ _ _ _ _

theorem State.spareUp_holdings (s : State) : s.spareUp.holdings = s.holdings := by
  unfold State.spareUp
  dsimp only
  split
  · rfl
  · rfl

theorem State.ppeSwitchover_holdings (s : State) : s.ppeSwitchover.holdings = s.holdings := by
  unfold State.ppeSwitchover
  split
  · exact s.ppeOffline_holdings
  · exact (State.spareUp_holdings _).trans (State.bump_holdings _ _ _ _ _)

/-- A dark slot may make the PPE switch over, whose lasers and state it changes (R193, R194). -/
theorem State.sawSlot_holdings (s : State) (dark : Bool) : (s.sawSlot dark).holdings = s.holdings := by
  unfold State.sawSlot
  extract_lets t
  split
  · exact t.ppeSwitchover_holdings
  · rfl

/-! ### Records (R190, R191, R196) -/

/-- A record takes free values only (logs 2 and 29). -/
theorem State.record_holdings (s : State) (b : Batch) (v : Nat) (bs : List Byte) (dark : Bool) :
    (s.record b v bs dark).1.holdings = s.holdings := by
  unfold State.record
  dsimp only
  split
  · rfl
  · rfl

theorem State.countRecord_holdings (s : State) (slot : Nat) (r : PpeRecord) : (s.countRecord slot r).holdings = s.holdings := by
  have hcounts : (r.counts.foldl (fun s c => s.bump c) s).holdings = s.holdings :=
    State.foldl_keeps State.holdings _ (fun u c => u.bump_holdings c 0 0 1) _ s
  unfold State.countRecord
  dsimp only
  split
  · exact hcounts
  · exact hcounts

/-! ## Batches that enter the mesh (R180 to R182) -/

theorem State.readVectors_nil (s : State) (t : Nat) (j : Job) (c : ProjectSpec) (acc : List (List Byte)) :
    s.readVectors t j c [] acc = (s, acc, none) := rfl

theorem State.readVectors_cons_of_sram {s : State} {t v : Nat} {c : ProjectSpec} (hk : c.sk = 0)
    (hp : s.sramPoison t (c.src + c.bytes * v) c.bytes = none) (j : Job) (vs : List Nat) (acc : List (List Byte)) :
    s.readVectors t j c (v :: vs) acc = s.readVectors t j c vs (acc ++ [s.sram t (c.src + c.bytes * v) c.bytes]) := by
  -- `delta`, as the equations that Lean derives for this recursion are too deep for the kernel.
  delta State.readVectors
  refine (if_neg (hk.trans_ne Nat.zero_ne_one)).trans ?_
  rw [hp]

/-- Source vectors in the tile's own SRAM, none poisoned, are read in order. -/
theorem State.readVectors_of_sram {s : State} {t : Nat} (j : Job) {c : ProjectSpec} (hk : c.sk = 0) {vs : List Nat}
    (hp : ∀ v ∈ vs, s.sramPoison t (c.src + c.bytes * v) c.bytes = none) (acc : List (List Byte)) :
    s.readVectors t j c vs acc = (s, acc ++ vs.map fun v => s.sram t (c.src + c.bytes * v) c.bytes, none) := by
  induction vs generalizing acc with
  | nil => rw [State.readVectors_nil, List.map_nil, List.append_nil]
  | cons v vs ih =>
    rw [State.readVectors_cons_of_sram hk (hp v List.mem_cons_self), ih fun x hx => hp x (List.mem_cons_of_mem v hx),
      List.map_cons, List.append_assoc, List.singleton_append]

/-- The mesh stays with the active slot while batches of it are pending and no turn has come (R182). -/
theorem State.startBatch_of_active {s : State} {a : SlotIx} {e : Project} (ht : s.turnTo = none) (ha : s.ppe.active = some a)
    (he : (s.ppeFront.find? fun e => e.slot == a.val) = some e) : s.startBatch = s.enterMesh e := by
  have hany : (s.ppeFront.any fun e => e.slot == a.val) = true :=
    List.any_eq_true.2 ⟨e, List.mem_of_find?_eq_some he, List.find?_some (p := fun e : Project => e.slot == a.val) he⟩
  simp only [State.startBatch, ht, ha, Option.map_some, Option.getD_some, hany, if_true, Option.none_or, ne_eq,
    not_true_eq_false, if_false, he]

/-- A batch whose vectors can all be read enters the mesh behind the others (R181, R182). -/
theorem State.enterMesh_of_sram {s : State} {e : Project} {m : QMove} {j : Job} (hm : (s.tile e.tile).move e.id = some m)
    (hj : s.job e.job = some j) {c : ProjectSpec} (hc : projectSpec m.w m.regs = c) {vs : List Nat}
    (hvs : (List.range (min 64 (e.total - e.next))).map (e.next + ·) = vs) (hne : vs ≠ []) (hk : c.sk = 0)
    (hp : ∀ v ∈ vs, s.sramPoison e.tile (c.src + c.bytes * v) c.bytes = none) :
    s.enterMesh e = s.modPpe fun p => { p with
      mesh := p.mesh ++ [⟨e.job, e.tile, e.id, e.slot, e.next, c.fmt,
        vs.map fun v => s.sram e.tile (c.src + c.bytes * v) c.bytes, c.dk, c.dst, c.rtal, c.rten, m.epoch, none⟩]
      queue := mapIf (fun x => x.job == e.job && x.tile == e.tile && x.id == e.id)
        (fun x => { x with next := x.next + vs.length }) p.queue } := by
  have hins : (vs.map fun v => s.sram e.tile (c.src + c.bytes * v) c.bytes).isEmpty = false := by
    rw [List.isEmpty_map, List.isEmpty_eq_false_iff]; exact hne
  simp only [State.enterMesh, hm, hj, hc, hvs, State.readVectors_of_sram j hk hp, List.nil_append, hins, Bool.false_eq_true,
    if_false, List.length_map]

/-! ## Batches that leave the mesh (R183, R190) -/

theorem State.tile_of_units {s t : State} (h : t.units = s.units) (n : Nat) : t.tile n = s.tile n :=
  State.tile_congr (State.units_eq_iff.1 h).1 n

theorem State.job_of_units {s t : State} (h : t.units = s.units) (j : BitVec 12) : t.job j = s.job j := by
  rw [State.job, (State.units_eq_iff.1 h).2.1, State.job]

theorem State.units_of_holdings {s t : State} (h : t.holdings = s.holdings) : t.units = s.units := congrArg Prod.fst h

theorem State.mem_of_holdings {s t : State} (h : t.holdings = s.holdings) : t.mem = s.mem := congrArg Prod.snd h

/-- The next record in order, to the tile's own SRAM: it is written and counted, and its PROJECT is one vector further. -/
theorem State.writeRecord_of_sram {s u : State} {j : Job} {b : Batch} {m : QMove} {r : PpeRecord} {bs : List Byte} {dark : Bool}
    (hp : j.p.periodic = false) (hdk : b.dk = 0) (hrt : b.rten = false) (hjob : (s.tile b.tile).job = b.job)
    (hm : (s.tile b.tile).move b.id = some m) (hd : m.done = b.first) (hrec : s.record b b.first bs dark = (u, r)) :
    s.writeRecord j b b.first bs dark =
      ((u.writePhys (sramBase b.tile + (b.dst + 128 * b.first)) r.bytes).countRecord b.slot r).modMove b.tile b.id fun m =>
        { m with done := m.done + 1 } := by
  simp [State.writeRecord, hp, hdk, hrt, hjob, hm, hd, hrec]

theorem State.move_modMove (s : State) (t id : Nat) {f : QMove → QMove} (hf : ∀ m, (f m).id = m.id) :
    ((s.modMove t id f).tile t).move id = ((s.tile t).move id).map f := by
  rw [State.modMove_tile]; exact find?_mapIf_id id f hf _

/-- What the record leaves: the jobs, the mesh, the PROJECT, and memory as the write of the record leaves it. -/
theorem State.writeRecord_leaves {s u : State} {j : Job} {b : Batch} {m : QMove} {r : PpeRecord} {bs : List Byte} {dark : Bool}
    (hp : j.p.periodic = false) (hdk : b.dk = 0) (hrt : b.rten = false) (hjob : (s.tile b.tile).job = b.job)
    (hm : (s.tile b.tile).move b.id = some m) (hd : m.done = b.first) (hrec : s.record b b.first bs dark = (u, r)) {x : State}
    (hx : s.writeRecord j b b.first bs dark = x) :
    x.jobs = s.jobs ∧ x.ppe.mesh = s.ppe.mesh ∧ (x.tile b.tile).move b.id = some { m with done := m.done + 1 } ∧
      x.mem = (u.writePhys (sramBase b.tile + (b.dst + 128 * b.first)) r.bytes).mem := by
  have hv : (u.writePhys (sramBase b.tile + (b.dst + 128 * b.first)) r.bytes).units = s.units := by
    have hu := State.units_of_holdings (s.record_holdings b b.first bs dark)
    rw [hrec] at hu
    rw [State.writePhys_units, hu]
  rw [State.writeRecord_of_sram hp hdk hrt hjob hm hd hrec] at hx
  generalize u.writePhys (sramBase b.tile + (b.dst + 128 * b.first)) r.bytes = v at hv hx ⊢
  have hc := v.countRecord_holdings b.slot r
  have hs : (v.countRecord b.slot r).units = s.units := (State.units_of_holdings hc).trans hv
  obtain ⟨-, hjobs, hmesh⟩ := State.units_eq_iff.1 hs
  have hmem : (v.countRecord b.slot r).mem = v.mem := State.mem_of_holdings hc
  have hmove : ((v.countRecord b.slot r).tile b.tile).move b.id = some m := by rw [State.tile_of_units hs, hm]
  subst hx
  refine ⟨hjobs, hmesh, ?_, hmem⟩
  rw [State.move_modMove, hmove, Option.map_some]
  exact fun _ => rfl

/-- A PROJECT that has met no fault goes on (R181). -/
theorem State.settleProject_of_sound {s : State} {t id : Nat} {m : QMove} (hm : (s.tile t).move id = some m)
    (hf : m.failing = none) (job : BitVec 12) : s.settleProject job t id = s := by
  simp [State.settleProject, hm, hf]

/-- A batch of one vector leaves the mesh as w, in which its PROJECT has vectors left (R183). -/
theorem State.leaveMesh_of_vector {s w : State} {b : Batch} {rest : List Batch} {bs : List Byte} {j k : Job} {m : QMove}
    {dark : List Nat} (hmesh : s.ppe.mesh = b :: rest) (hin : b.inputs = [bs]) (hj : s.job b.job = some j)
    (hw : w = ((s.modPpe fun p => { p with mesh := rest }).writeRecord j b b.first bs (dark.contains 0)).sawSlot (dark.contains 0))
    (hwj : w.job b.job = some k) (hwm : (w.tile b.tile).move b.id = some m) (hf : m.failing = none)
    (hn : m.done < (projectSpec m.w m.regs).nvec) : s.leaveMesh dark = w := by
  have hj' : (s.modPpe fun p => { p with mesh := rest }).job b.job = some j := hj
  have hleft : ¬((w.tile b.tile).job = b.job ∧ (projectSpec m.w m.regs).nvec ≤ m.done) := fun h => Nat.not_le.2 hn h.2
  simp only [State.leaveMesh, hmesh, hin, List.zipIdx_cons, List.zipIdx_nil, List.foldl_cons, List.foldl_nil, hj', Nat.add_zero,
    ← hw, hwj, hwm, State.settleProject_of_sound hwm hf]
  simp [hleft]

/-- What a batch of one vector leaves: its PROJECT is one vector further, and memory holds the record (R181, R183). What its
vector slot tells of the light touches neither. -/
theorem State.leaveMesh_writes {s : State} {b : Batch} {rest : List Batch} {bs : List Byte} {j : Job} {m : QMove}
    (dark : List Nat) (hmesh : s.ppe.mesh = b :: rest) (hin : b.inputs = [bs]) (hj : s.job b.job = some j)
    (hp : j.p.periodic = false) (hdk : b.dk = 0) (hrt : b.rten = false) (hjob : (s.tile b.tile).job = b.job)
    (hm : (s.tile b.tile).move b.id = some m) (hd : m.done = b.first) (hf : m.failing = none)
    (hn : b.first + 1 < (projectSpec m.w m.regs).nvec) :
    (s.leaveMesh dark).ppe.mesh = rest ∧
      ((s.leaveMesh dark).tile b.tile).move b.id = some { m with done := m.done + 1 } ∧
      ∃ u r, State.record (s.modPpe fun p => { p with mesh := rest }) b b.first bs (dark.contains 0) = (u, r) ∧
        (s.leaveMesh dark).mem = (u.writePhys (sramBase b.tile + (b.dst + 128 * b.first)) r.bytes).mem := by
  obtain ⟨u, r, hrec⟩ : ∃ u r, (s.modPpe fun p => { p with mesh := rest }).record b b.first bs (dark.contains 0) = (u, r) :=
    ⟨_, _, rfl⟩
  generalize hx : (s.modPpe fun p => { p with mesh := rest }).writeRecord j b b.first bs (dark.contains 0) = x
  obtain ⟨hxj, hxmesh, hxm, hxmem⟩ :=
    State.writeRecord_leaves (s := s.modPpe fun p => { p with mesh := rest }) hp hdk hrt hjob hm hd hrec hx
  have hsaw := x.sawSlot_holdings (dark.contains 0)
  have hunits := State.units_of_holdings hsaw
  have hwm : ((x.sawSlot (dark.contains 0)).tile b.tile).move b.id = some { m with done := m.done + 1 } := by
    rw [State.tile_of_units hunits, hxm]
  have hwj : (x.sawSlot (dark.contains 0)).job b.job = some j := by
    rw [State.job_of_units hunits, State.job, hxj]; exact hj
  rw [State.leaveMesh_of_vector hmesh hin hj (by rw [hx]) hwj hwm hf (by rw [hd]; exact hn)]
  obtain ⟨-, -, hwmesh⟩ := State.units_eq_iff.1 hunits
  exact ⟨hwmesh.trans hxmesh, hwm, u, r, hrec, (State.mem_of_holdings hsaw).trans hxmem⟩

/-! ## The events (R177, R180, R182, R184, R188, R189, R194) -/

theorem State.live_of_working {s : State} (h : s.working = true) : s.live = true := (Bool.and_eq_true_iff.1 h).1

theorem exec_batchStart {s : State} (hw : s.working = true) (hr : s.ppe.reprog = none) :
    exec .batchStart s = .next s.startBatch := by
  rw [exec, execBatchStart, when_of_true _ (by rw [hw, hr]; rfl)]

theorem exec_batchComplete {s : State} (hw : s.working = true) (hm : s.ppe.mesh ≠ []) (dark : List Nat) :
    exec (.batchComplete dark) s = .next (s.leaveMesh dark) := by
  rw [exec, execBatchComplete, when_of_true _ (by simp [hw, hm])]

theorem exec_slotTurn {s : State} {n : Nat} (hw : s.working = true) (ht : s.turnTo = some n) (hr : s.ppe.reprog = none) :
    exec .slotTurn s = .next (s.reprogram n) := by
  rw [exec, execSlotTurn]
  simp only [ht]
  rw [when_of_true _ (by rw [hw, hr]; rfl)]

theorem exec_reprogramDone {s : State} {n : Option SlotIx} {since : Nat} (hl : s.live = true)
    (hr : s.ppe.reprog = some (n, since)) (ht : since + 2000 ≤ s.time.work) :
    exec .reprogramDone s = .next (s.modPpe fun p => { p with reprog := none, active := n, activeSince := s.time.work }) := by
  rw [exec, execReprogramDone]
  simp only [hr]
  rw [when_of_true _ (by simp [hl, ht])]

theorem exec_slotLoadDone {s : State} {slot : SlotIx} (hl : s.live = true) (hs : s.ppe.slots[slot].loading ≠ none)
    (hc : s.ppe.state ≠ .calibrating) : exec (.slotLoadDone slot) s =
      .next (s.modPpe fun p => { p with slots := p.slots.set slot { p.slots[slot] with loaded := true, loading := none } }) := by
  have hsome : s.ppe.slots[slot].loading.isSome = true := Option.isSome_iff_ne_none.2 hs
  rw [exec, execSlotLoadDone, when_of_true _ (by rw [hl, hsome, bne_iff_ne.2 hc]; rfl)]

theorem exec_driftUpdate {s : State} (hw : s.working = true) (hs : s.ppe.state = .ready) (est : Nat) :
    exec (.driftUpdate est) s = .next (s.driftUpdate est) := by
  rw [exec, execDriftUpdate, when_of_true _ (by rw [hw, hs]; rfl)]

theorem exec_calibrationDone {s : State} (hl : s.live = true) (hs : s.ppe.state = .calibrating) (pass : Bool)
    (dead : List (Fin 128)) : exec (.calibrationDone pass dead) s = .next (s.calibrated pass dead) := by
  rw [exec, execCalibrationDone, when_of_true _ (by rw [hl, hs]; rfl)]

theorem exec_switchover {s : State} (hl : s.live = true) (hs : s.ppe.state = .ready) :
    exec .switchover s = .next s.ppeSwitchover := by
  rw [exec, execSwitchover, when_of_true _ (by rw [hl, hs]; rfl)]

theorem exec_switchoverLight {s : State} (hl : s.live = true) (hs : s.ppe.state = .switching) :
    exec .switchoverLight s = .next (s.modPpe fun p => { p with state := .ready }) := by
  rw [exec, execSwitchoverLight, when_of_true _ (by rw [hl, hs]; rfl)]

/-- An estimate of at most 3 % asks for no calibration (R189). -/
theorem State.driftUpdate_of_small (s : State) {est : Nat} (h : est ≤ 300) :
    s.driftUpdate est = ((s.modPpe fun p => { p with err := est, needDrift := false }).bump .ppeDriftUpdates).setCtr
      ⟨.ppeErrEstimate, 0, 0, 0⟩ (BitVec.ofNat 64 est) := if_neg (Nat.not_lt.2 h)

/-- A calibration that passes, with no more dead outputs than the PPE may have (R188). -/
theorem State.calibrated_of_pass (s : State) {dead : List (Fin 128)} (h : dead.length ≤ 4) :
    s.calibrated true dead = (((s.bump .ppeCalibrations).modPpe fun p => { p with dead := dead }).modPpe fun p => { p with
      state := .ready, calFails := 0, needDrift := false }).finishZcp 0x0513 (fun _ => true) true .success [leBytes 1 0] :=
  if_pos (decide_eq_true h)

/-- With the spare sound and the bay lit the spare becomes the source (R194). -/
theorem State.ppeSwitchover_of_spare {s : State} (hs : s.ppe.state = .ready) (ho : s.ppe.onSpare = false)
    (hf : s.bays[10].lasers[1].failed = false) (hb : s.bays[10].state = .active ∨ s.bays[10].state = .ramping) :
    s.ppeSwitchover = ((s.modPpe fun p => { p with
      state := .switching, switching := s.clock, onSpare := true, darkRun := 0 }).bump .ppeSwitchovers).spareUp := by
  have hlit : s.ppeBayLit = true := by
    rcases hb with hb | hb <;> rw [State.ppeBayLit, hb] <;> rfl
  simp [State.ppeSwitchover, State.modPpe, hs, ho, hf, hlit]

/-- Settles O52: each event where its conditions hold, and the first batch and the oldest one of a tile's own SRAM. -/
theorem photonicEngineEvents : Obligations.PhotonicEngineEvents := by
  intro s hw
  have hl := State.live_of_working hw
  refine ⟨exec_batchStart hw, fun dark hm => exec_batchComplete hw hm dark, ?enters, ?leaves, ?turn,
    fun _ _ => exec_reprogramDone hl, fun _ => exec_slotLoadDone hl, fun est hs => exec_driftUpdate hw hs est, ?drift,
    fun pass dead hs => exec_calibrationDone hl hs pass dead, ?passes, exec_switchover hl, ?spare, exec_switchoverLight hl⟩
  case enters =>
    intro a e m j hr ht ha he hm hj c vs hne hk hp
    rw [exec_batchStart hw hr, State.startBatch_of_active ht ha he, State.enterMesh_of_sram hm hj rfl rfl hne hk hp]
  case leaves =>
    intro b rest bs j m dark hmesh hin hj hp hdk hrt hjob hm hd hf hn
    have hne : s.ppe.mesh ≠ [] := by rw [hmesh]; exact List.cons_ne_nil _ _
    exact ⟨_, exec_batchComplete hw hne dark, s.leaveMesh_writes dark hmesh hin hj hp hdk hrt hjob hm hd hf hn⟩
  case turn =>
    intro n h ht hr
    rw [exec_slotTurn hw ht hr, State.reprogram, dif_pos h]
  case drift =>
    intro est hs h
    rw [exec_driftUpdate hw hs, s.driftUpdate_of_small h]
  case passes =>
    intro dead hs h
    rw [exec_calibrationDone hl hs, s.calibrated_of_pass h]
  case spare =>
    intro hs ho hf hb
    rw [exec_switchover hl hs, State.ppeSwitchover_of_spare hs ho hf hb]

end Sys2Proof.Machine
end

section
/-! SUPPORT. Proofs of spec/07_memory.md: the map commands, the commands of the HBM stacks, and the stacks' own events. -/

namespace Sys2Proof.Machine

/-! ## A range of a job's map (R221) -/

/-- A map command of a resident job acts where its range is not empty and lies in the map. -/
theorem State.mapCmd_of_range {s : State} {job : BitVec 12} {j : Job} {addr len : Nat} (hj : s.job job = some j)
    (hlen : len ≠ 0) (hroot : addr + len ≤ j.p.rootLen * 2 ^ 30) (hspace : addr + len ≤ 2 ^ 48) (f : Job → Ans) :
    s.mapCmd job addr len f = f j := by
  have hin : (decide (addr + len > j.p.rootLen * 2 ^ 30) || decide (addr + len > 2 ^ 48)) = false := by
    rw [Bool.or_eq_false_iff, decide_eq_false_iff_not, decide_eq_false_iff_not]
    exact ⟨Nat.not_lt.mpr hroot, Nat.not_lt.mpr hspace⟩
  simp only [State.mapCmd, hj, hlen, if_false, hin, Bool.false_eq_true]

/-- A length of 0 is a no-op. -/
theorem State.mapCmd_of_empty {s : State} {job : BitVec 12} {j : Job} (hj : s.job job = some j) (addr : Nat) (f : Job → Ans) :
    s.mapCmd job addr 0 f = .ok s := by
  simp only [State.mapCmd, hj, if_true]

/-- What follows when the entries of a range have been rewritten: malformed ones are counted, the caches forget the range, and
the header of the trace area may land (R166, R221 to R223). -/
def State.forgetRange (s : State) (job : BitVec 12) (es : List MapEntry) (addr len : Nat) : State :=
  (((s.countBad es).shootLines job es).shootDown job addr len |>.bump .xlatShootdowns).writeHeader job

/-- The entries that a test selects are rewritten where no leaf reaches out of the range (R221, R223). -/
theorem State.rewriteLeaves_of_within {s : State} {job : BitVec 12} {j : Job} {addr len : Nat} (hj : s.job job = some j)
    (hlen : len ≠ 0) (hroot : addr + len ≤ j.p.rootLen * 2 ^ 30) (hspace : addr + len ≤ 2 ^ 48)
    (hin : ∀ e ∈ s.mapEntries j addr len, e.kind = .leaf → e.within addr len = true) (c : MapEntry → Bool) (x : MapEntry → Nat) :
    s.rewriteLeaves job addr len (fun e => if c e then some (x e) else none) = .ok
      (((s.mapEntries j addr len).foldl (fun s e => if c e then s.writeEntry e.place (x e) else s) s).forgetRange job
        (s.mapEntries j addr len) addr len) := by
  have hnone : ((s.mapEntries j addr len).any fun e => e.kind == .leaf && !e.within addr len) = false := by
    simpa using hin
  rw [State.rewriteLeaves, State.mapCmd_of_range hj hlen hroot hspace]
  simp only [hnone, Bool.false_eq_true, if_false]
  refine congrArg (fun t : State => Ans.ok (t.forgetRange job (s.mapEntries j addr len) addr len)) (List.foldl_ext _ _ _ ?_)
  intro t e _
  cases c e <;> rfl

/-- A range of the stack's own bytes passes the check (R199). -/
theorem State.rangeCheck_of_within {s : State} {m : StackIx} {base size : Nat} (hm : stackOf base = some m)
    (hsize : base % 0x2000000000 + size ≤ stackSize) (hon : s.hbm[m].offline = false) : s.rangeCheck base size = none := by
  simp only [State.rangeCheck, hm, gt_iff_lt, Nat.not_lt.mpr hsize, if_false, hon, Bool.false_eq_true]

/-- Settles O22: each command's body, where its conditions hold, has the effect and the items that are claimed. -/
theorem mapAndStackCommands : Obligations.MapAndStackCommands := by
  intro s r
  refine ⟨?map, ?mapNothing, ?unmap, ?protect, ?read, ?flush, ?flushRange, ?status⟩
  case map =>
    intro job addr len phys page rd wr j s' next hbad
    have hbad : (if mapBad len page rd wr then some Status.reservedValue else none) = none := if_neg (by simp [hbad])
    refine answers_of_body rfl rfl ⟨rfl, rfl, rfl, rfl, rfl, rfl, hbad⟩
      fun s ⟨hj, hlen, hroot, hspace, haddr, hphys, hpages, hfree, hmap, hcheck⟩ => ?_
    have hnone : ((s.mapEntries j addr len).any fun e => e.kind == .leaf) = false := by simpa using hfree
    rw [State.mapCmd_of_range hj hlen hroot hspace]
    simp only [haddr, hphys, hpages, hnone, hmap, hcheck]; rfl
  case mapNothing =>
    intro job addr phys page rd wr j
    exact answers_of_body rfl rfl ⟨rfl, rfl, rfl, rfl, rfl, rfl, rfl⟩ fun s hj => State.mapCmd_of_empty hj addr _
  case unmap =>
    intro job addr len j
    refine answers_of_body rfl rfl ⟨rfl, rfl, rfl, rfl, rfl, rfl, rfl⟩ fun s ⟨hj, hlen, hroot, hspace, hin⟩ => ?_
    exact State.rewriteLeaves_of_within hj hlen hroot hspace hin _ _
  case protect =>
    intro job addr len rd wr j hperm
    have hbad : (if len != 0 && !rd && !wr then some Status.reservedValue else none) = none := by
      rcases Bool.or_eq_true_iff.mp hperm with rfl | rfl <;> simp
    refine answers_of_body rfl rfl ⟨rfl, rfl, rfl, rfl, rfl, rfl, hbad⟩ fun s ⟨hj, hlen, hroot, hspace, hin⟩ => ?_
    exact State.rewriteLeaves_of_within hj hlen hroot hspace hin _ _
  case read =>
    intro job addr j e
    refine answers_of_body rfl rfl ⟨rfl, rfl, rfl, rfl, rfl, rfl, rfl⟩ fun s ⟨hj, hroot, he⟩ => ?_
    simp only [hj, ge_iff_le, Nat.not_le.mpr hroot, if_false, he, id]
  case flush =>
    intro m
    refine answers_of_body rfl rfl ⟨rfl, rfl, rfl, rfl, rfl, rfl, rfl⟩ fun s hon => ?_
    simp only [hon]; rfl
  case flushRange =>
    intro m base size
    refine answers_of_body rfl rfl ⟨rfl, rfl, rfl, rfl, rfl, rfl, rfl⟩ fun s ⟨hm, hsize, hon⟩ => ?_
    simp only [hm, ne_eq, not_true_eq_false, if_false, State.rangeCheck_of_within hm hsize hon]
  case status =>
    intro m
    exact answers_of_body rfl rfl ⟨rfl, rfl, rfl, rfl, rfl, rfl, rfl⟩ fun s _ => rfl

/-! ## A counter that counts (R523) -/

theorem find?_setCtr (k : CtrKey) (v : BitVec 64) (cs : List (CtrKey × BitVec 64)) :
    (Machine.setCtr k v cs).find? (fun p => p.1 == k) = some (k, v) := by
  induction cs with
  | nil => simp [Machine.setCtr]
  | cons p ps ih => by_cases h : p.1 = k <;> simp [Machine.setCtr, h, ih]

theorem State.ctr_setCtr_same (s : State) (k : CtrKey) (v : BitVec 64) : (s.setCtr k v).ctr k = v := by
  rw [State.ctr, State.setCtr, find?_setCtr]; rfl

theorem State.ctr_bump_same (s : State) (id : CtrId) (i j : Nat) :
    (s.bump id i j).ctr ⟨id, i, j, 0⟩ = s.ctr ⟨id, i, j, 0⟩ + 1 :=
  s.ctr_setCtr_same _ _

/-! ## The events of a stack (R206 to R208, R210) -/

theorem State.setStack_hbm_same (s : State) (m : StackIx) (k : Stack) : (s.setStack m k).hbm[m] = k :=
  Vector.getElem_set_self m.isLt

theorem State.stackOn_eq_true {s : State} {m : StackIx} (hr : s.board.rails = true) (hon : s.hbm[m].offline = false) :
    s.stackOn m = true := by
  rw [State.stackOn, hr, hon]; rfl

/-- What holds of every pair with a key holds of the first one found. -/
theorem all_find?_snd {l : List (Nat × Nat)} {key : Nat} {p : Nat → Bool} (h : ∀ c, (key, c) ∈ l → p c = true) :
    ((l.find? fun x => x.1 == key).map Prod.snd).all p = true := by
  cases hf : l.find? fun x => x.1 == key with
  | none => rfl
  | some x =>
    obtain rfl : x.1 = key := beq_iff_eq.mp (List.find?_some hf :)
    exact h x.2 (List.mem_of_find?_eq_some hf)

/-- A stack that holds nothing more of a row to be repaired (R208). -/
def Stack.forgetRow (k : Stack) (br : Nat × Nat) : Stack :=
  { k with badRows := k.badRows.filter fun x => x != br, corrected := k.corrected.filter fun x => x.1 != br }

theorem Stack.not_mem_forgetRow (k : Stack) (br : Nat × Nat) : br ∉ (k.forgetRow br).badRows := by
  simp [Stack.forgetRow]

/-- A row is replaced by a spare (R208). -/
def State.replaceRow (s : State) (m : StackIx) (br : Nat × Nat) : State :=
  (({ s with flash := { s.flash with repair := s.flash.repair ++ [(m.val, br)] } }).setStack m (s.hbm[m].forgetRow br)).bump
    .memRepairRows m.val

/-- A row of a bank with no spare left is reported (R208). -/
def State.reportRow (s : State) (m : StackIx) (br : Nat × Nat) : State :=
  (s.setStack m { s.hbm[m].forgetRow br with failedRows := br :: s.hbm[m].failedRows }).bump .memRepairExhausted m.val

theorem State.replaceRow_stack (s : State) (m : StackIx) (br : Nat × Nat) :
    (s.replaceRow m br).hbm[m] = s.hbm[m].forgetRow br := by
  rw [State.replaceRow, State.bump_hbm, State.setStack_hbm_same]

theorem State.reportRow_stack (s : State) (m : StackIx) (br : Nat × Nat) :
    (s.reportRow m br).hbm[m] = { s.hbm[m].forgetRow br with failedRows := br :: s.hbm[m].failedRows } := by
  rw [State.reportRow, State.bump_hbm, State.setStack_hbm_same]

theorem exec_rowRepair {s : State} {m : StackIx} {bank row : Nat} (hs : s.stackOn m = true)
    (hrow : (bank, row) ∈ s.hbm[m].badRows) :
    exec (.rowRepair m bank row) s =
      .next (if s.sparesUsed m.val bank < 4 then s.replaceRow m (bank, row) else s.reportRow m (bank, row)) := by
  rw [exec, execRowRepair, when_of_true _ (by rw [hs, List.contains_iff_mem.mpr hrow]; rfl)]
  rfl

/-- Settles O44: each event where its conditions hold, and a row of a bank with a spare and of one without. -/
theorem stackEvents : Obligations.StackEvents := by
  intro s m hr hon
  have hs : s.stackOn m = true := State.stackOn_eq_true hr hon
  refine ⟨?age, ?refresh, ?writeback, ?repair⟩
  case age => rw [exec, execWcbAgeFlush, when_of_true _ hs]
  case refresh =>
    intro bank hlast
    rw [exec, execBankRefresh, when_of_true _ (by rw [hs, all_find?_snd fun c hc => decide_eq_true (hlast c hc)]; rfl)]
  case writeback =>
    intro line hline
    rw [exec, execEccCorrectedWriteback, when_of_true _ (by rw [hs, List.contains_iff_mem.mpr hline]; rfl)]
  case repair =>
    intro bank row hrow
    refine ⟨_, exec_rowRepair hs hrow, ?_⟩
    by_cases hspare : s.sparesUsed m.val bank < 4
    · rw [if_pos hspare, State.replaceRow_stack]
      exact ⟨Stack.not_mem_forgetRow _ _, fun _ => ⟨rfl, State.ctr_bump_same _ _ _ _⟩,
        fun hfull => absurd hspare (Nat.not_lt.mpr hfull), rfl⟩
    · rw [if_neg hspare, State.reportRow_stack]
      exact ⟨Stack.not_mem_forgetRow _ _, fun h => absurd h hspare,
        fun _ => ⟨rfl, List.mem_cons_self, State.ctr_bump_same _ _ _ _⟩, rfl⟩

end Sys2Proof.Machine
end

section
/-! SUPPORT. Proofs of spec/09_jobs_and_periods.md for the events of jobs and periods: first when each event acts, then what
its effect comes to in the cases that are claimed. -/

namespace Sys2Proof.Machine

/-! ## Tiles that are prepared (R131, R243) -/

theorem exec_tilePrepared {s : State} {t : TileIx} {j : Job}
    (hj : (s.jobs.find? fun j => j.state == .running && j.preparing.contains t.val) = some j) (hr : s.tileRuns t = true) :
    exec (.tilePrepared t) s = .next (s.prepareTile j t) := by
  rw [exec, execTilePrepared]
  simp only [hj]
  exact when_of_true _ hr

/-- A tile at the entry of a job's program; what counts the tile's steps and numbers its moves goes on. -/
def Job.freshTile (j : Job) (x : Tile) : Tile :=
  { ({} : Tile) with
    seq := .running, pbase := j.p.pbase, len := j.p.imageMoves, pc := j.p.entry, periodEntry := j.p.periodEntry, job := j.id
    prepared := true, stepBase := x.stepBase, heldSteps := x.heldSteps, nextId := x.nextId }

/-- A tile whose program image can be read starts at its entry. -/
theorem State.prepareTile_of_image {s r : State} {j : Job} {t : Nat} {bs : List Byte}
    (himg : ((s.partAny t).zeroSram t).readJob (unitOfTile t) j j.p.image.toNat (32 * j.p.imageMoves) = (r, .ok bs)) :
    s.prepareTile j t =
      (((((r.writeSram (sramBase t + j.p.pbase) bs false).zeroTallies t).modTile t j.freshTile).applyHeld j.id t).modJob j.id
        fun b => { b with preparing := b.preparing.filter fun k => k != t }).fetchCheck t := by
  unfold State.prepareTile
  simp only [himg]
  rfl

/-! ## Save and restore (R236, R237, R244, R256) -/

theorem exec_saveComplete {s : State} {job : BitVec 12} {j : Job} (hw : s.working = true) (hj : s.job job = some j)
    (hr : j.state = .running) (hsave : j.preempt ≠ none ∨ j.saving = true) (hfall : s.fallDue j = false)
    (hstop : s.unitsStopped j = true) : exec (.saveComplete job) s = .next (s.saveJob j) := by
  have hasked : (j.preempt.isSome || j.saving) = true :=
    Bool.or_eq_true_iff.2 (hsave.imp_left Option.isSome_iff_ne_none.2)
  rw [exec, execSaveComplete]
  simp only [hj]
  exact when_of_true _ (by rw [hw, hr, hasked, hfall, hstop]; rfl)

/-- A job saved by pre-emption, and not to lend its tiles, is PREEMPTED. -/
theorem State.saveJob_of_preempt (s : State) {j : Job} (hlend : j.saving = false) : s.saveJob j =
    (let u := (jobTiles j.p).foldl (fun s t => s.saveTile j t) s
     let u := (List.range 6).foldl (fun s d => if (jobTiles j.p).any fun t => t / 512 == d then s.flushDie d else s) u
     let u := (u.bump .ctxSaves 0 0 (jobTiles j.p).length).bump .ctxSaveNs 0 0 (u.time.work - j.preemptT)
     (u.modJob j.id fun b => { b with state := .preempted, saving := false, preempt := none, startWanted := false
       }).scheduleJobs.dropPpe fun e => e.job == j.id) := by
  unfold State.saveJob
  simp only [hlend, Bool.false_eq_true, if_false]

theorem exec_restoreComplete {s : State} {job : BitVec 12} {j : Job} (hw : s.working = true) (hj : s.job job = some j)
    (hr : j.restoring = true) : exec (.restoreComplete job) s = .next (s.restoreJob j) := by
  rw [exec, execRestoreComplete]
  simp only [hj]
  exact when_of_true _ (by rw [hw, hr]; rfl)

/-! ## When the period scheduler acts (R250, R252, R253, R257) -/

/-- A period of a resident job whose schedule is in force, on a module that works. -/
structure State.InForce (s : State) (job : BitVec 12) (j : Job) (p : Period) : Prop where
  works : s.working = true
  resident : s.job job = some j
  period : j.period = some p
  scheduled : j.scheduled = true

section
variable {s : State} {job : BitVec 12} {j : Job} {p : Period}

theorem State.InForce.periodAct (h : s.InForce job j p) {f : Job → Period → Bool} (hf : f j p = true)
    (g : State → Job → Period → State) : s.periodAct job f g = .next (g s j p) := by
  unfold State.periodAct
  simp only [h.resident, h.period]
  exact when_of_true _ (by rw [h.works, h.scheduled, hf]; rfl)

theorem State.InForce.exec_periodStart (h : s.InForce job j p) (hn : p.n = p.fallen) (ht : startT j.p (p.n + 1) ≤ s.globalT) :
    exec (.periodStart job) s = .next (s.startPeriod j p) :=
  h.periodAct (by simp [← hn, ht]) _

theorem State.InForce.exec_check (h : s.InForce job j p) (hn : p.n ≠ p.fallen) (hc : p.checkRun = false)
    (ht : checkT j.p p.n ≤ s.globalT) : exec (.check job) s = .next (s.checkPeriod j p true) :=
  h.periodAct (by simp [hn, hc, ht]) _

theorem State.InForce.exec_flagFall (h : s.InForce job j p) (hn : p.n ≠ p.fallen) (ht : fallT j.p p.n ≤ s.globalT) :
    exec (.flagFall job) s = .next (s.flagFall j p true) :=
  h.periodAct (by simp [hn, ht]) _

theorem State.InForce.exec_lend (h : s.InForce job j p) (hl : j.p.lend = true) (hr : j.state = .running) (hp : j.preempt = none)
    (hsave : j.saving = false) (hfall : s.fallDue j = false) (hprep : j.preparing = []) (hc : s.workComplete j = true)
    (ht : s.globalT + 800000 ≤ reclaimAt j.p p.n) : exec (.lend job) s = .next (s.lend j p) :=
  h.periodAct (by simp [hl, hr, hp, hsave, hfall, hprep, hc, ht]) _

theorem State.InForce.exec_reclaim (h : s.InForce job j p) (hi : j.state = .idle) (hw : j.startWanted = false)
    (hr : j.restoring = false) (ht : p.reclaimT ≤ s.globalT) : exec (.reclaim job) s = .next (s.reclaim j) :=
  h.periodAct (by simp [hi, hw, hr, ht]) _

end

/-! ## The start and the check of a period (R250, R252) -/

/-- The books of a period that starts while its job is RUNNING. -/
def Period.begin (n : Int) (q : Period) : Period :=
  { q with
    n := n, checkRun := false, checked := false, lateStart := false, outputsT := none, workT := none, milestoneT := 0
    milestoneSteps := 0, outputsSteps := 0, milestone := 0, movesDiscarded := 0, epochDrops := 0, finished := false }

/-- The start of a period of a RUNNING job is not counted as late. -/
theorem State.startPeriod_of_running (s : State) {j : Job} (p : Period) (hr : j.state = .running) : s.startPeriod j p =
    (let u := s.modPeriod j.id (Period.begin (p.n + 1))
     let u := (jobTiles j.p).foldl (fun s t => s.startTileBooks j.id t) u
     (jobTiles j.p).foldl (fun s t => if (s.tile t).job == j.id then s.noteWork t else s) u) := by
  have hlate : (j.state != .running) = false := by rw [hr]; rfl
  unfold State.startPeriod
  simp only [hlate, Bool.false_eq_true, if_false]
  rfl

/-- The check of the period in force has been carried out. -/
def State.checkRan (s : State) (j : Job) : State := s.modPeriod j.id fun q => { q with checkRun := true }

/-- The check of a period is posted: the counter and the CHECK event. -/
def State.postCheck (s : State) (j : Job) (p : Period) : State :=
  ((s.modPeriod j.id fun q => { q with checked := true }).bump .periodChecks p.slot).event .check ⟨8, j.id.setWidth 24⟩
    (leBytes 2 j.id.toNat ++ leBytes 1 (p.n % 256).toNat) (some (stamp (checkT j.p p.n)))

theorem State.checkPeriod_of_complete (s : State) {j : Job} (p : Period) (hc : (s.checkRan j).workComplete j = true) :
    s.checkPeriod j p true = s.checkRan j := if_pos hc

theorem State.checkPeriod_of_incomplete (s : State) {j : Job} (p : Period) (hc : (s.checkRan j).workComplete j = false) :
    s.checkPeriod j p true = (s.checkRan j).postCheck j p := if_neg (Bool.eq_false_iff.1 hc)

/-! ## The flag fall of a period whose work is done (R253 to R256, R259) -/

/-- Moves discarded at flag fall are counted; the tally arrivals that the job held are forgotten. -/
def State.discardedAtFall (s : State) (j : Job) (p : Period) (k : Nat) : State :=
  ((s.modJob j.id fun b => { b with held := [] }).bump .periodMovesDiscarded p.slot 0 k).modPeriod j.id fun q =>
    { q with movesDiscarded := q.movesDiscarded + k }

/-- The job's batches leave the projection engine's queue and its collectives are discarded (R183, R404). -/
def State.dropJobWork (s : State) (j : Job) : State :=
  let c := s.dropPpe fun e => e.job == j.id
  ((c.bump .ppeFlagFallDropped 0 0 (s.batchesLeft fun e => e.job == j.id)).bump .collFlagFallDiscarded 0 0
    (c.coll.ctxs.filter fun c => c.job == j.id).length).dropJobCtxs j.id

/-- What flag fall leaves of a period in time, before its record is written. -/
def State.fallInTime (s : State) (j : Job) (p : Period) : State :=
  let a := ((s.bump .periodFlagFalls p.slot).bump .periodLate p.slot 0 0).fallTiles j
  (a.1.discardedAtFall j p a.2).dropJobWork j

/-- A period's record: how many tiles were work complete, and the steps, are taken from before flag fall (R259). -/
def recordAtFall (before r : List Byte) : List Byte :=
  r.take 32 ++ (before.drop 32).take 4 ++ (r.drop 36).take 28 ++ (before.drop 64).take 16 ++ r.drop 80

/-- Such a period's flag fall posts no event; its record is written, the tiles go on and the jobs are scheduled. -/
theorem State.flagFall_of_complete {s : State} {j b : Job} {p q : Period} (hc : s.workComplete j = true) (hst : j.p.staleWords = [])
    (hb : (s.fallInTime j p).job j.id = some b) (hq : b.period = some q) : s.flagFall j p true =
    (let u := s.fallInTime j p
     let r := recordAtFall (s.periodRecord j p false) (u.periodRecord b q false)
     let v := (u.schedWrite b (b.p.reportBase.toNat + 128 * (q.n % b.p.reportCount).toNat) r).modPeriod j.id fun q =>
       { q with fallen := q.n }
     ((jobTiles j.p).foldl (fun s t => if (s.tile t).job == j.id then s.kickAll t else s) v).scheduleJobs) := by
  unfold State.fallInTime State.discardedAtFall State.dropJobWork at hb
  unfold State.flagFall
  simp only [hc, hst, hb, hq, Bool.not_true, Bool.false_eq_true, if_false, if_true, List.foldl_nil, Option.getD_some]
  rfl

/-- Settles O45: each event where its conditions hold, and what its effect comes to. -/
theorem jobAndPeriodEvents : Obligations.JobAndPeriodEvents := by
  intro s hw
  refine ⟨?prepared, ?saved, ?restored, ?scheduler, ?fall⟩
  case prepared =>
    intro t j hj hr
    refine ⟨exec_tilePrepared hj hr, fun r bs himg => ?_⟩
    rw [exec_tilePrepared hj hr, State.prepareTile_of_image himg]
    rfl
  case saved =>
    intro job j hj hr hsave hfall hstop
    have hexec := exec_saveComplete hw hj hr hsave hfall hstop
    refine ⟨hexec, fun hlend => ?_⟩
    rw [hexec, s.saveJob_of_preempt hlend]
  case restored =>
    intro job j hj hr
    exact ⟨exec_restoreComplete hw hj hr, exec_restoreComplete hw hj hr⟩
  case scheduler =>
    intro job j p hj hp hs
    have h : s.InForce job j p := ⟨hw, hj, hp, hs⟩
    refine ⟨fun hn ht => ⟨h.exec_periodStart hn ht, fun hr => ?_⟩,
      fun hn hc ht => ⟨h.exec_check hn hc ht, fun hdone => ?_, fun hopen => ?_⟩, h.exec_flagFall, h.exec_lend, h.exec_reclaim⟩
    · rw [h.exec_periodStart hn ht, s.startPeriod_of_running p hr]
      rfl
    · rw [h.exec_check hn hc ht, s.checkPeriod_of_complete p hdone]
      rfl
    · rw [h.exec_check hn hc ht, s.checkPeriod_of_incomplete p hopen]
      rfl
  case fall =>
    intro job j p u hj hp hs hn ht hc hst _ hu b q hb hq
    have h : s.InForce job j p := ⟨hw, hj, hp, hs⟩
    obtain rfl : s.fallInTime j p = u := hu
    rw [h.exec_flagFall hn ht, State.flagFall_of_complete hc hst hb hq]
    rfl

end Sys2Proof.Machine
end

section
/-! SUPPORT. Proofs of spec/10_fabric_transport.md for the timers of the transport and the messages that reach the endpoint:
what a lookup that succeeds makes of each row, and what its effect comes to in the cases that are claimed. -/

namespace Sys2Proof.Machine

/-! ## The timers of the transport (R278, R281 to R283, R289) -/

theorem exec_receiptFlush {s : State} {src : BitVec 16} {p : PendRcpt} (hw : s.working = true)
    (hp : (s.fab.pend.find? fun p => p.src == src) = some p) (hs : p.seqs ≠ []) (ht : p.oldest + 500 ≤ s.time.work) :
    exec (.receiptFlush src) s = .next (s.flushReceipts src) := by
  rw [exec, execReceiptFlush]
  simp only [hp]
  exact when_of_true _ (by simp [hw, hs, ht])

/-- What a source's pending receipts are sent as (R278, R279). -/
theorem State.flushReceipts_of_pending {s : State} {src : BitVec 16} {p : PendRcpt}
    (hp : (s.fab.pend.find? fun p => p.src == src) = some p) : s.flushReceipts src =
    (let es := groupReceipts p.seqs
     let u := s.modFab fun f => { f with pend := mapIf (fun x => x.src == src) (fun x => { x with seqs := [] }) f.pend }
     (List.range (ceilDiv es.length 32)).foldl (fun s k =>
       s.message src 4 1 0 (((es.drop (32 * k)).take 32).flatMap receiptWord)) u) := by
  rw [State.flushReceipts]
  simp only [hp]

section
variable {s : State} {seq : BitVec 24} {e : Ort}

theorem exec_retransmitTimeout (hw : s.working = true) (he : s.entry seq = some e) (hn : e.wait = .none)
    (ht : e.last + s.fab.rto / 4 ≤ s.time.work) :
    exec (.retransmitTimeout seq) s = .next (s.resend e .fabTxRetransmitTimeout) := by
  rw [exec, execRetransmitTimeout]
  simp only [he]
  exact when_of_true _ (by simp [hw, hn, ht])

theorem exec_backoffExpiry {till : Nat} (hw : s.working = true) (he : s.entry seq = some e) (hb : e.wait = .backoff till)
    (ht : till ≤ s.time.work) : exec (.backoffExpiry seq) s = .next (s.resend e .fabTxRetransmitBackoff) := by
  rw [exec, execBackoffExpiry]
  simp only [he, hb]
  exact when_of_true _ (by simp [hw, ht])

theorem exec_abandon (hw : s.working = true) (he : s.entry seq = some e) (ht : e.first + s.fab.rto ≤ s.time.work) :
    exec (.abandon seq) s = .next (((s.retire e).bump .fabOrtAbandoned).ownerFault e.owner
      { status := .transportTimeout, addr := e.q.waddr.toNat, write := e.q.op != 1 }) := by
  rw [exec, execAbandon]
  simp only [he]
  exact when_of_true _ (by simp [hw, ht])

end

/-- 2 µs have passed since every LOW_MARK to a destination (R281). -/
theorem State.lowFree_eq_true {s : State} {dst : BitVec 16}
    (h : ∀ x ∈ s.fab.lowTimes, x.1 = dst → x.2 + 2000 ≤ s.time.work) : s.lowFree dst = true := by
  rw [State.lowFree, List.all_eq_true]
  intro x hx
  by_cases hd : x.1 = dst
  · simp [h x hx hd]
  · simp [hd]

theorem exec_lowMarkTimer {s : State} {dst : BitVec 16} {p : Peer} (hw : s.working = true)
    (hp : (s.fab.peers.find? fun p => p.dst == dst) = some p) (hr : p.retired = true) (hl : s.lowFree dst = true) :
    exec (.lowMarkTimer dst) s = .next ((s.sendLow dst).modFab fun f => { f with
      peers := mapIf (fun p => p.dst == dst) (fun p => { p with retired := false }) f.peers }) := by
  rw [exec, execLowMarkTimer]
  simp only [hp]
  exact when_of_true _ (by rw [hw, hr, hl]; rfl)

theorem exec_rateRaise {s : State} {dst : BitVec 16} {p : Peer} (hw : s.working = true)
    (hp : (s.fab.peers.find? fun p => p.dst == dst) = some p) (hr : p.rate < 256) (ht : p.lastRaise + 8000 ≤ s.time.work) :
    exec (.rateRaise dst) s = .next (s.modFab fun f => { f with
      peers := mapIf (fun p => p.dst == dst) (fun p => { p with rate := min 256 (p.rate + 16), lastRaise := s.time.work })
        f.peers }) := by
  rw [exec, execRateRaise]
  simp only [hp]
  exact when_of_true _ (by simp [hw, hr, ht])

/-- The owner of an entry that faults is a move: it fails on the answer (R229, R283, R291). -/
theorem State.ownerFault_of_move (s : State) {o : OrtOwner} {job : BitVec 12} {t id ix : Nat} (ho : o = .move job t id ix)
    (f : Suspend) : s.ownerFault o f =
    (s.modJobTile job t fun x => x.modFabMove id fun m => { m with failing := some (m.failing.getD f) }).kickFab t := by
  rw [ho, State.ownerFault, State.failMove]

/-- Settles O47: each timer when its time has come, and a move whose packet is abandoned. -/
theorem transportTimers : Obligations.TransportTimers := by
  intro s hw
  refine ⟨?flush, ?timeout, ?backoff, ?abandon, ?lowMark, ?rate⟩
  case flush =>
    intro src p hp hs ht
    rw [exec_receiptFlush hw hp hs ht, State.flushReceipts_of_pending hp]
  case timeout =>
    intro seq e he hn ht
    rw [exec_retransmitTimeout hw he hn ht, State.resend]
  case backoff =>
    intro seq e till he hb ht
    rw [exec_backoffExpiry hw he hb ht, State.resend]
  case abandon =>
    intro seq e he ht
    refine ⟨exec_abandon hw he ht, fun job t id ix ho => ?_⟩
    rw [exec_abandon hw he ht, State.ownerFault_of_move _ ho]
  case lowMark =>
    intro dst p hp hr hl
    exact exec_lowMarkTimer hw hp hr (State.lowFree_eq_true hl)
  case rate =>
    intro dst p hp hr ht
    exact exec_rateRaise hw hp hr ht

/-! ## Requests that are admitted (R267, R270 to R272) -/

/-- A request of a row's own operation, for this module. -/
theorem State.requestRow_of_op {s : State} {p : Option PortIx} {q : Request} {op : Nat} (hh : s.hears p = true)
    (hd : s.fid = some q.dst) (hop : q.op.toNat = op) : s.requestRow p q op = .next (s.request q) :=
  when_of_true _ (by simp [hh, hd, hop])

section
variable {s : State} {p : Option PortIx} {q : Request} (hh : s.hears p = true) (hd : s.fid = some q.dst)
include hh hd

theorem exec_requestPut (hop : q.op = 0) : exec (.requestPut p q) s = .next (s.request q) :=
  State.requestRow_of_op hh hd (congrArg BitVec.toNat hop)

theorem exec_requestGet (hop : q.op = 1) : exec (.requestGet p q) s = .next (s.request q) :=
  State.requestRow_of_op hh hd (congrArg BitVec.toNat hop)

theorem exec_requestAtomic (hop : q.op = 2) : exec (.requestAtomic p q) s = .next (s.request q) :=
  State.requestRow_of_op hh hd (congrArg BitVec.toNat hop)

theorem exec_requestSignal (hop : q.op = 3) : exec (.requestSignal p q) s = .next (s.request q) :=
  State.requestRow_of_op hh hd (congrArg BitVec.toNat hop)

end

section
variable {s r : State} {q : Request} {e : BitVec 256} {o : Job} {ps : List (Nat × Nat × Nat)}

/-- Every check of R267 that comes before the window's is passed. -/
theorem State.Admits.request (h : s.Admits q e o) : s.request q = s.admitRequest q false := by
  have hheld : ¬(q.op = 2 ∧ s.atomicsHeld = true) := fun ⟨h2, hb⟩ => by simp [h.accepted h2] at hb
  have hfresh : (s.fab.dedup.find? fun d => d.src == q.src && d.seq == q.seq) = none :=
    List.find?_eq_none.mpr fun d hd => by simpa using h.fresh d hd
  unfold State.request State.accept
  simp only [Bool.and_eq_true, decide_eq_true_eq, if_neg hheld, h.legal, hfresh]
  by_cases hc : q.cls.toNat = 3
  · obtain ⟨j, hj, hper, hep⟩ := h.epoch hc
    simp [hj, hper, hep, Option.filter]
  · simp [hc]

/-- No other request waits to be applied before an admitted one (R284). -/
theorem State.Admits.inOrder (h : s.Admits q e o) :
    (q.ord && q.opv && !(s.fab.dedup.any fun d => d.src == q.src && d.seq == q.oprev) && !s.beforeLow q.src q.oprev) = false := by
  cases ho : q.ord with
  | false => rfl
  | true =>
    cases hv : q.opv with
    | false => rfl
    | true =>
      rcases h.order ho hv with ⟨d, hd, hsrc, hseq⟩ | hlow
      · have hany : (s.fab.dedup.any fun d => d.src == q.src && d.seq == q.oprev) = true :=
          List.any_eq_true.mpr ⟨d, hd, by simp [hsrc, hseq]⟩
        simp [hany]
      · simp [hlow]

theorem State.Admits.hasRoom (h : s.Admits q e o) : decide (s.fab.dedup.length ≥ 65536) = false :=
  decide_eq_false (Nat.not_le.mpr h.room)

theorem State.Admits.request_of_signal (h : s.Admits q e o) (hop : q.op = 3) : s.request q = s.applySignal q o := by
  rw [h.request, State.admitRequest]
  simp only [h.window, Bool.not_false, Bool.and_true, h.inOrder, h.hasRoom, Bool.and_false, Bool.false_eq_true, if_false, hop, if_true]

/-- A request that reaches memory and meets no fault there: its operation decides. -/
theorem State.Admits.request_of_mapped (h : s.Admits q e o) (hop : q.op ≠ 3) (hc : s.isCollData q = false)
    (hm : s.inboundMap o (winLbase e + (q.waddr.toNat - winWbase e)) (reqBytes q) (q.op != 0) (q.op != 1) = (r, some (.ok ps))) :
    s.request q = if q.op = 0 then r.applyPut q o ps else if q.op = 1 then r.applyGet q o e ps false else r.applyAtomic q o e ps := by
  rw [h.request, State.admitRequest]
  simp only [h.window, Bool.not_false, Bool.and_true, h.inOrder, h.hasRoom, Bool.and_false, Bool.false_eq_true, if_false, hop, hc, hm]

/-- A GET whose memory is not poisoned is answered with its bytes (R270, R277). -/
theorem State.applyGet_of_read {u : State} {bs : List Byte} (o : Job) (e : BitVec 256) (hr : r.readPieces ps = (u, .ok bs)) :
    r.applyGet q o e ps false = (((if q.ord then u.remember q none else u).countRx q).message q.src 2 1 (q.job.toNat * 2 ^ 116) bs
      q.seq.toNat q.ce).lastApplied q := by
  rw [State.applyGet]
  simp only [hr, Bool.not_false, Bool.and_true, Bool.false_eq_true, if_false]

/-- An ATOMIC whose operand in memory is not poisoned (R271, R287, R288). -/
theorem State.applyAtomic_of_read {u : State} {a : Nat × Nat × Nat} {bs : List Byte} (o : Job) (e : BitVec 256)
    (hr : r.readPieces (a :: ps) = (u, .ok bs)) :
    r.applyAtomic q o e (a :: ps) =
      (let w := aopWidth q.aop.toNat
       let v := u.atomicValue a.1 q.aop.toNat (leNat bs) (leNat (if q.aop.toNat ≥ 13 then q.payload.drop w else q.payload))
         (leNat (q.payload.take w))
       let t := (v.1.writePhys a.1 (leBytes w v.2)).bump .fabAtomicOps
       let t := if q.rten then t.arrive o.id q.rtile.toNat q.rtal.toNat 1 else t
       (((t.remember q (some (BitVec.ofNat 64 (leNat bs)))).countRx q).atomicReply q (BitVec.ofNat 64 (leNat bs))).lastApplied q) := by
  rw [State.applyAtomic]
  simp only [hr]

end

/-! ## Answers to the module's own requests (R270, R271, R277, R282, R291) -/

section
variable {s : State} {seq : BitVec 24} {e : Ort}

/-- An entry that is answered: CE cuts the rate to its destination, and it is retired (R277, R289). -/
def State.settled (s : State) (e : Ort) (ce : Bool) : State :=
  ((if ce then s.cutRate e.q.dst else s).retire e).bump .fabOrtReceipted

theorem State.receiptSeq_of_entry (he : s.entry seq = some e) (ce : Bool) :
    s.receiptSeq seq ce = (s.settled e ce).answered e.owner := by
  rw [State.receiptSeq]
  simp only [he]
  rfl

theorem State.atomicAnswer_of_move {job : BitVec 12} {t id ix : Nat} {m : QMove} {ce : Bool} (he : s.entry seq = some e)
    (ho : e.owner = .move job t id ix) (hm : (s.settled e ce).ownerMove e.owner = some m) (old : BitVec 64) :
    s.atomicAnswer seq ce old = ((s.settled e ce).modJobTile job t fun x =>
      x.modFabMove id fun m => { m with desc := leBytes 8 old.toNat }).answered e.owner := by
  rw [ho] at hm ⊢
  rw [State.atomicAnswer]
  simp only [he, ho]
  rw [← State.settled]
  simp only [hm]

/-- Where a GET writes a packet of its data and what follows: the job's own memory, or the tile's SRAM (R219, R270). -/
theorem State.getData_of_move {job : BitVec 12} {t id ix : Nat} {m : QMove} {j : Job} {ce : Bool} (he : s.entry seq = some e)
    (ho : e.owner = .move job t id ix) (hm : (s.settled e ce).ownerMove e.owner = some m) (hj : (s.settled e ce).job job = some j)
    (hx : (s.settled e ce).expired j m = false) {c : FabSpec} (hc : fabSpec m.w m.regs = c) (hop : c.op = 0x42)
    {bs : List Byte} {payload : List Byte} (hb : payload.take (min 256 (c.len - 256 * ix)) = bs) {r : State}
    (hr : (c.lk = 1 ∧ (s.settled e ce).writeJob 6 j (c.laddr + 256 * ix) bs = (r, none)) ∨
      (c.lk ≠ 1 ∧ ∃ b, (s.settled e ce).sramOf j t = some b ∧ (s.settled e ce).writePhys (b + (c.laddr + 256 * ix)) bs = r)) :
    s.getData seq ce payload = (if c.lten then r.arrive job t c.ltal 1 else r).answered e.owner := by
  rw [ho] at hm ⊢
  rw [State.getData]
  simp only [he, ho]
  rw [← State.settled]
  simp only [hm, hj, hc, hop, hx, hb, ne_eq, not_true_eq_false, if_false, Bool.false_eq_true]
  rcases hr with ⟨hlk, hw⟩ | ⟨hlk, b, hs, rfl⟩
  · simp only [hlk, if_true, hw]
  · simp only [hlk, if_false, hs]

/-- Of the 32 SEQs that an entry of a RECEIPT covers, a mask of 1 names the first alone (R279). -/
theorem foldl_range_mask_one {α : Type} (f : α → BitVec 24 → α) (a : α) (seq : BitVec 24) :
    (List.range 32).foldl (fun a i => if (1 : BitVec 32).getLsbD i then f a (seq + BitVec.ofNat 24 i) else a) a = f a seq := by
  rw [List.range_succ_eq_map, List.foldl_cons, List.foldl_map, List.foldl_fixed' fun i => if_neg (by simp)]
  simp

@[simp] theorem State.bump_entry (s : State) (id : CtrId) (i j n : Nat) : (s.bump id i j n).entry seq = s.entry seq := by
  rw [State.entry, State.bump_fab, State.entry]

theorem State.nakEntry_of_retry (he : s.entry seq = some e) :
    s.nakEntry seq Reason.retry.code = (s.bump .fabNakRx Reason.retry.code.toNat).modOrt seq fun e => { e with
      backoffs := e.backoffs + 1, wait := .backoff (s.time.work + 1000 * 2 ^ min e.backoffs 6 + seq.toNat % 16 * 64) } := by
  have hr : ((Reason.ofCode Reason.retry.code).filter fun r => r.code.toNat < 0x20).getD .malformed = .retry := by decide
  rw [State.nakEntry]
  simp only [hr, State.bump_entry, he, State.bump_time]

/-- A request refused before it met a window has no owner (R225, R230). -/
theorem State.peerOwner_of_noWindow (s : State) (q : Request) : s.peerOwner q .noWindow = (0, s) := rfl

theorem State.nakEntry_of_noWindow (he : s.entry seq = some e) :
    s.nakEntry seq Reason.noWindow.code =
      (((s.bump .fabNakRx Reason.noWindow.code.toNat).retire e).bump .fabOrtReceipted).ownerFault e.owner
        { status := .noWindow, addr := e.q.waddr.toNat, remote := true, peer := e.q.dst, write := e.q.op != 1 } := by
  have hr : ((Reason.ofCode Reason.noWindow.code).filter fun r => r.code.toNat < 0x20).getD .malformed = .noWindow := by decide
  rw [State.nakEntry]
  simp only [hr, State.bump_entry, he, State.peerOwner_of_noWindow, Reason.status]

theorem State.lostSeq_of_entry (he : s.entry seq = some e) : s.lostSeq seq = s.resend e .fabTxRetransmitLost e.port := by
  rw [State.lostSeq]
  simp only [he]

end

/-! ## When a message acts -/

section
variable {s : State} (hw : s.working = true)
include hw

theorem exec_getData (seq : BitVec 24) (ce : Bool) (payload : List Byte) :
    exec (.getData seq ce payload) s = .next (s.getData seq ce payload) := by
  rw [exec, execGetData, when_of_true _ hw]

theorem exec_atomicReply (seq : BitVec 24) (ce : Bool) (old : BitVec 64) :
    exec (.atomicReply seq ce old) s = .next (s.atomicAnswer seq ce old) := by
  rw [exec, execAtomicReply, when_of_true _ hw]

theorem exec_receipt (es : List ReceiptEntry) : exec (.receipt es) s = .next (es.foldl (fun s e => (List.range 32).foldl (fun s i =>
    if e.mask.getLsbD i then s.receiptSeq (e.base + BitVec.ofNat 24 i) e.ce else s) s) s) := by
  rw [exec, execReceipt, when_of_true _ hw]

theorem exec_nak (src : BitVec 16) (es : List (BitVec 24 × BitVec 8)) :
    exec (.nak src es) s = .next (es.foldl (fun s e => s.nakEntry e.1 e.2) s) := by
  rw [exec, execNak, when_of_true _ hw]

theorem exec_lost (src : BitVec 16) (port : BitVec 4) (seqs : List (BitVec 24)) :
    exec (.lost src port seqs) s = .next (seqs.foldl State.lostSeq s) := by
  rw [exec, execLost, when_of_true _ hw]

end

/-- Settles O46: which requests are heard, what those that are admitted do, and what an answer does to its entry. -/
theorem endpointMessages : Obligations.EndpointMessages := by
  intro s hw
  refine ⟨?rows, ?mapped, ?signal, exec_getData hw, ?data, exec_atomicReply hw, ?old, exec_receipt hw, ?receipted, exec_nak hw,
    ?retry, ?noWindow, exec_lost hw, ?resent, ?lowMark, ?congMap⟩
  case rows =>
    exact fun p q hh hd => ⟨exec_requestPut hh hd, exec_requestGet hh hd, exec_requestAtomic hh hd, exec_requestSignal hh hd⟩
  case mapped =>
    intro p q e o r ps hh hd ha hc hm
    have hreq (hop : q.op ≠ 3) := ha.request_of_mapped hop hc hm
    refine ⟨fun h => ?put, fun u bs h hr => ?get, fun a rest u bs h hps hr => ?atomic⟩
    case put => rw [exec_requestPut hh hd h, hreq (by simp [h]), if_pos h, State.applyPut]
    case get =>
      rw [exec_requestGet hh hd h, hreq (by simp [h]), if_neg (by simp [h]), if_pos h, State.applyGet_of_read o e hr]
    case atomic =>
      subst hps
      rw [exec_requestAtomic hh hd h, hreq (by simp [h]), if_neg (by simp [h]), if_neg (by simp [h]),
        State.applyAtomic_of_read o e hr]
  case signal =>
    intro p q e o hh hd ha hop
    rw [exec_requestSignal hh hd hop, ha.request_of_signal hop, State.applySignal]
  case data =>
    intro seq ce payload e u job t id ix m j he hu ho hm hj _ hx c bs hop
    obtain rfl : s.settled e ce = u := hu
    refine ⟨fun r hlk hr => ?_, fun b hlk hb => ?_⟩
    · rw [exec_getData hw, State.getData_of_move he ho hm hj hx rfl hop rfl (.inl ⟨hlk, hr⟩)]
    · rw [exec_getData hw, State.getData_of_move he ho hm hj hx rfl hop rfl (.inr ⟨hlk, b, hb, rfl⟩)]
  case old =>
    intro seq ce old e u job t id ix m he hu ho hm
    obtain rfl : s.settled e ce = u := hu
    rw [exec_atomicReply hw, State.atomicAnswer_of_move he ho hm]
  case receipted =>
    intro seq ce e he
    rw [exec_receipt hw, List.foldl_cons, List.foldl_nil]
    dsimp only
    rw [foldl_range_mask_one (fun (s : State) seq => s.receiptSeq seq ce), State.receiptSeq_of_entry he, State.settled]
  case retry =>
    intro src seq e he
    rw [exec_nak hw, List.foldl_cons, List.foldl_nil, State.nakEntry_of_retry he]
  case noWindow =>
    intro src seq e job t id ix he ho
    rw [exec_nak hw, List.foldl_cons, List.foldl_nil, State.nakEntry_of_noWindow he, State.ownerFault_of_move _ ho]
  case resent =>
    intro src port seq e he
    rw [exec_lost hw, List.foldl_cons, List.foldl_nil, State.lostSeq_of_entry he, State.resend]
  case lowMark =>
    intro src low
    rw [exec, execLowMark, when_of_true _ hw, State.takeLow]
  case congMap =>
    intro src record hr
    rw [exec, execCongMap, when_of_true _ (by rw [hw, hr]; rfl)]

end Sys2Proof.Machine
end

section
/-! SUPPORT. Proofs of spec/10_fabric_transport.md for the commands of the plan, the ports, the routes and the windows, and
AUDIT. -/

namespace Sys2Proof.Machine

/-! ## Routes and windows (R265, R310) -/

/-- A COUNT of 1 to 1,024 of the table's entries (R310). -/
theorem routeRange {first n : Nat} (h1 : 1 ≤ n) (hmax : n ≤ 1024) (hend : first + n ≤ 65536) :
    (decide (n < 1) || decide (n > 1024) || decide (first + n > 65536)) = false := by
  simp only [Bool.or_eq_false_iff, decide_eq_false_iff_not]; omega

/-- Windows of 4,096-byte pages that lie in both address spaces (R265). -/
theorem windowPlaced {e : BitVec 256} (hw : winWbase e % 4096 = 0) (hl : winLbase e % 4096 = 0) (hn : winLen e % 4096 = 0)
    (hne : winLen e ≠ 0) (hwe : winWbase e + winLen e ≤ 2 ^ 48) (hle : winLbase e + winLen e ≤ 2 ^ 48) :
    (decide (winWbase e % 4096 ≠ 0) || decide (winLbase e % 4096 ≠ 0) || decide (winLen e % 4096 ≠ 0) || decide (winLen e = 0) ||
      decide (winWbase e + winLen e > 2 ^ 48) || decide (winLbase e + winLen e > 2 ^ 48)) = false := by
  simp only [Bool.or_eq_false_iff, decide_eq_false_iff_not]; omega

/-! ## AUDIT (R529) -/

/-- A command is heard by a state that differs from the module's in the control processor alone (R441, R448). -/
theorem ZcpRow.Heard.sameBut {z : ZcpRow} {s s₀ : State} {w : Waiting} (h : z.Heard s s₀ w) : SameBut s s₀ := by
  rcases h.taken with ⟨-, -, -, -, rfl⟩ | ⟨-, -, -, -, rfl⟩
  · exact (SameBut.touch s z.req.src).trans (SameBut.dropLock _)
  · exact SameBut.dropLock s

theorem SameBut.ports {s t : State} (h : SameBut s t) : t.ports = s.ports := by
  obtain ⟨z, o, c, i, rfl⟩ := (sameBut_iff _ _).mp h; rfl

theorem State.modPort_ports_same (s : State) (p : PortIx) (f : Port → Port) : (s.modPort p f).ports[p] = f s.ports[p] :=
  Vector.getElem_set_self p.isLt

theorem Port.usable_or_held {x : Port} (h : x.usable = true ∨ x.state = .held) : (x.usable || x.state == .held) = true := by
  rcases h with h | h <;> simp [h]

theorem State.modPort_congr {s : State} {p : PortIx} {f g : Port → Port} (h : f s.ports[p] = g s.ports[p]) :
    s.modPort p f = s.modPort p g := by
  rw [State.modPort, h, ← State.modPort]

/-- An audit that begins: it is counted, and its port quiesces the VCs (R529). -/
def State.beginAudit (s : State) (p : PortIx) (vc : Nat) : State :=
  (s.bump .fabPortAudits p.val).modPort p fun x => { x with audit := some ⟨vc, s.clock⟩ }

theorem State.beginAudit_audit (s : State) (p : PortIx) (vc : Nat) : (s.beginAudit p vc).ports[p].audit = some ⟨vc, s.clock⟩ := by
  rw [State.beginAudit, State.modPort_ports_same]

/-- A port that no audit holds queues none (R529). -/
theorem State.beginAudit_of_none {s : State} {p : PortIx} (ha : s.ports[p].audit = none) (vc : Nat) :
    (let u := s.bump .fabPortAudits p.val
     u.modPort p fun x =>
       if x.audit.isNone then { x with audit := some ⟨vc, u.clock⟩ } else { x with auditQ := x.auditQ ++ [vc] }) =
      s.beginAudit p vc := by
  refine State.modPort_congr ?_
  simp only [State.bump_ports, ha, Option.isNone_none, if_true, State.bump_clock]

/-- AUDIT of a port that no other audit holds completes later; the VCs are read as soon as they are quiet (R529). -/
theorem answersLater_audit {r : ZcpReq} {p : PortIx} {vc : Nat} {s : State} (hvc : vc ≤ 11 ∨ vc = 15)
    (ha : s.ports[p].audit = none) :
    AnswersLater (.audit r p vc) s (fun s => s.ports[p].usable = true ∨ s.ports[p].state = .held) (fun s => s.beginAudit p vc)
      (fun s => s.auditTry p) := by
  have hbad : (if vc > 11 && vc != 15 then some Status.reservedValue else none) = none :=
    if_neg (by rcases hvc with h | h <;> simp [h])
  rintro _ s₀ w ⟨⟩ hr hok
  have ha₀ : s₀.ports[p].audit = none := by rw [hr.heard.sameBut.ports, ha]
  have huse : ¬(!(s₀.ports[p].usable || s₀.ports[p].state == .held)) = true := by rw [Port.usable_or_held hok]; decide
  have hne : ((s₀.beginAudit p vc).leaveLater w).ports[p].audit ≠ s.ports[p].audit := by
    rw [ha, show ((s₀.beginAudit p vc).leaveLater w).ports[p].audit = _ from s₀.beginAudit_audit p vc]
    exact Option.some_ne_none _
  rw [exec, execAudit,
    hr.later ⟨rfl, rfl, rfl, rfl, rfl, rfl, hbad⟩ ((if_neg huse).trans (congrArg Ans.later (State.beginAudit_of_none ha₀ vc)))]
  exact congrArg _ (if_neg hne)

/-- Settles O23: each command's body, where its conditions hold, has the effect and the items that are claimed. -/
theorem fabricCommands : Obligations.FabricCommands := by
  intro s r
  refine ⟨?load, ?read, ?accept, ?config, ?status, ?retrain, ?retrainDown, ?routes, ?routeRead, ?open_, ?close, ?windowRead, ?cong,
    ?audit⟩
  case load =>
    intro plan hlen hplan
    have hbad : (if plan.length = 832 && planBad plan then some Status.reservedValue else none) = none := if_neg (by simp [hplan])
    refine answers_of_body rfl rfl ⟨rfl, rfl, rfl, rfl, rfl, rfl, hbad⟩ fun s _ => ?_
    simp only [hlen, ne_eq, not_true_eq_false, if_false]
  case read =>
    exact answers_of_body rfl rfl ⟨rfl, rfl, rfl, rfl, rfl, rfl, rfl⟩ fun s _ => rfl
  case accept =>
    intro p id l
    refine answers_of_body rfl rfl ⟨rfl, rfl, rfl, rfl, rfl, rfl, rfl⟩ fun s ⟨hs, hid, hl⟩ => ?_
    simp only [hid, hl, hs, ne_eq, not_true_eq_false, if_false]
  case config =>
    intro p c hcfg hsplit
    have hbad : (if fabCfgBad c then some Status.reservedValue else none) = none := if_neg (by simp [hcfg])
    have hok : (c.vcSplit.map splitOk).getD true = true := by
      cases hw : c.vcSplit with
      | none => rfl
      | some w => exact hsplit w hw
    refine answers_of_body rfl rfl ⟨rfl, rfl, rfl, rfl, rfl, rfl, hbad⟩ fun s _ => ?_
    simp only [hok]; rfl
  case status =>
    exact fun p => answers_of_body rfl rfl ⟨rfl, rfl, rfl, rfl, rfl, rfl, rfl⟩ fun s _ => rfl
  case retrain =>
    exact fun p => answers_of_body rfl rfl ⟨rfl, rfl, rfl, rfl, rfl, rfl, rfl⟩ fun s hs => if_neg hs
  case retrainDown =>
    exact fun p => answers_of_body rfl rfl ⟨rfl, rfl, rfl, rfl, rfl, rfl, rfl⟩ fun s hs => if_pos hs
  case routes =>
    intro first es hes h1 hmax hend
    have hresv : (es.any fun e => rtFld e 35 1 != 0) = false := by
      simpa using fun e he => (hes e he).1
    have hports : (es.any fun e => e.getLsbD 0 && rtFld e 41 36 == 0) = false := by
      simpa using fun e he => (hes e he).2
    have hbad : (if es.any fun e => rtFld e 35 1 != 0 then some Status.reservedValue else none) = none := if_neg (by simp [hresv])
    refine answers_of_body rfl rfl ⟨rfl, rfl, rfl, rfl, rfl, rfl, hbad⟩ fun s _ => ?_
    simp only [routeRange h1 hmax hend, hports]; rfl
  case routeRead =>
    intro first count
    refine answers_of_body rfl rfl ⟨rfl, rfl, rfl, rfl, rfl, rfl, rfl⟩ fun s ⟨h1, hmax, hend⟩ => ?_
    simp only [routeRange h1 hmax hend]; rfl
  case open_ =>
    intro ix e j hix hwin
    have hbad : (if ix > 16383 || winBad e then some Status.reservedValue else none) = none := if_neg (by simp [hix, hwin])
    refine answers_of_body rfl rfl ⟨rfl, rfl, rfl, rfl, rfl, rfl, hbad⟩ fun s ⟨hfree, hw, hl, hn, hne, hwe, hle, hj⟩ => ?_
    have hnew : (s.fab.windows.any fun x => x.1 == ix) = false := by
      simpa using fun a b hx => (hfree (a, b) hx).1
    have hapart : (s.fab.windows.any fun x => winJob x.2 == winJob e && winWbase x.2 < winWbase e + winLen e &&
        winWbase e < winWbase x.2 + winLen x.2) = false := by
      simpa using fun a b hx => (hfree (a, b) hx).2
    simp only [hnew, windowPlaced hw hl hn hne hwe hle, hj, hapart]; rfl
  case close =>
    intro ix hix
    have hbad : (if ix > 16383 then some Status.reservedValue else none) = none := if_neg (Nat.not_lt.mpr hix)
    exact answers_of_body rfl rfl ⟨rfl, rfl, rfl, rfl, rfl, rfl, hbad⟩ fun s _ => rfl
  case windowRead =>
    intro ix hix
    have hbad : (if ix > 16383 then some Status.reservedValue else none) = none := if_neg (Nat.not_lt.mpr hix)
    exact answers_of_body rfl rfl ⟨rfl, rfl, rfl, rfl, rfl, rfl, hbad⟩ fun s _ => rfl
  case cong =>
    exact answers_of_body rfl rfl ⟨rfl, rfl, rfl, rfl, rfl, rfl, rfl⟩ fun s _ => rfl
  case audit =>
    exact fun p vc hvc ha => answersLater_audit hvc ha

end Sys2Proof.Machine
end

section
/-! SUPPORT. Proofs of spec/11_fabric_routing.md for packets as flits: a head whose fields fit is read back from its flit,
bytes are read back from payload flits, and so a REQUEST from its packet. -/

namespace Sys2Proof.Machine

/-! ## Bytes and numbers -/

theorem leBytes_succ (n v : Nat) : leBytes (n + 1) v = BitVec.ofNat 8 v :: leBytes n (v / 256) := by
  have next (k : Nat) : v / 2 ^ (8 * (k + 1)) = v / 256 / 2 ^ (8 * k) := by
    rw [Nat.div_div_eq_div_mul, Nat.mul_add, Nat.pow_add, Nat.mul_comm]
  simp only [leBytes, List.range_succ_eq_map, List.map_cons, List.map_map, Function.comp_def, Nat.succ_eq_add_one, next, Nat.mul_zero,
    Nat.pow_zero, Nat.div_one]

theorem leNat_cons (b : Byte) (bs : List Byte) : leNat (b :: bs) = b.toNat + 256 * leNat bs := rfl

theorem leNat_lt (bs : List Byte) : leNat bs < 256 ^ bs.length := by
  induction bs with
  | nil => exact Nat.one_pos
  | cons b bs ih =>
    rw [leNat_cons, List.length_cons, Nat.pow_succ]
    have hb : b.toNat < 256 := b.isLt
    omega

/-- The bytes of a byte list's number are the list, and zeros where more are asked for. -/
theorem leBytes_leNat (bs : List Byte) (m : Nat) : leBytes (bs.length + m) (leNat bs) = bs ++ List.replicate m 0 := by
  induction bs with
  | nil =>
    rw [List.length_nil, Nat.zero_add, List.nil_append, List.eq_replicate_iff]
    refine ⟨by simp [leBytes], fun b hb => ?_⟩
    obtain ⟨k, -, rfl⟩ := List.mem_map.mp hb
    rw [show leNat [] = 0 from rfl, Nat.zero_div]
    rfl
  | cons b bs ih =>
    have hb : b.toNat < 256 := b.isLt
    have hbyte : BitVec.ofNat 8 (b.toNat + 256 * leNat bs) = b := BitVec.eq_of_toNat_eq (by rw [BitVec.toNat_ofNat]; omega)
    have hrest : (b.toNat + 256 * leNat bs) / 256 = leNat bs := by omega
    rw [List.length_cons, Nat.succ_add, leBytes_succ, leNat_cons, hbyte, hrest, ih, List.cons_append]

/-! ## Payload flits (R297) -/

/-- Up to 32 bytes, put into a flit and taken out of it. -/
theorem leBytes_flit {bs : List Byte} (h : bs.length ≤ 32) :
    leBytes 32 (BitVec.ofNat 256 (leNat bs)).toNat = bs ++ List.replicate (32 - bs.length) 0 := by
  have hlt : leNat bs < 2 ^ 256 := (leNat_lt bs).trans_le (Nat.pow_le_pow_right (by decide) h)
  rw [BitVec.toNat_ofNat, Nat.mod_eq_of_lt hlt, ← leBytes_leNat, Nat.add_sub_cancel' h]

/-- The bytes of enough payload flits are the payload, padded with 0. -/
theorem flatMap_payloadFlit (n : Nat) (bs : List Byte) (h : bs.length ≤ 32 * n) :
    ((List.range n).flatMap fun k => leBytes 32 (BitVec.ofNat 256 (leNat ((bs.drop (32 * k)).take 32))).toNat) =
      bs ++ List.replicate (32 * n - bs.length) 0 := by
  induction n generalizing bs with
  | zero => simpa using h
  | succ n ih =>
    have hrest := ih (bs.drop 32) (by rw [List.length_drop]; omega)
    simp only [List.drop_drop] at hrest
    rw [List.range_succ_eq_map, List.flatMap_cons, List.flatMap_map]
    simp only [Nat.succ_eq_add_one, Nat.mul_add, Nat.mul_one, Nat.mul_zero, List.drop_zero, Nat.add_comm _ 32, hrest,
      leBytes_flit (List.length_take_le 32 bs)]
    rcases Nat.le_total 32 bs.length with hl | hl
    · -- the first flit is full
      rw [List.length_take_of_le hl, Nat.sub_self, List.replicate_zero, List.append_nil, ← List.append_assoc, List.take_append_drop,
        List.length_drop]
      congr 2; omega
    · -- the first flit is the last with bytes in it
      rw [List.take_of_length_le hl, List.drop_of_length_le hl, List.nil_append, List.append_assoc, List.replicate_append_replicate,
        List.length_nil]
      congr 2; omega

theorem length_payloadFlits (bs : List Byte) : (payloadFlits bs).length = ceilDiv bs.length 32 := by simp [payloadFlits]

theorem payloadOf_payloadFlits {h : Head} {bs : List Byte} (hl : bs.length = h.payloadBytes) : payloadOf h (payloadFlits bs) = bs := by
  rw [payloadOf, payloadFlits, List.flatMap_map, flatMap_payloadFlit _ _ (by unfold ceilDiv; omega), ← hl, List.take_left]

/-! ## Head flits (R298, R302) -/

/-- Every field of a head fits its place (R298). -/
structure Head.Fits (h : Head) : Prop where
  ty : h.ty < 2 ^ 4
  cls : h.cls < 2 ^ 2
  len : h.len < 2 ^ 9
  hops : h.hops < 2 ^ 6
  epoch : h.epoch < 2 ^ 8
  seq : h.seq < 2 ^ 24
  tb : h.tb < 2 ^ 128

theorem ite_eq_boolToNat (b : Bool) : (if b then 1 else 0) = b.toNat := by cases b <;> rfl

/-- The header bits above HCRC, each field at its place. -/
theorem Head.upper_eq (h : Head) : h.upper = h.seq * 2 ^ 23 + h.epoch * 2 ^ 47 + h.last.toNat * 2 ^ 55 + h.ord.toNat * 2 ^ 56 +
    h.esc.toNat * 2 ^ 57 + h.ce.toNat * 2 ^ 58 + h.hops * 2 ^ 59 + h.len * 2 ^ 65 + h.cls * 2 ^ 74 + h.ty * 2 ^ 76 +
    h.src.toNat * 2 ^ 80 + h.dst.toNat * 2 ^ 96 := by
  simp only [Head.upper, ite_eq_boolToNat]
  omega

/-- A bit of a flit is its field of one bit. -/
theorem getLsbD_eq_ffld (f : BitVec 256) (k : Nat) : f.getLsbD k = decide (ffld f k k = 1) := by
  rw [ffld, Nat.add_sub_cancel_left, Nat.pow_one, BitVec.getLsbD, Nat.testBit_eq_decide_div_mod_eq]

theorem ofNat_eq_of_toNat {w n : Nat} {v : BitVec w} (h : n = v.toNat) : BitVec.ofNat w n = v := by
  rw [h, BitVec.ofNat_toNat, BitVec.setWidth_eq]

theorem decide_eq_of_toNat {b : Bool} {n : Nat} (h : n = b.toNat) : decide (n = 1) = b := by
  rw [h]; cases b <;> rfl

section
variable {h : Head} (hf : h.Fits)
include hf

theorem Head.Fits.upper_lt : h.upper < 2 ^ 112 := by
  obtain ⟨hty, hcls, hlen, hhops, hepoch, hseq, htb⟩ := hf
  rw [h.upper_eq]
  have := h.last.toNat_le; have := h.ord.toNat_le; have := h.esc.toNat_le; have := h.ce.toNat_le
  have := h.src.isLt; have := h.dst.isLt
  omega

theorem Head.Fits.toNat_flit : h.flit.toNat = h.tb * 2 ^ 128 + h.upper * 2 ^ 16 + (hcrc h.upper).toNat := by
  have := hf.tb; have := hf.upper_lt; have := (hcrc h.upper).isLt
  rw [Head.flit, BitVec.toNat_ofNat, Nat.mod_eq_of_lt]
  omega

/-- Below the transport block lie the header bits and their HCRC. -/
theorem Head.Fits.ffld_flit : ffld h.flit 127 16 = h.upper ∧ ffld h.flit 15 0 = (hcrc h.upper).toNat := by
  have := hf.upper_lt; have := (hcrc h.upper).isLt
  rw [ffld, ffld, hf.toNat_flit]
  omega

theorem Head.Fits.headCrcOk_flit : headCrcOk h.flit = true := by
  obtain ⟨hupper, hcrc⟩ := hf.ffld_flit
  rw [headCrcOk, hupper, hcrc, beq_self_eq_true]

/-- Each field stands alone at its place, so a head is read back from its flit. -/
theorem Head.Fits.headOf_flit : headOf h.flit = h := by
  have hflit := hf.toNat_flit
  obtain ⟨hty, hcls, hlen, hhops, hepoch, hseq, htb⟩ := hf
  have := h.last.toNat_le; have := h.ord.toNat_le; have := h.esc.toNat_le; have := h.ce.toNat_le
  have := h.src.isLt; have := h.dst.isLt; have := (hcrc h.upper).isLt; have := h.upper_eq
  simp only [headOf, getLsbD_eq_ffld, ffld, hflit, Nat.reduceAdd, Nat.reduceSub, Nat.reducePow]
  rw [Head.mk.injEq]
  refine ⟨ofNat_eq_of_toNat ?_, ofNat_eq_of_toNat ?_, ?_, ?_, ?_, ?_, decide_eq_of_toNat ?_, decide_eq_of_toNat ?_,
    decide_eq_of_toNat ?_, decide_eq_of_toNat ?_, ?_, ?_, ?_⟩
  all_goals omega

end

/-! ## REQUEST packets (R298, R300) -/

/-- The transport block of a REQUEST (R300). -/
def reqBlock (q : Request) : Nat :=
  q.waddr.toNat + q.oprev.toNat * 2 ^ 64 + q.rtile.toNat * 2 ^ 88 + q.rtal.toNat * 2 ^ 100 + q.rten.toNat * 2 ^ 106 +
    q.opv.toNat * 2 ^ 107 + q.aop.toNat * 2 ^ 108 + q.op.toNat * 2 ^ 112 + q.job.toNat * 2 ^ 116

/-- The header of a REQUEST (R298). -/
def reqHead (q : Request) : Head :=
  { dst := q.dst, src := q.src, ty := 1, cls := q.cls.toNat, len := q.len.toNat, ce := q.ce, ord := q.ord, last := q.last
    epoch := q.epoch.toNat, seq := q.seq.toNat, tb := reqBlock q }

theorem reqPkt_eq (q : Request) : reqPkt q = mkPkt (reqHead q) q.payload := by
  simp only [reqPkt, ite_eq_boolToNat, reqHead, reqBlock]

/-- The bounds of the fields of the transport block, for `omega`. -/
theorem reqBlock_bounds (q : Request) : q.waddr.toNat < 2 ^ 48 ∧ q.oprev.toNat < 2 ^ 24 ∧ q.rtile.toNat < 2 ^ 12 ∧
    q.rtal.toNat < 2 ^ 6 ∧ q.rten.toNat ≤ 1 ∧ q.opv.toNat ≤ 1 ∧ q.aop.toNat < 2 ^ 4 ∧ q.op.toNat < 2 ^ 4 ∧ q.job.toNat < 2 ^ 12 :=
  ⟨q.waddr.isLt, q.oprev.isLt, q.rtile.isLt, q.rtal.isLt, q.rten.toNat_le, q.opv.toNat_le, q.aop.isLt, q.op.isLt, q.job.isLt⟩

theorem reqBlock_lt (q : Request) : reqBlock q < 2 ^ 128 := by
  have := reqBlock_bounds q
  rw [reqBlock]
  omega

theorem reqHead_fits (q : Request) : (reqHead q).Fits where
  ty := show 1 < 2 ^ 4 by decide
  cls := q.cls.isLt
  len := q.len.isLt
  hops := show 0 < 2 ^ 6 by decide
  epoch := q.epoch.isLt
  seq := q.seq.isLt
  tb := reqBlock_lt q

/-- The fields of the transport block, each read at its place. -/
theorem tf_reqHead (q : Request) :
    (reqHead q).tf 127 116 = q.job.toNat ∧ (reqHead q).tf 115 112 = q.op.toNat ∧ (reqHead q).tf 111 108 = q.aop.toNat ∧
    (reqHead q).tf 107 107 = q.opv.toNat ∧ (reqHead q).tf 106 106 = q.rten.toNat ∧ (reqHead q).tf 105 100 = q.rtal.toNat ∧
    (reqHead q).tf 99 88 = q.rtile.toNat ∧ (reqHead q).tf 87 64 = q.oprev.toNat ∧ (reqHead q).tf 47 0 = q.waddr.toNat := by
  have := reqBlock_bounds q
  simp only [Head.tf, reqHead, reqBlock, Nat.reduceAdd, Nat.reduceSub, Nat.reducePow]
  omega

/-- A REQUEST is read back from its head and payload. -/
theorem requestOf_reqHead (q : Request) : requestOf (reqHead q) q.payload = q := by
  obtain ⟨hjob, hop, haop, hopv, hrten, hrtal, hrtile, hoprev, hwaddr⟩ := tf_reqHead q
  rw [requestOf, hjob, hop, haop, decide_eq_of_toNat hopv, decide_eq_of_toNat hrten, hrtal, hrtile, hoprev, hwaddr]
  simp only [reqHead, BitVec.ofNat_toNat, BitVec.setWidth_eq]

/-- A GET carries no payload, every other REQUEST as many bytes as LEN says (R297). -/
theorem payloadBytes_reqHead (q : Request) : (reqHead q).payloadBytes = if q.op = 1 then 0 else q.len.toNat := by
  obtain ⟨-, hop, -⟩ := tf_reqHead q
  have hget : q.op.toNat = 1 ↔ q.op = 1 := BitVec.toNat_inj (y := 1)
  rw [Head.payloadBytes, hop]
  simp only [reqHead, hget, decide_true, Bool.true_and, decide_eq_true_eq]

/-- Settles O9: the head and the payload of a packed REQUEST are read back. -/
theorem requestPacketsRoundTrip : Obligations.RequestPacketsRoundTrip := by
  intro q hlen
  have hfits := reqHead_fits q
  have hbytes : q.payload.length = (reqHead q).payloadBytes := hlen.trans (payloadBytes_reqHead q).symm
  rw [reqPkt_eq, mkPkt]
  dsimp only
  rw [hfits.headOf_flit, payloadOf_payloadFlits hbytes]
  refine ⟨requestOf_reqHead q, hfits.headCrcOk_flit, rfl, ?_⟩
  rw [Pkt.flits, Head.flits, length_payloadFlits, hbytes]

end Sys2Proof.Machine
end

section
/-! SUPPORT. Proofs of spec/11_fabric_routing.md for the router: what routing makes of a packet whose way is clear, what an
arrival makes of it where it is the front of its VC, and when each row of the router acts. -/

namespace Sys2Proof.Machine

/-! ## Routing one packet (R302, R309, R312, R316) -/

section
variable {s : State} {p : Option PortIx} {k : Nat} {x : InPkt}

/-- The packet of place k at an input is for this module: it is whole, it is not marked, and its lookup delivers it. -/
structure State.Delivers (s : State) (p : Option PortIx) (k : Nat) (x : InPkt) : Prop where
  here : (s.inputOf p)[k]? = some x
  waits : x.out = none
  whole : headFault x.pkt = none
  unmarked : s.marks p x = false
  fresh : x.route = none
  looked : s.lookup p x = .deliver

theorem State.Delivers.routeOne (h : s.Delivers p k x) : s.routeOne p k = (s.dropInput p k).deliver p x.pkt := by
  simp only [State.routeOne, h.here, h.waits, Option.isSome_none, Bool.false_eq_true, if_false, h.whole, h.unmarked,
    Option.getD_some, h.fresh, h.looked]

/-- A packet that is delivered competes for no output VC. -/
theorem State.Delivers.contend (h : s.Delivers p k x) (n : Nat) : s.contend p k n = (s.dropInput p k).deliver p x.pkt := by
  have hoffer : s.offer p k = none := by
    simp only [State.offer, h.here, Option.bind_some, h.waits, h.whole, Option.isSome_none, Bool.or_self, Bool.false_eq_true,
      if_false, h.fresh, h.looked]
  cases n with
  | zero => rw [State.contend, h.routeOne]
  | succ n => rw [State.contend, hoffer]; exact h.routeOne

variable {e : BitVec 64} {q : PortIx} {v : Nat}

theorem State.Leaves.routeOne (h : s.Leaves p k x e q v) : s.routeOne p k = s.routed p k x e q v := by
  obtain ⟨hx, ho, hf, hm, hl, hc, -⟩ := h
  rcases hl with hr | ⟨hr, hl⟩
  · simp only [State.routeOne, hx, ho, Option.isSome_none, Bool.false_eq_true, if_false, hf, hm, Option.getD_some, hr, hc,
      State.routed]
  · simp only [State.routeOne, hx, ho, Option.isSome_none, Bool.false_eq_true, if_false, hf, hm, Option.getD_some, hr, hl, hc,
      State.routed]

theorem State.Leaves.offer (h : s.Leaves p k x e q v) : s.offer p k = some (q, v) := by
  obtain ⟨hx, ho, hf, -, hl, hc, -⟩ := h
  rcases hl with hr | ⟨hr, hl⟩
  · simp only [State.offer, hx, Option.bind_some, ho, hf, Option.isSome_none, Bool.or_self, Bool.false_eq_true, if_false, hr, hc]
  · simp only [State.offer, hx, Option.bind_some, ho, hf, Option.isSome_none, Bool.or_self, Bool.false_eq_true, if_false, hr, hl, hc]

/-- Without rivals the packet gets the output VC that it competes for. -/
theorem State.Leaves.contend (h : s.Leaves p k x e q v) (n : Nat) : s.contend p k n = s.routed p k x e q v := by
  cases n with
  | zero => rw [State.contend, h.routeOne]
  | succ n => simp only [State.contend, h.offer, h.alone, List.find?_nil, h.routeOne]

/-- The only packet that may be routed on a VC is routed. -/
theorem State.routeVc_of_fronts (h : s.fronts p v = [k]) : s.routeVc p v = s.contend p k 17 := by
  simp only [State.routeVc, h, List.foldl_cons, List.foldl_nil, Bool.false_eq_true, if_false]

end

/-! ## Arrival (R309, R311, R512) -/

theorem State.frozen_of_working {s : State} (h : s.working = true) : s.dbg.frozen = false := by
  simpa using (Bool.and_eq_true_iff.mp h).2

theorem Port.not_held_of_usable {x : Port} (h : x.usable = true) : (x.state == .held) = false := by
  rw [beq_eq_false_iff_ne]
  intro hs
  rw [Port.usable, hs] at h
  exact absurd h (by decide)

section
variable {s : State} {p : PortIx} {v n : Nat} {k : Pkt}

/-- A packet that has arrived whole: its flits are counted, and it is the last of its input (R294, R309). -/
def State.received (s : State) (p : PortIx) (v n : Nat) (k : Pkt) : State :=
  (s.countRxFlits p v n).modPort p fun y => { y with input := y.input ++ [{ pkt := k, arrived := s.time.work }] }

theorem State.countRxFlits_of_working (hw : s.working = true) : s.countRxFlits p v n = (s.bump .fabPortRxFlits p.val 0 n).modPort p
    fun x => { x with received := x.received.setIfInBounds v ((x.received.toArray[v]?).getD 0 + BitVec.ofNat 16 n) } := by
  have hf : s.dbg.frozen = false := State.frozen_of_working hw
  simp only [State.countRxFlits, State.modPort_dbg, State.bump_dbg, hf, Bool.false_eq_true, if_false]

/-- A packet that arrives as the front of its VC is routed at once. -/
theorem State.arrivePkt_of_front (hw : s.working = true) (hu : s.ports[p].usable = true)
    (hv : ∀ y ∈ s.ports[p].input, y.pkt.vc ≠ k.vc) :
    (s.countRxFlits p v n).arrivePkt p k = (s.received p v n k).contend (some p) s.ports[p].input.length 17 := by
  have hf : s.dbg.frozen = false := State.frozen_of_working hw
  have hfront : (s.ports[p].input.all fun y => y.pkt.vc != k.vc) = true := by simpa using hv
  rw [State.received, State.countRxFlits_of_working hw]
  simp only [State.arrivePkt, State.modPort_ports_same, State.bump_ports, Port.not_held_of_usable hu, Bool.false_and,
    Bool.false_eq_true, if_false, State.modPort_dbg, State.bump_dbg, State.modPort_time, State.bump_time, hf, hfront, Bool.not_true,
    Bool.or_self]

theorem State.inputOf_received (hw : s.working = true) :
    ((s.received p v n k).inputOf (some p))[s.ports[p].input.length]? = some { pkt := k, arrived := s.time.work } := by
  simp only [State.inputOf, State.received, State.countRxFlits_of_working hw, State.modPort_ports_same, State.bump_ports,
    List.getElem?_concat_length]

/-- A packet for this module that arrives as the front of its VC is delivered. -/
theorem State.arrivePkt_of_deliver (hw : s.working = true) (hu : s.ports[p].usable = true)
    (hv : ∀ y ∈ s.ports[p].input, y.pkt.vc ≠ k.vc) (hk : headFault k = none)
    (hm : (s.received p v n k).marks (some p) { pkt := k, arrived := s.time.work } = false)
    (hl : (s.received p v n k).lookup (some p) { pkt := k, arrived := s.time.work } = .deliver) :
    (s.countRxFlits p v n).arrivePkt p k =
      ((s.received p v n k).dropInput (some p) s.ports[p].input.length).deliver (some p) k := by
  rw [State.arrivePkt_of_front hw hu hv, State.Delivers.contend ⟨State.inputOf_received hw, rfl, hk, hm, rfl, hl⟩]

end

/-! ## When a row of the router acts -/

section
variable {s : State}

theorem exec_headFlit {p : PortIx} (hw : s.working = true) (hp : s.ports[p].usable = true ∨ s.ports[p].state = .held) (vc : VcIx)
    (head : BitVec 256) (payload : List (BitVec 256)) : exec (.headFlit (some p) vc head payload) s =
      .next ((s.countRxFlits p vc.val (1 + payload.length)).arrivePkt p ⟨vc.val, head, payload⟩) :=
  when_of_true (fun s => (s.countRxFlits p vc.val (1 + payload.length)).arrivePkt p ⟨vc.val, head, payload⟩)
    (by rw [State.live_of_working hw, Port.usable_or_held hp, Bool.and_self])

/-- At the endpoint's own input the row stands for a packet that waits there (R309). -/
theorem exec_headFlit_endpoint {vc : VcIx} {head : BitVec 256} {payload : List (BitVec 256)} {k : Nat} (hw : s.working = true)
    (hk : (s.fab.inject.findIdx? fun x => x.pkt == ⟨vc.val, head, payload⟩ && x.out.isNone) = some k) :
    exec (.headFlit none vc head payload) s = .next (s.contend none k 17) := by
  change execHeadFlit none vc head payload s = _
  rw [execHeadFlit, when_of_true _ hw]
  simp only [hk]

theorem exec_control {p : PortIx} {pkt : List Byte} (hw : s.working = true)
    (hp : s.ports[p].usable = true ∨ s.ports[p].state = .held) (h32 : 32 ≤ pkt.length) (h256 : pkt.length ≤ 256)
    (src dst : BitVec 16) : exec (.control p src dst pkt) s = .next
      (let k := mkPkt { dst := dst, src := src, ty := 8, cls := 0, len := pkt.length } pkt
       (s.countRxFlits p 0 k.flits).arrivePkt p k) :=
  when_of_true
    (fun s => (s.countRxFlits p 0 (mkPkt { dst := dst, src := src, ty := 8, cls := 0, len := pkt.length } pkt).flits).arrivePkt p
      (mkPkt { dst := dst, src := src, ty := 8, cls := 0, len := pkt.length } pkt))
    (by simp only [State.live_of_working hw, Port.usable_or_held hp, h32, h256, decide_true, Bool.and_self])

theorem exec_creditTimer {p : PortIx} (hw : s.working = true) (hp : s.ports[p].usable = true ∨ s.ports[p].state = .held)
    (hf : s.ports[p].freed ≠ s.ports[p].freedSent) (ht : s.ports[p].lastCredit + 32 ≤ s.clock) :
    exec (.creditTimer p) s = .next (s.sendCredit p) :=
  when_of_true (fun s => s.sendCredit p) (by
    simp only [State.live_of_working hw, Port.usable_or_held hp, bne_iff_ne.mpr hf, ht, decide_true, Bool.and_self])

theorem exec_vcAllocation (hw : s.working = true) (p : Option PortIx) (vc : VcIx) :
    exec (.vcAllocation p vc) s = .next (s.routeVc p vc.val) :=
  when_of_true (fun s => s.routeVc p vc.val) hw

theorem exec_credit (hw : s.working = true) (p : PortIx) (freed : Vector (BitVec 16) 12) :
    exec (.credit p freed) s = .next (s.creditIn p freed) :=
  when_of_true (fun s => s.creditIn p freed) (State.live_of_working hw)

theorem exec_creditInit (hw : s.working = true) (p : PortIx) (sizes : Vector (BitVec 16) 12) :
    exec (.creditInit p sizes) s = .next (s.creditInit p sizes) :=
  when_of_true (fun s => s.creditInit p sizes) (State.live_of_working hw)

theorem exec_freezeFlit (hw : s.working = true) (p : PortIx) (f : FreezeFlit) :
    exec (.freezeFlit p f) s = .next (s.freezeFlitIn p f) :=
  when_of_true (fun s => s.freezeFlitIn p f) (State.live_of_working hw)

theorem exec_reservedLinkControl {p : PortIx} {kind : BitVec 8} (hw : s.working = true) (hp : s.ports[p].pastFec = true)
    (hk : kind = 0 ∨ 7 < kind.toNat) : exec (.reservedLinkControl p kind) s = .next (s.bump .fabPortLcReserved p.val) :=
  when_of_true (fun s => s.bump .fabPortLcReserved p.val) (by
    rw [State.live_of_working hw, hp]
    rcases hk with rfl | hk
    · rfl
    · simp [hk])

theorem exec_occupancyUpdate (hw : s.working = true) (ht : s.fab.avgClock + 64 ≤ s.clock) :
    exec .occupancyUpdate s = .next s.sampleOccupancy :=
  when_of_true State.sampleOccupancy (by simp [State.live_of_working hw, ht])

theorem exec_histogramSample (hw : s.working = true) (ht : s.fab.histClock + 64 ≤ s.clock) :
    exec .histogramSample s = .next s.sampleHistograms :=
  when_of_true State.sampleHistograms (by simp [State.live_of_working hw, ht])

theorem exec_congMapSend {c : BitVec 16} (hw : s.working = true) (hc : s.fab.collector = some c)
    (ht : s.fab.congClock + 100000 ≤ s.clock) : exec .congMapSend s =
      .next (((s.message c 9 1 0 s.congMap).bump .fabRCongMaps).modFab fun f => { f with
        congSeq := f.congSeq + 1, congClock := s.clock }) := by
  change execCongMapSend s = _
  rw [execCongMapSend]
  simp only [hc]
  exact when_of_true _ (by simp [hw, ht])

/-! ### Rows that look for a packet at the front of a VC (R315, R320) -/

variable {p : Option PortIx} {vc : VcIx} {k : Nat} {x : InPkt}

/-- The only packet at the front of a VC is the one found there, if it passes the test. -/
theorem find?_front {test : InPkt → Bool} (hk : s.fronts p vc.val = [k]) (hx : (s.inputOf p)[k]? = some x) (ht : test x = true) :
    ((s.fronts p vc.val).find? fun k => (((s.inputOf p)[k]?).map test).getD false) = some k := by
  rw [hk]
  exact List.find?_cons_of_pos (by rw [hx]; exact ht)

/-- Set ESC of packet k of an input, and count it (R315). -/
def State.forceEscape (s : State) (p : Option PortIx) (k : Nat) : State :=
  let t := s.modAt p k fun x => { x with pkt := { x.pkt with head := markHead x.pkt.head 73 } }
  match p with | some p => t.bump .fabPortStalemateForced p.val | none => t.bump .fabEpStalemateForced

theorem exec_stalemate (hw : s.working = true) (hk : s.fronts p vc.val = [k]) (hx : (s.inputOf p)[k]? = some x)
    (ha : x.arrived + s.stall p ≤ s.time.work) (he : (headOf x.pkt.head).esc = false)
    (hm : s.movedAt p vc + s.stall p ≤ s.time.work) : exec (.stalemate p vc) s = .next (s.forceEscape p k) := by
  change execStalemate p vc s = _
  rw [execStalemate]
  simp only [find?_front (test := fun x => x.arrived + s.stall p ≤ s.time.work && !(headOf x.pkt.head).esc) hk hx (by simp [ha, he])]
  exact when_of_true _ (by simp [hw, hm])

theorem exec_ceWait (hw : s.working = true) (hk : s.fronts p vc.val = [k]) (hx : (s.inputOf p)[k]? = some x)
    (ha : x.arrived + 1000 ≤ s.time.work) (hty : (headOf x.pkt.head).ty = 1) (hce : (headOf x.pkt.head).ce = false) :
    exec (.ceWait p vc) s = .next (s.markCe p k) := by
  change execCeWait p vc s = _
  rw [execCeWait]
  simp only [find?_front (test := fun x => x.arrived + 1000 ≤ s.time.work && (headOf x.pkt.head).ty == 1 && !(headOf x.pkt.head).ce)
    hk hx (by simp [ha, hty, hce])]
  exact when_of_true _ hw

/-! ## Credits and freeze flits (R304, R305, R346, R508) -/

/-- Totals that leave no VC more flits in flight than the peer's buffer holds are the credits from then on (R305). -/
theorem State.creditIn_of_fits {p : PortIx} {freed : Vector (BitVec 16) 12}
    (hp : s.ports[p].usable = true ∨ s.ports[p].state = .held)
    (hv : ∀ v : Fin 12, (s.ports[p].sent[v] - freed[v]).toNat ≤ s.ports[p].bv[v].toNat) :
    s.creditIn p freed = ((s.modPort p fun x => { x with freedSeen := freed, creditSince := true }).serve p).auditTry p := by
  have hno : ((List.finRange 12).any fun v => (s.ports[p].sent[v] - freed[v]).toNat > s.ports[p].bv[v].toNat) = false := by
    simpa using hv
  simp only [State.creditIn, Port.usable_or_held hp, Bool.not_true, Bool.false_eq_true, if_false, hno]

/-- A port that waits for credits is trained when the peer's sizes come (R304, R346). -/
theorem State.creditInit_of_waiting {p : PortIx} {sizes : Vector (BitVec 16) 12} (ht : s.ports[p].state = .training)
    (hs : 8 ≤ s.ports[p].step) : s.creditInit p sizes = s.modPort p fun x => { x with
      bv := sizes, step := 9, stepT := s.clock, timeouts := 0, reason := .none, state := x.settled } := by
  have h7 : ¬s.ports[p].step < 7 := by omega
  have hne : s.ports[p].step ≠ 7 := by omega
  simp only [State.creditInit, ht, h7, hne, ne_eq, not_true_eq_false, decide_false, Bool.or_self, Bool.false_eq_true, if_false]

theorem State.freezeFlitIn_of_accepts {p : PortIx} {f : FreezeFlit} (hw : s.working = true) (hp : s.ports[p].pastFec = true)
    (ha : s.dbg.accept = true) :
    s.freezeFlitIn p f = s.freeze .peer (f.originFid ++ f.originNo.setWidth 16) (some (p, f)) := by
  simp only [State.freezeFlitIn, hp, State.frozen_of_working hw, ha, Bool.not_true, Bool.or_self, Bool.false_eq_true, if_false]

end

/-- Settles O48: when each row of the router acts, and what becomes of a packet whose way is clear. -/
theorem routerCommands : Obligations.RouterCommands := by
  intro s hw
  refine ⟨?port, ?endpoint, exec_vcAllocation hw, ?front, exec_credit hw, ?fits, ?trained, ?freeze, exec_creditInit hw,
    exec_freezeFlit hw, fun p kind hp hk => exec_reservedLinkControl hw hp hk, ?waiting, exec_occupancyUpdate hw,
    exec_histogramSample hw, fun c hc ht => exec_congMapSend hw hc ht⟩
  case port =>
    intro p hp
    refine ⟨exec_headFlit hw hp, fun src dst pkt h32 h256 => exec_control hw hp h32 h256 src dst, ?head, ?control,
      exec_creditTimer hw hp⟩
    case head =>
      intro vc head payload hu hv
      refine ⟨fun hk hm hl => ?_, fun e q v h => ?_⟩
      · rw [exec_headFlit hw hp, State.arrivePkt_of_deliver hw hu hv hk hm hl]
        rfl
      · rw [exec_headFlit hw hp, State.arrivePkt_of_front hw hu hv]
        exact congrArg _ (h.contend 17)
    case control =>
      intro src dst pkt h32 h256 hu hv k x u hvc hk hm hl
      rw [exec_control hw hp h32 h256 src dst]
      exact congrArg _ (State.arrivePkt_of_deliver hw hu (hvc ▸ hv) hk hm hl)
  case endpoint =>
    intro vc head payload k hk
    refine ⟨exec_headFlit_endpoint hw hk, fun x e q v h => ?_⟩
    rw [exec_headFlit_endpoint hw hk, h.contend]
  case front =>
    intro p vc k x e q v hk h
    rw [exec_vcAllocation hw, State.routeVc_of_fronts hk, h.contend]
  case fits =>
    intro p freed hp hv
    rw [exec_credit hw, State.creditIn_of_fits hp hv]
  case trained =>
    intro p sizes ht hs
    rw [exec_creditInit hw, State.creditInit_of_waiting ht hs]
  case freeze =>
    intro p f hp ha
    rw [exec_freezeFlit hw, State.freezeFlitIn_of_accepts hw hp ha]
  case waiting =>
    intro p vc k x hk hx
    exact ⟨exec_stalemate hw hk hx, exec_ceWait hw hk hx⟩

end Sys2Proof.Machine
end

section
/-! SUPPORT. Proofs of spec/12_optical_links.md for the control flits and frames of a link past FEC: when each row acts, and
what each flit, timer and lane block comes to where its conditions hold. -/

namespace Sys2Proof.Machine

section
variable {s : State} {p : PortIx}

/-! ## Updates that change nothing, and counters beside the one that counts (R523) -/

theorem State.modPort_eq_self {f : Port → Port} (h : f s.ports[p] = s.ports[p]) : s.modPort p f = s := by
  have hset : s.ports.set p s.ports[p] = s.ports := Vector.set_getElem_self _
  rw [State.modPort, h, hset]

theorem find?_setCtr_of_ne {k l : CtrKey} (h : k ≠ l) (v : BitVec 64) (cs : List (CtrKey × BitVec 64)) :
    (Machine.setCtr k v cs).find? (fun p => p.1 == l) = cs.find? fun p => p.1 == l := by
  induction cs with
  | nil => simp [Machine.setCtr, h]
  | cons p ps ih =>
    by_cases hp : p.1 = k
    · simp [Machine.setCtr, hp, h]
    · simp only [Machine.setCtr, hp, if_false, List.find?_cons, ih]

theorem State.ctr_bump (s : State) (id : CtrId) (i j n : Nat) :
    (s.bump id i j n).ctr ⟨id, i, j, 0⟩ = s.ctr ⟨id, i, j, 0⟩ + BitVec.ofNat 64 n := by
  rw [State.bump]
  split
  case isTrue hn => rw [hn]; exact (BitVec.add_zero _).symm
  case isFalse => exact s.ctr_setCtr_same _ _

theorem State.ctr_bump_of_ne {k : CtrKey} {id : CtrId} (i j n : Nat) (h : id ≠ k.id) : (s.bump id i j n).ctr k = s.ctr k := by
  rw [State.bump]
  split
  case isTrue => rfl
  case isFalse =>
    rw [State.ctr, State.setCtr, find?_setCtr_of_ne (fun hk => h (congrArg CtrKey.id hk)), ← State.ctr]

/-! ## When a row of a link acts -/

theorem exec_ack (hl : s.live = true) (hp : s.ports[p].pastFec = true) (fsn : BitVec 16) :
    exec (.ack p fsn) s = .next (s.ackIn p fsn) :=
  when_of_true (fun s => s.ackIn p fsn) (by rw [hl, hp, Bool.and_self])

theorem exec_retry (hl : s.live = true) (hp : s.ports[p].pastFec = true) (fsn : BitVec 16) :
    exec (.retry p fsn) s = .next (s.retryIn p fsn) :=
  when_of_true (fun s => s.retryIn p fsn) (by rw [hl, hp, Bool.and_self])

theorem exec_swap (hl : s.live = true) (m : SwapMsg) : exec (.swap p m) s = .next (s.swapIn p m) :=
  when_of_true (fun s => s.swapIn p m) hl

theorem exec_swapAck (hl : s.live = true) (hp : s.ports[p].pastFec = true) (m : SwapMsg) :
    exec (.swapAck p m) s = .next (s.swapAckIn p m) :=
  when_of_true (fun s => s.swapAckIn p m) (by rw [hl, hp, Bool.and_self])

theorem exec_swapAt (hl : s.live = true) (d : Dir) : exec (.swapAt p d) s = .next ((s.swapDue p d).auditTry p) :=
  when_of_true (fun s => (s.swapDue p d).auditTry p) hl

theorem exec_laneBlock (hl : s.live = true) (lane : LaneIx) (b : LaneBlock) :
    exec (.laneBlock p lane b) s = .next (s.blockIn p lane b) :=
  when_of_true (fun s => s.blockIn p lane b) hl

theorem exec_retryRepeat {r : RetryRun} (hl : s.live = true) (hp : s.ports[p].pastFec = true) (hr : s.ports[p].retryOut = some r)
    (ht : ∀ t, r.times.head? = some t → t + 2000 ≤ s.clock) : exec (.retryRepeat p) s = .next (s.sendRetry p) := by
  have hdue : ((r.times.head?.map fun t => decide (t + 2000 ≤ s.clock)).getD true) = true := by
    cases hh : r.times.head? with
    | none => rfl
    | some t => simpa using ht t hh
  change execRetryRepeat p s = _
  simp only [execRetryRepeat, hr]
  exact when_of_true _ (by rw [hl, hp, hdue]; rfl)

theorem exec_ackTimer (hl : s.live = true) (hp : s.ports[p].pastFec = true) (hf : s.ports[p].rxFsn ≠ s.ports[p].ackSent)
    (ht : s.ports[p].lastAck + 32 ≤ s.clock) : exec (.ackTimer p) s =
      .next ((s.modPort p fun x => { x with ackSent := x.rxFsn, lastAck := s.clock }).sendControl p
        (lcFlit 4 (leBytes 2 s.ports[p].rxFsn.toNat))) := by
  refine when_of_true (fun t => (t.modPort p fun x => { x with ackSent := x.rxFsn, lastAck := t.clock }).sendControl p
    (lcFlit 4 (leBytes 2 s.ports[p].rxFsn.toNat))) ?_
  rw [hl, hp, bne_iff_ne.mpr hf, decide_eq_true ht]
  rfl

/-! ## ACK and RETRY (R336 to R338) -/

theorem State.ackIn_of_framed {fsn : BitVec 16}
    (h : (fsn - s.ports[p].acked).toNat ≤ (s.ports[p].framed - s.ports[p].acked).toNat) :
    s.ackIn p fsn = (((s.modPort p fun x => { x with
      acked := fsn, retry := x.retry.drop (fsn - x.acked).toNat
      frameFsn := if (x.frameFsn - x.acked).toNat < (fsn - x.acked).toNat then fsn else x.frameFsn
      creditSince := false, unacked := x.unacked.filter fun u => (fsn - u.1).toNat ≥ 2 ^ 15 }).serve p).auditTry p) := by
  rw [State.ackIn]
  exact (if_neg (Nat.not_lt.mpr h)).trans (congrArg (fun t => (t.serve p).auditTry p) (State.modPort_congr rfl))

theorem State.retryIn_of_framed {fsn : BitVec 16} (hr : (retryNow s.clock fsn s.ports[p].retryIn).times.length < 16)
    (h : (fsn - s.ports[p].acked).toNat < (s.ports[p].framed - s.ports[p].acked).toNat) :
    s.retryIn p fsn = ((s.modPort p fun x => { x with retryIn := some (retryNow s.clock fsn s.ports[p].retryIn) }).modPort p
      fun x => { x with frameFsn := fsn }).emit (.resend p fsn) := by
  simp only [State.retryIn, State.modPort_ports_same, ge_iff_le, Nat.not_le.mpr hr, h, if_false, if_true]

theorem State.sendRetry_of_few (hr : (retryNow s.clock s.ports[p].rxFsn s.ports[p].retryOut).times.length < 16) :
    s.sendRetry p = ((s.modPort p fun x => { x with
      retryOut := some (retryNow s.clock s.ports[p].rxFsn s.ports[p].retryOut) }).sendControl p (lcFlit 5 (leBytes 2 s.ports[p].rxFsn.toNat))).bump .fabPortRetries p.val := by
  simp only [State.sendRetry, ge_iff_le, Nat.not_le.mpr hr, if_false]

/-! ## SWAP and SWAP_ACK (R341, R343, R344) -/

/-- SWAP is read on a port in service under MFP 1.1 or later, for a slot that there is. -/
theorem swap_readable {m : SwapMsg} (hp : s.ports[p].usable = true ∨ s.ports[p].state = .held)
    (hrev : 0x11 ≤ s.ports[p].rev.toNat) (hslot : m.slot.toNat ≤ 7) :
    (!(s.ports[p].usable || s.ports[p].state == .held) || decide (s.ports[p].rev.toNat < 0x11) ||
      decide (m.slot.toNat > 7)) = false := by
  rw [Port.usable_or_held hp, decide_eq_false (Nat.not_lt.mpr hrev), decide_eq_false (Nat.not_lt.mpr hslot)]
  rfl

/-- The transmitter's schedule is noted and acknowledged. -/
theorem State.swapIn_of_schedule {m : SwapMsg} (hp : s.ports[p].usable = true ∨ s.ports[p].state = .held)
    (hrev : 0x11 ≤ s.ports[p].rev.toNat) (hslot : m.slot.toNat ≤ 7) (hop : m.op = 1)
    (hat : (m.at_ - s.ports[p].rxFsn).toNat < 2 ^ 15) :
    s.swapIn p m = (s.modPort p fun x => { x with rx := { x.rx with
      swap := some { slot := m.slot.toNat, from_ := m.from_.toNat, to_ := m.to_.toNat, at_ := m.at_, acked := true } } }).sendControl p
        (lcFlit 7 (swapBytes m)) := by
  have h01 : ¬(1 : BitVec 8) = 0 := by decide
  simp only [State.swapIn, swap_readable hp hrev hslot, hop, h01, ge_iff_le, Nat.not_le.mpr hat, Bool.false_eq_true, if_false,
    if_true]

/-- The receiver's request for a slot that no swap concerns makes the transmitter skip it. -/
theorem State.swapIn_of_request {m : SwapMsg} {k : LaneIx} (hp : s.ports[p].usable = true ∨ s.ports[p].state = .held)
    (hrev : 0x11 ≤ s.ports[p].rev.toNat) (hslot : m.slot.toNat ≤ 7) (hop : m.op = 0)
    (hmap : (s.ports[p].tx.map.toArray[m.slot.toNat]?).join = some k) (hk : k.val = m.from_.toNat)
    (hskip : s.ports[p].tx.skip.getLsbD m.slot.toNat = false) (hswap : s.ports[p].tx.swap = none) :
    s.swapIn p m = s.skipSlot p m.slot.toNat k := by
  simp only [State.swapIn, swap_readable hp hrev hslot, hop, hmap, hk, hskip, hswap, ne_eq, not_true_eq_false, decide_false,
    Option.map_none, Option.getD_none, Bool.or_self, Bool.false_eq_true, if_false, if_true]

/-- A lane of the transmitter fails and its slot is skipped. -/
def State.skipped (s : State) (p : PortIx) (slot : Nat) (k : LaneIx) : State :=
  s.modPort p fun x => { x with tx := { x.tx.setLane k .failed with skip := x.tx.skip ||| BitVec.ofNat 8 (2 ^ slot) } }

/-- With four slots left and no swap in force, the slot that is skipped goes to the STANDBY lane. -/
theorem State.skipSlot_of_room {slot : Nat} {k : LaneIx} (h4 : 4 ≤ (s.skipped p slot k).ports[p].tx.slots)
    (hswap : (s.skipped p slot k).ports[p].tx.swap = none) : s.skipSlot p slot k =
      (s.skipped p slot k).schedule p slot k.val (s.skipped p slot k).ports[p].tx.standby 1 := by
  have hno : ¬(s.skipped p slot k).ports[p].tx.swap.isSome = true := by rw [hswap]; decide
  exact (if_neg (Nat.not_lt.mpr h4)).trans (if_neg hno)

theorem State.swapAckIn_of_schedule {m : SwapMsg} {w : Swap} (hw : s.ports[p].tx.swap = some w) (hslot : w.slot = m.slot.toNat)
    (hfrom : w.from_ = m.from_.toNat) (hto : w.to_ = m.to_.toNat) (hat : w.at_ = m.at_) (hop : m.op = 1) :
    s.swapAckIn p m = s.modPort p fun x => { x with tx := { x.tx with swap := some { w with acked := true } } } := by
  refine State.modPort_congr ?_
  simp only [hw, hslot, hfrom, hto, hat, hop, decide_true, Bool.and_self, if_true]

/-- A swap takes effect in a direction, and counts where it has a lane to go to. -/
def State.swapDone (s : State) (p : PortIx) (d : Dir) (w : Swap) : State :=
  let u := s.modPort p fun x => x.modDir d fun y => y.swapped w
  if w.to_ < 9 then u.bump .fabPortSwaps p.val else u

theorem State.swapDue_of_acked {d : Dir} {w : Swap} (hw : (s.ports[p].dir d).swap = some w) (ha : w.acked = true)
    (hat : (s.ports[p].nextFsn d - w.at_).toNat < 2 ^ 15) (h4 : 4 ≤ ((s.swapDone p d w).ports[p].dir d).slots) :
    s.swapDue p d = (s.swapDone p d w).regrade p := by
  simp only [State.swapDue, hw, ha, ge_iff_le, Nat.not_le.mpr hat, Bool.not_true, Bool.false_eq_true, if_false]
  exact if_neg (Nat.not_lt.mpr h4)

/-! ## Lane blocks (R332 to R335) -/

/-- The next block of the frame that is expected, whole, on a data lane that no swap concerns; another slot is still to come. -/
structure Port.Awaits (x : Port) (k : LaneIx) (b : Slice) : Prop where
  data : x.rx.lanes[k].state = .data
  wave : b.wave.toNat = k.val
  slot : x.rx.slotOf k = some b.slot.toNat
  noSwap : x.rx.swap = none
  tags : (b.flits.any fun f => !tagOk f.1) = false
  fsn : b.fsn = x.rxFsn
  noBad : x.frameBad = []
  new : ∀ y ∈ x.frame, y.1 ≠ k
  more : ∃ i, i < 8 ∧ b.skip.getLsbD i = false ∧ i ≠ b.slot.toNat ∧ ∀ y ∈ x.frame, y.2.slot.toNat ≠ i

/-- What FEC corrected in a lane block is counted for its port and its lane (R332). -/
def State.countFec (s : State) (p : PortIx) (k : LaneIx) (n : Nat) : State :=
  (s.bump .fabPortFecCorrected p.val 0 n).bump .fabPortLaneFecCorrected p.val k.val n

theorem State.countFec_ports (s : State) (p : PortIx) (k : LaneIx) (n : Nat) : (s.countFec p k n).ports = s.ports := by
  rw [State.countFec, State.bump_ports, State.bump_ports]

theorem State.ctr_countFec (s : State) (p : PortIx) (k : LaneIx) (n : Nat) :
    (s.countFec p k n).ctr ⟨.fabPortFecCorrected, p.val, 0, 0⟩ =
      s.ctr ⟨.fabPortFecCorrected, p.val, 0, 0⟩ + BitVec.ofNat 64 n := by
  rw [State.countFec, State.ctr_bump_of_ne _ _ _ (show CtrId.fabPortLaneFecCorrected ≠ .fabPortFecCorrected by decide),
    State.ctr_bump]

/-- What an aligned lane's MARKER leaves of its port. -/
def Port.marked (x : Port) (k : LaneIx) (l : Lane) : Port := { x with rx := { x.rx with lanes := x.rx.lanes.set k l } }

theorem Lane.mark_of_aligned {l : Lane} (h : 4 ≤ l.markers) : l.mark true = { l with markers := 4, misses := 0 } := by
  rw [Lane.mark, if_pos rfl, Nat.min_eq_left (Nat.le_succ_of_le h)]

/-- Alignment is no condition on a block that is awaited. -/
theorem Port.Awaits.marked {x : Port} {k : LaneIx} {b : Slice} (h : x.Awaits k b) (m n : Nat) :
    (x.marked k { x.rx.lanes[k] with markers := m, misses := n }).Awaits k b where
  data := by rw [Port.marked, Fin.getElem_fin, Vector.getElem_set_self]; exact h.data
  wave := h.wave
  slot := h.slot
  noSwap := h.noSwap
  tags := h.tags
  fsn := h.fsn
  noBad := h.noBad
  new := h.new
  more := h.more

/-- A frame without the slot that is still to come is not complete. -/
theorem Port.Awaits.incomplete {x : Port} {k : LaneIx} {b : Slice} (h : x.Awaits k b) :
    (((List.range 8).filter fun i => !b.skip.getLsbD i).all fun i =>
      (x.frame ++ [(k, b)]).any fun y => y.2.slot.toNat == i) = false := by
  obtain ⟨i, hi, hskip, hne, hframe⟩ := h.more
  refine List.all_eq_false.mpr ⟨i, List.mem_filter.mpr ⟨List.mem_range.mpr hi, by rw [hskip]; rfl⟩, ?_⟩
  rw [Bool.not_eq_true, List.any_append, Bool.or_eq_false_iff]
  refine ⟨List.any_eq_false.mpr fun y hy => by simpa using hframe y hy, ?_⟩
  simpa using fun hb => hne hb.symm

/-- Lane k is written back with the uncorrectable blocks that it had. -/
theorem PortDir.set_uncorr_self (d : PortDir) (k : LaneIx) :
    { d with lanes := d.lanes.set k { d.lanes[k] with uncorr := d.lanes[k].uncorr } } = d := by
  have hset : d.lanes.set k d.lanes[k] = d.lanes := Vector.set_getElem_self _
  exact congrArg (fun l => { d with lanes := l }) hset

/-- A block of the next frame starts no numbering. -/
theorem State.expect_rxFsn (s : State) (p : PortIx) : s.expect p s.ports[p].rxFsn = s := by
  refine State.modPort_eq_self (if_neg ?_)
  simp

/-- The block that is awaited is counted and joins the frame. -/
theorem State.sliceIn_of_awaits {k : LaneIx} {b : Slice} (h : s.ports[p].Awaits k b) (n : Nat) :
    s.sliceIn p k b (some n) true =
      (s.countFec p k n).modPort p fun x => { x with frame := x.frame ++ [(k, b)], frameBad := [] } := by
  have hports := s.countFec_ports p k n
  have hframe : (s.ports[p].frame.any fun y => y.1 == k) = false := by simpa using fun a c hy => h.new (a, c) hy
  have hexpect : (s.countFec p k n).expect p s.ports[p].rxFsn = s.countFec p k n := by
    simpa only [hports] using (s.countFec p k n).expect_rxFsn p
  have hunc : ((s.countFec p k n).modPort p fun x => { x with rx := { x.rx with
      lanes := x.rx.lanes.set k { x.rx.lanes[k] with uncorr := s.ports[p].rx.lanes[k].uncorr } } }) = s.countFec p k n := by
    refine State.modPort_eq_self ?_
    rw [hports]
    exact congrArg (fun d => { s.ports[p] with rx := d }) (PortDir.set_uncorr_self _ k)
  have hcount : (s.bump .fabPortFecCorrected p.val 0 n).bump .fabPortLaneFecCorrected p.val k.val n = s.countFec p k n := rfl
  simp only [State.sliceIn, hcount, h.noSwap, h.slot, h.wave, h.data, h.tags, hexpect, hunc, hports, h.fsn, h.noBad, hframe,
    List.contains_nil, State.modPort_ports_same, h.incomplete, Option.isNone_some, Option.map_none, Option.getD_none, Bool.not_true,
    bne_self_eq_false, beq_self_eq_true, Bool.or_true, Bool.or_false, Bool.false_eq_true, if_false, ne_eq, not_true_eq_false,
    decide_false, Bool.false_and, Bool.and_false]
  exact State.modPort_congr (by simp only [hports])

/-- An aligned lane's block that is awaited is read, and its MARKER keeps the alignment (R334). -/
theorem State.blockIn_of_awaits {k : LaneIx} {b : LaneBlock} {data n : Nat} {sl : Slice} (hp : s.ports[p].pastFec = true)
    (hk : 4 ≤ s.ports[p].rx.lanes[k].markers) (hm : blockMarker b = 0x33C) (hd : blockData b = (data, some n))
    (hs : blockSlice b data = (sl, true)) (h : s.ports[p].Awaits k sl) : s.blockIn p k b =
      ((s.modPort p fun x => x.marked k { x.rx.lanes[k] with markers := 4, misses := 0 }).countFec p k n).modPort p fun x =>
        { x with frame := x.frame ++ [(k, sl)], frameBad := [] } := by
  have hslice := State.sliceIn_of_awaits (s := s.modPort p fun x => x.marked k { x.rx.lanes[k] with markers := 4, misses := 0 })
    (p := p) (by rw [State.modPort_ports_same]; exact h.marked 4 0) n
  rw [← hslice]
  simp only [State.blockIn, hp, hm, hd, hs, h.data, Lane.mark_of_aligned hk, Nat.not_lt.mpr hk, beq_self_eq_true, Bool.not_true,
    Bool.true_or, decide_false, Bool.or_self, Bool.false_eq_true, if_false, Nat.lt_irrefl]
  exact congrArg (fun t => State.sliceIn t p k sl (some n) true) (State.modPort_congr (by simp only [Port.marked, h.data]))

end

/-- Settles O49: when each row of a link past FEC acts, and what a flit, a timer or a lane block whose conditions hold comes to. -/
theorem linkMessages : Obligations.LinkMessages := by
  intro s p hl hp
  refine ⟨exec_ack hl hp, exec_retry hl hp, exec_swap hl, exec_swapAck hl hp, exec_swapAt hl, exec_laneBlock hl, ?acked, ?resent,
    ?swap, ?scheduled, ?due, ?block, ?again, fun r hr ht => exec_retryRepeat hl hp hr ht, exec_ackTimer hl hp⟩
  case acked =>
    intro fsn x h
    rw [exec_ack hl hp, State.ackIn_of_framed h]
  case resent =>
    intro fsn x r hr h
    rw [exec_retry hl hp, State.retryIn_of_framed hr h]
  case swap =>
    intro hs hrev m hslot
    constructor
    · intro hop hat
      rw [exec_swap hl, State.swapIn_of_schedule hs hrev hslot hop hat]
    · intro k hop hmap hk hskip hswap u h4 hnone
      rw [exec_swap hl, State.swapIn_of_request hs hrev hslot hop hmap hk hskip hswap]
      exact congrArg _ (State.skipSlot_of_room h4 hnone)
  case scheduled =>
    intro m w hw hslot hfrom hto hat hop
    rw [exec_swapAck hl hp, State.swapAckIn_of_schedule hw hslot hfrom hto hat hop]
  case due =>
    intro d w hw ha hat u v h4
    rw [exec_swapAt hl, State.swapDue_of_acked hw ha hat h4]
    rfl
  case block =>
    intro lane b data n sl x hk hdata hm hd hs hwave hslot hswap htags hfsn hbad hnew hmore
    have hawait : s.ports[p].Awaits lane sl := ⟨hdata, hwave, hslot, hswap, htags, hfsn, hbad, hnew, hmore⟩
    refine ⟨_, exec_laneBlock hl lane b, ?_⟩
    dsimp only
    rw [State.blockIn_of_awaits hp hk hm hd hs hawait, State.modPort_ports_same, State.countFec_ports, State.modPort_ports_same]
    exact ⟨rfl, rfl, rfl, State.ctr_countFec _ p lane n⟩
  case again =>
    intro r hr ht r' h16
    rw [exec_retryRepeat hl hp hr ht, State.sendRetry_of_few h16]

end Sys2Proof.Machine
end

section
/-! SUPPORT. Proofs of spec/12_optical_links.md for lanes, rings, training and ports that go DOWN: when each row acts, and what it
comes to where its conditions hold. -/

namespace Sys2Proof.Machine

/-! ## The state of a port -/

theorem Port.not_training_of_usable {x : Port} (h : x.usable = true) : x.state ≠ .training := by
  intro hs
  rw [Port.usable, hs] at h
  exact absurd h (by decide)

theorem Port.not_down_of_linked {x : Port} (h : x.usable = true ∨ x.state = .held) : x.state ≠ .down := by
  intro hs
  rw [Port.usable, hs] at h
  exact absurd h (by decide)

theorem Port.linked_eq_false_of_training {x : Port} (h : x.state = .training) : (x.usable || x.state == .held) = false := by
  rw [Port.usable, h]
  rfl

section
variable {s : State} {p : PortIx}

/-! ## When a row of lanes and rings acts (R330, R331, R340, R345) -/

theorem exec_laneFailure (hl : s.live = true) (d : Dir) (lane : LaneIx) (cause : LaneCause) :
    exec (.laneFailure p d lane cause) s = .next (s.failLane p d lane cause) :=
  when_of_true (fun s => s.failLane p d lane cause) hl

/-- A ring that is found wrong on a lane in service fails the lane; one that is found right changes nothing (R331). -/
theorem exec_toneRecheck {d : Dir} {lane : LaneIx} (hl : s.live = true) (hu : s.ports[p].usable = true)
    (hc : ((s.ports[p].dir d).lanes[lane]).clean = none)
    (hs : ((s.ports[p].dir d).lanes[lane]).state = .data ∨ ((s.ports[p].dir d).lanes[lane]).state = .standby) (r : RingResult) :
    exec (.toneRecheck p d lane r) s = .next (if r = .verified then s else (s.countTone p lane r).failLane p d lane .tone) := by
  change execToneRecheck p d lane r s = _
  rw [execToneRecheck, when_of_true _ (by rcases hs with h | h <;> rw [hl, hu, h] <;> rfl), hc]
  rfl

theorem exec_laneRecovery {d : Dir} {lane : LaneIx} {t : Nat} (hl : s.live = true) (hu : s.ports[p].usable = true)
    (hs : ((s.ports[p].dir d).lanes[lane]).state = .failed) (hc : ((s.ports[p].dir d).lanes[lane]).clean = some t)
    (ht : t + 10000000 ≤ s.clock) :
    exec (.laneRecovery p d lane) s = .next (s.modPort p fun x => x.modDir d fun y => y.setLane lane .standby) :=
  when_of_true (fun s => s.modPort p fun x => x.modDir d fun y => y.setLane lane .standby)
    (by rw [hl, hu, hs, hc, Option.map_some, decide_eq_true ht]; rfl)

/-- A ring of a lane that failed in service re-sweeps (R331, R345). -/
theorem exec_ringLock_of_sweeps {d : Dir} {lane : LaneIx} (hl : s.live = true) (hu : s.ports[p].usable = true)
    (hs : ((s.ports[p].dir d).lanes[lane]).state = .failed) (hw : ((s.ports[p].dir d).lanes[lane]).sweeps = true) (r : RingResult) :
    exec (.ringLock p d lane r) s = .next ((s.countTone p lane r).modPort p fun x => x.modDir d fun y => { y with
      lanes := y.lanes.set lane (((s.ports[p].dir d).lanes[lane]).swept s.clock r) }) := by
  change execRingLock p d lane r s = _
  rw [execRingLock, when_of_true _ hl]
  simp only [Port.not_training_of_usable hu, hu, hs, hw, decide_false, decide_true, Bool.false_and, Bool.and_self,
    Bool.false_eq_true, if_false, if_true]

/-- A ring's outcome in step LOCK is noted on its lane. -/
def State.ringLocked (s : State) (p : PortIx) (d : Dir) (lane : LaneIx) (r : RingResult) : State :=
  (s.countTone p lane r).modPort p fun x => x.modDir d fun y => { y with
    lanes := y.lanes.set lane (((s.ports[p].dir d).lanes[lane]).locked r) }

/-- The last ring that locks ends step LOCK (R330, R346). -/
theorem exec_ringLock_of_training {d : Dir} {lane : LaneIx} (hl : s.live = true) (ht : s.ports[p].state = .training)
    (h2 : s.ports[p].step = 2) (hs : ((s.ports[p].dir d).lanes[lane]).state = .locking) (r : RingResult) :
    exec (.ringLock p d lane r) s = .next
      (let u := s.ringLocked p d lane r
       if u.ports[p].tx.lockDone ∧ u.ports[p].rx.lockDone then u.enterStep p 3 else u) := by
  change execRingLock p d lane r s = _
  rw [execRingLock, when_of_true _ hl]
  refine congrArg Host.Outcome.next ((if_pos ?_).trans (if_congr Bool.and_eq_true_iff rfl rfl))
  rw [ht, h2, hs]
  rfl

/-! ## When a row of training acts (R346 to R349, R487) -/

/-- The light that a port sees; without enough of it in a lit bay, a DOWN port has no peer (R346, R355). -/
def State.lightSeen (s : State) (p : PortIx) (waves : BitVec 9) : State :=
  s.modPort p fun x => { x with
    waves := waves
    reason :=
      if x.state = .down && lit waves < 4 && s.bays[bayOf p].state = .active && x.reason ≠ .disabled then .noPeer else x.reason }

theorem State.lightSeen_port (s : State) (p : PortIx) (waves : BitVec 9) :
    (s.lightSeen p waves).ports[p].state = s.ports[p].state ∧ (s.lightSeen p waves).ports[p].cfg = s.ports[p].cfg ∧
    (s.lightSeen p waves).ports[p].retryAt = s.ports[p].retryAt ∧ (s.lightSeen p waves).ports[p].waves = waves := by
  simp only [State.lightSeen, State.modPort_ports_same, and_self]

theorem exec_peerPresent (hl : s.live = true) (waves : BitVec 9) :
    exec (.peerPresent p waves) s = .next ((s.lightSeen p waves).tryTrain p) :=
  when_of_true (fun s => (s.lightSeen p waves).tryTrain p) hl

theorem State.lightSeen_of_not_down (hs : s.ports[p].state ≠ .down) (waves : BitVec 9) :
    s.lightSeen p waves = s.modPort p fun x => { x with waves := waves } := by
  refine State.modPort_congr ?_
  simp only [hs, decide_false, Bool.false_and, Bool.false_eq_true, if_false]

theorem exec_equaliseComplete (hl : s.live = true) (ht : s.ports[p].state = .training) (h3 : s.ports[p].step = 3) (a b : BitVec 9)
    (c : Bool) : exec (.equaliseComplete p a b c) s = .next (s.equalised p a b c) :=
  when_of_true (fun s => s.equalised p a b c) (by rw [hl, ht, h3]; rfl)

theorem exec_trainingSequence_of_training {step : Nat} (hl : s.live = true) (ht : s.ports[p].state = .training) (h1 : 1 ≤ step)
    (h9 : step ≤ 9) (id : Identity) (idents : Vector LaneIdent 9) (rt : Nat) : exec (.trainingSequence p step id idents rt) s =
      .next (State.trainOn p id idents rt 4 (s.modPort p fun x => { x with peerStep := step })) := by
  change execTrainingSequence p step id idents rt s = _
  rw [execTrainingSequence, when_of_true _ (by rw [hl, decide_eq_true h1, decide_eq_true h9]; rfl)]
  refine congrArg Host.Outcome.next ((if_neg ?_).trans (if_pos ht))
  rw [Port.linked_eq_false_of_training ht]
  decide

theorem exec_trainingSequence_of_linked {step : Nat} (hl : s.live = true)
    (hp : s.ports[p].usable = true ∨ s.ports[p].state = .held) (h1 : 1 ≤ step) (h9 : step < 9) (id : Identity)
    (idents : Vector LaneIdent 9) (rt : Nat) : exec (.trainingSequence p step id idents rt) s = .next (s.goDown p .command) := by
  change execTrainingSequence p step id idents rt s = _
  rw [execTrainingSequence, when_of_true _ (by rw [hl, decide_eq_true h1, decide_eq_true h9.le]; rfl)]
  simp only [Port.usable_or_held hp, h9, if_true]

theorem exec_trainTimeout (hl : s.live = true) (ht : s.ports[p].state = .training)
    (hlate : s.ports[p].stepT + stepLimit s.ports[p].step ≤ s.clock) : exec (.trainTimeout p) s =
      .next ((s.bump .fabPortTrainFail p.val s.ports[p].step).goDown p .trainTimeout) :=
  when_of_true (fun t => (t.bump .fabPortTrainFail p.val s.ports[p].step).goDown p .trainTimeout)
    (by rw [hl, ht, decide_eq_true hlate]; rfl)

theorem exec_peerRetrain (hl : s.live = true) (hp : s.ports[p].usable = true ∨ s.ports[p].state = .held) :
    exec (.peerRetrain p) s = .next (s.goDown p .command) :=
  when_of_true (fun s => s.goDown p .command) (by rw [hl, Port.usable_or_held hp]; rfl)

theorem exec_trainingRetry (hl : s.live = true)
    (hr : s.ports[p].reason = .trainTimeout ∨ s.ports[p].reason = .tooFewLanes ∨ s.ports[p].reason = .revMismatch) :
    exec (.trainingRetry p) s = .next (s.tryTrain p) :=
  when_of_true (fun s => s.tryTrain p) (by rcases hr with h | h | h <;> rw [hl, h] <;> rfl)

theorem exec_portDown {r : DownReason} (hl : s.live = true) (hs : s.ports[p].state ≠ .down) (hr : r ≠ .none) :
    exec (.portDown p r) s = .next (s.goDown p r) :=
  when_of_true (fun s => s.goDown p r) (by rw [hl, bne_iff_ne.mpr hs, bne_iff_ne.mpr hr]; rfl)

theorem exec_opticalRetrainStep {e : Fin 4} (hl : s.live = true)
    (ht : ((s.therm[124 + e.val]?).getD {}).stepped + 10000000 ≤ s.clock) :
    exec (.opticalRetrainStep e) s = .next (s.opticalStep e) :=
  when_of_true (fun s => s.opticalStep e) (by rw [hl, decide_eq_true ht]; rfl)

/-! ## A lane that fails (R340, R343, R344) -/

/-- Only a fade at the transmitter leaves the lane working. -/
theorem fade_eq_false {d : Dir} {c : LaneCause} (h : c ≠ .laser ∨ d = .rx) : (c == .laser && d == .tx) = false := by
  rcases h with h | rfl
  · rw [beq_eq_false_iff_ne.mpr h, Bool.false_and]
  · exact Bool.and_false _

theorem State.failLane_of_standby {d : Dir} {lane : LaneIx} {c : LaneCause}
    (hp : s.ports[p].usable = true ∨ s.ports[p].state = .held) (hc : c ≠ .laser ∨ d = .rx)
    (hs : ((s.ports[p].dir d).lanes[lane]).state = .standby) : s.failLane p d lane c =
      (((s.modPort p fun x => x.modDir d fun y => y.sweep lane).modPort p fun x => x.modDir d fun y => y.setLane lane .failed).bump
        .fabPortLaneFailures p.val lane.val).setFlag .fabSpareLost 4 p.val := by
  simp only [State.failLane, Port.usable_or_held hp, fade_eq_false hc, hs, Bool.not_true, Bool.false_eq_true, if_false]

/-- The wavelengths that still show light once a lane has failed. -/
def Port.wavesAfter (x : Port) (lane : LaneIx) (c : LaneCause) : BitVec 9 :=
  if c = .lossOfSignal then x.waves &&& ~~~(BitVec.ofNat 9 (2 ^ lane.val)) else x.waves

/-- A data lane of the receiver fails: it may re-sweep, and its failure is counted (R331, R340). -/
def State.rxLaneFails (s : State) (p : PortIx) (lane : LaneIx) (c : LaneCause) : State :=
  ((s.modPort p fun x => { x with rx := x.rx.sweep lane }).bump .fabPortLaneFailures p.val lane.val).modPort p fun x => { x with
    waves := s.ports[p].wavesAfter lane c, rx := x.rx.setLane lane .failed }

/-- While the frame is being asked for again, a receiver with four lanes left only asks for the swap. -/
theorem State.failLane_of_rx_data {lane : LaneIx} {slot : Nat} {c : LaneCause}
    (hp : s.ports[p].usable = true ∨ s.ports[p].state = .held) (hrev : 0x11 ≤ s.ports[p].rev.toNat)
    (hs : s.ports[p].rx.lanes[lane].state = .data) (hslot : s.ports[p].rx.slotOf lane = some slot) (hr : s.ports[p].retryOut ≠ none)
    (h4 : 4 ≤ (s.rxLaneFails p lane c).ports[p].rx.carrying) : s.failLane p .rx lane c =
      ((s.rxLaneFails p lane c).modPort p fun x => { x with frame := [], frameBad := [] }).sendControl p
        (lcFlit 6 (swapBytes ⟨0, BitVec.ofNat 8 slot, BitVec.ofNat 8 lane.val,
          BitVec.ofNat 8 ((s.ports[p].rx.standby.map fun k => k.val).getD 15), 0⟩)) := by
  have hport : (s.rxLaneFails p lane c).ports[p] = { s.ports[p] with
      waves := s.ports[p].wavesAfter lane c, rx := (s.ports[p].rx.sweep lane).setLane lane .failed } := by
    rw [State.rxLaneFails, State.modPort_ports_same, State.bump_ports, State.modPort_ports_same]
  have hfade : (c == .laser && Dir.rx == .tx) = false := fade_eq_false (.inr rfl)
  have hlane : ((s.ports[p].dir .rx).lanes[lane]).state = .data := hs
  have hdslot : (s.ports[p].dir .rx).slotOf lane = some slot := hslot
  have hfails : ((s.modPort p fun x => x.modDir .rx fun y => y.sweep lane).bump .fabPortLaneFailures p.val lane.val).modPort p
      (fun x => { x with waves := s.ports[p].wavesAfter lane c, rx := x.rx.setLane lane .failed }) = s.rxLaneFails p lane c := rfl
  have hstate : (s.rxLaneFails p lane c).ports[p].state = s.ports[p].state := by rw [hport]
  have hretry : (s.rxLaneFails p lane c).ports[p].retryOut = s.ports[p].retryOut := by rw [hport]
  have hsome : s.ports[p].retryOut.isNone = false := Option.isNone_eq_false_iff.mpr (Option.isSome_iff_ne_none.mpr hr)
  simp only [State.failLane, Port.usable_or_held hp, hfade, hlane, hdslot, ← Port.wavesAfter.eq_1, hfails, Nat.not_lt.mpr hrev,
    Nat.not_lt.mpr h4, State.modPort_ports_same, hstate, hretry, hsome, Port.not_down_of_linked hp, Bool.not_true, Bool.false_and,
    Bool.false_eq_true, if_false]

/-! ## Training starts and goes on (R346 to R349) -/

theorem State.tryTrain_of_mayTrain (h : s.mayTrain p = true) : s.tryTrain p = s.startTraining p := if_pos h

theorem State.tryTrain_of_not_mayTrain (h : s.mayTrain p = false) : s.tryTrain p = s := if_neg (by rw [h]; decide)

/-- A DOWN port whose cause has cleared and whose light is there may train (R346, R349). -/
theorem State.mayTrain_of_cleared (hl : s.live = true) (hf : s.dbg.frozen = false) (hs : s.ports[p].state = .down)
    (hb : s.bays[bayOf p].state = .active) (he : s.ports[p].cfg.enabled = true) (hm : s.planMode p ≠ 3)
    (hw : 4 ≤ lit s.ports[p].waves) (ht : s.ports[p].retryAt ≤ s.clock) : s.mayTrain p = true := by
  simp only [State.mayTrain, hl, hf, hs, hb, he, bne_iff_ne.mpr hm, ge_iff_le, hw, ht, Bool.not_false, beq_self_eq_true, decide_true,
    Bool.and_self]

/-- A port whose wait is not over does not train by itself (R349). -/
theorem State.mayTrain_of_waiting (h : s.clock < s.ports[p].retryAt) : s.mayTrain p = false := by
  rw [State.mayTrain, decide_eq_false (Nat.not_le.mpr h), Bool.and_false]

theorem State.enterStep_port (s : State) (p : PortIx) (k : Nat) :
    (s.enterStep p k).ports[p] = { s.ports[p] with step := k, stepT := s.clock } := by
  have hports : (s.enterStep p k).ports = (s.modPort p fun x => { x with step := k, stepT := s.clock }).ports := by
    rw [State.enterStep]
    split <;> rfl
  simp only [hports, State.modPort_ports_same]

/-- A port that starts to train is in step LOCK from now on; why it was DOWN, how often it timed out, and its light stay as they
are. -/
theorem State.startTraining_port (s : State) (p : PortIx) :
    (s.startTraining p).ports[p].state = .training ∧ (s.startTraining p).ports[p].step = 2 ∧
    (s.startTraining p).ports[p].stepT = s.clock ∧ (s.startTraining p).ports[p].waves = s.ports[p].waves ∧
    (s.startTraining p).ports[p].reason = s.ports[p].reason ∧ (s.startTraining p).ports[p].timeouts = s.ports[p].timeouts := by
  rw [State.startTraining, State.enterStep_port, State.bump_ports, State.modPort_ports_same]
  exact ⟨rfl, rfl, rfl, rfl, rfl, rfl⟩

theorem State.tryTrain_reason (s : State) (p : PortIx) : (s.tryTrain p).ports[p].reason = s.ports[p].reason := by
  rw [State.tryTrain]
  split
  · obtain ⟨-, -, -, -, h, -⟩ := s.startTraining_port p; exact h
  · rfl

theorem State.tryTrain_timeouts (s : State) (p : PortIx) : (s.tryTrain p).ports[p].timeouts = s.ports[p].timeouts := by
  rw [State.tryTrain]
  split
  · obtain ⟨-, -, -, -, -, h⟩ := s.startTraining_port p; exact h
  · rfl

/-! ## The steps of training (R331, R346, R347) -/

/-- The rate that the lanes which pass leave to a port (R347). -/
def Port.rateAfter (x : Port) (pass200 pass100 : BitVec 9) (peerRate100 : Bool) : Bool :=
  let count (w : BitVec 9) : Nat := ((List.finRange 9).filter fun k => x.rx.lanes[k].state == .trained && w.getLsbD k.val).length
  chooseRate (count pass200) (count pass100) x.cfg.force.val peerRate100 x.hot

/-- The lanes that do not pass at the port's rate have failed (R347). -/
def State.lanesPassed (s : State) (p : PortIx) (pass200 pass100 : BitVec 9) (peerRate100 : Bool) : State :=
  let slow := s.ports[p].rateAfter pass200 pass100 peerRate100
  s.modPort p fun x => { x with
    rate100 := slow
    rx := { x.rx with lanes := Vector.ofFn fun k =>
      let l := { x.rx.lanes[k] with pass200 := pass200.getLsbD k.val, pass100 := pass100.getLsbD k.val }
      if l.state = .trained && !(if slow then pass100.getLsbD k.val else pass200.getLsbD k.val) then { l with state := .failed } else l } }

theorem State.equalised_of_trained {a b : BitVec 9} {c : Bool} (hrx : 4 ≤ (s.lanesPassed p a b c).ports[p].rx.trained)
    (htx : 4 ≤ (s.lanesPassed p a b c).ports[p].tx.trained) : s.equalised p a b c = (s.lanesPassed p a b c).enterStep p 4 := by
  have hno : ¬(decide ((s.lanesPassed p a b c).ports[p].rx.trained < 4) ||
      decide ((s.lanesPassed p a b c).ports[p].tx.trained < 4)) = true := by
    rw [decide_eq_false (Nat.not_lt.mpr hrx), decide_eq_false (Nat.not_lt.mpr htx)]; decide
  exact if_neg hno

section
variable {id : Identity} {idents : Vector LaneIdent 9} {rt : Nat}

/-- Both ends are in the same step, and go on from it together. -/
theorem State.trainOn_succ {n : Nat} (ht : s.ports[p].state = .training) (h4 : 4 ≤ s.ports[p].step) (h7 : s.ports[p].step ≤ 7)
    (hpeer : s.ports[p].step ≤ s.ports[p].peerStep) :
    State.trainOn p id idents rt (n + 1) s = State.trainOn p id idents rt n (s.trainStep p id idents rt) := by
  rw [State.trainOn]
  exact if_pos (by rw [ht, decide_eq_true h4, decide_eq_true h7, decide_eq_true hpeer]; rfl)

/-- A port that is ahead of its peer waits for it. -/
theorem State.trainOn_of_ahead (hpeer : s.ports[p].peerStep < s.ports[p].step) (n : Nat) :
    State.trainOn p id idents rt n s = s := by
  cases n with
  | zero => rfl
  | succ n =>
    rw [State.trainOn]
    exact if_neg (by rw [decide_eq_false (Nat.not_le.mpr hpeer), Bool.and_false]; decide)

/-- The lanes of a port that has heard its peer's lane identities (R331, R335). -/
def State.lanesIdentified (s : State) (p : PortIx) (idents : Vector LaneIdent 9) (rt : Nat) : State :=
  s.modPort p fun x => { x with roundTrip := rt, rx := x.rx.identified idents }

theorem State.trainStep_of_identified (h4 : s.ports[p].step = 4) (hrx : 4 ≤ (s.lanesIdentified p idents rt).ports[p].rx.trained) :
    s.trainStep p id idents rt = (s.lanesIdentified p idents rt).enterStep p 5 := by
  simp only [State.trainStep, h4]
  exact if_neg (Nat.not_lt.mpr hrx)

/-- A peer in step 4 takes a port in that step to the next one, and no further. -/
theorem State.trainOn_of_identified (ht : s.ports[p].state = .training) (h4 : s.ports[p].step = 4) (hpeer : s.ports[p].peerStep = 4)
    (hrx : 4 ≤ (s.lanesIdentified p idents rt).ports[p].rx.trained) (n : Nat) :
    State.trainOn p id idents rt (n + 1) s = (s.lanesIdentified p idents rt).enterStep p 5 := by
  rw [State.trainOn_succ ht (by omega) (by omega) (by omega), State.trainStep_of_identified h4 hrx]
  refine State.trainOn_of_ahead ?_ n
  rw [State.enterStep_port, State.lanesIdentified, State.modPort_ports_same]
  exact hpeer.trans_lt (show 4 < 5 by decide)

end

/-! ## A port goes DOWN (R317, R349) -/

/-- Timeouts in a row once a port goes DOWN for a reason. -/
def Port.timeoutsAfter (x : Port) (r : DownReason) : Nat :=
  if r = .trainTimeout || r = .tooFewLanes then x.timeouts + 1 else x.timeouts

/-- A port that has gone DOWN, before the router and the collectives act. -/
def State.fallen (s : State) (p : PortIx) (r : DownReason) : State :=
  let timeouts := s.ports[p].timeoutsAfter r
  let waves := if r = .noPeer then 0 else s.ports[p].waves
  let bayLit := s.bays[bayOf p].state == .active || s.bays[bayOf p].state == .draining
  ((s.modPort p fun x => { x with
    state := .down, reason := r, step := 0, timeouts := timeouts, waves := waves, retryAt := resumeAt s.clock r timeouts
    tx := { x.tx with swap := none, lanes := x.tx.lanes.map (downLane bayLit) }
    rx := { x.rx with swap := none, lanes := Vector.ofFn fun k => downLane (waves.getLsbD k.val) x.rx.lanes[k] }
    input := x.input.map fun y => { y with stale := true }
    frame := [], frameBad := [], asm := [], retryOut := none, retryIn := none }).bump .fabPortDown p.val).bump
      .fabPortRxTruncated p.val 0 s.ports[p].asm.length

theorem State.fallen_port (s : State) (p : PortIx) (r : DownReason) :
    (s.fallen p r).ports[p].state = .down ∧ (s.fallen p r).ports[p].reason = r ∧
    (s.fallen p r).ports[p].timeouts = s.ports[p].timeoutsAfter r ∧
    (s.fallen p r).ports[p].retryAt = resumeAt s.clock r (s.ports[p].timeoutsAfter r) := by
  simp only [State.fallen, State.bump_ports, State.modPort_ports_same, and_self]

theorem State.goDown_of_linked (hp : s.ports[p].usable = true ∨ s.ports[p].state = .held) (ha : s.ports[p].audit = none)
    (r : DownReason) : s.goDown p r = (((s.fallen p r).routerDown p).collPortDown p).tryTrain p := by
  simp only [State.goDown, Port.not_down_of_linked hp, ha, Port.usable_or_held hp, if_false, if_true]
  rfl

/-- The router knows of no port that has not been up. -/
theorem State.goDown_of_training (ht : s.ports[p].state = .training) (ha : s.ports[p].audit = none) (r : DownReason) :
    s.goDown p r = (s.fallen p r).tryTrain p := by
  have hd : ¬s.ports[p].state = .down := by rw [ht]; decide
  simp only [State.goDown, hd, ha, Port.linked_eq_false_of_training ht, Bool.false_eq_true, if_false]
  rfl

/-- A timeout is one more in a row, and the third makes the port wait for a second (R349). -/
theorem State.goDown_trainTimeout (ht : s.ports[p].state = .training) (ha : s.ports[p].audit = none) :
    (s.goDown p .trainTimeout).ports[p].reason = .trainTimeout ∧
    (s.goDown p .trainTimeout).ports[p].timeouts = s.ports[p].timeouts + 1 ∧
    (2 ≤ s.ports[p].timeouts → (s.goDown p .trainTimeout).ports[p].state = .down ∧
      (s.goDown p .trainTimeout).ports[p].retryAt = s.clock + 1000000000) := by
  obtain ⟨hstate, hreason, htimeouts, hretry⟩ := s.fallen_port p .trainTimeout
  rw [State.goDown_of_training ht ha, State.tryTrain_reason, State.tryTrain_timeouts]
  refine ⟨hreason, htimeouts, fun h2 => ?_⟩
  have hlast : (s.fallen p .trainTimeout).ports[p].retryAt = s.clock + 1000000000 :=
    hretry.trans (if_pos (Nat.succ_le_succ h2))
  have hclock : (s.fallen p .trainTimeout).clock = s.clock := by simp only [State.fallen, State.bump_clock, State.modPort_clock]
  have hwaits : (s.fallen p .trainTimeout).mayTrain p = false := State.mayTrain_of_waiting (by omega)
  rw [State.tryTrain_of_not_mayTrain hwaits]
  exact ⟨hstate, hlast⟩

/-! ## Optical engines that are hot (R487) -/

/-- A test of the values found is a test of the keys, passed by those without a value. -/
theorem all_filterMap_getD {α β : Type} (f : α → Option β) (q : β → Bool) (xs : List α) :
    (xs.filterMap f).all q = xs.all fun a => ((f a).map q).getD true := by
  rw [List.all_filterMap]
  congr 1
  funext a
  cases f a <;> rfl

/-- The step of an engine is noted, so that the next comes 10 ms later. -/
def State.stepNoted (s : State) (e : Fin 4) : State :=
  { s with therm := s.therm.modify (124 + e.val) fun r => { r with stepped := s.clock } }

/-- An engine is at or above throttle. -/
def State.engineHot (s : State) (e : Fin 4) : Bool := s.atThrottle (124 + e.val) || s.atThrottle (128 + e.val)

/-- An engine has been cool for 1 s. -/
def State.engineCool (s : State) (e : Fin 4) : Bool :=
  [124 + e.val, 128 + e.val].all fun k => ((s.therm[k]?).map fun r =>
    (r.coolSince.map fun t => decide (t + 1000000000 ≤ s.clock)).getD false).getD true

/-- A port takes to 100 Gb/s or leaves it; a link that is up at the other rate retrains. -/
def State.setHot (s : State) (q : PortIx) (hot : Bool) : State :=
  let v := s.modPort q fun x => { x with hot := hot }
  if v.ports[q].linkUp && v.ports[q].rate100 != hot then v.goDown q .command else v

variable {e : Fin 4}

/-- A hot engine has one more port go to 100 Gb/s. -/
theorem State.opticalStep_of_hot {q : PortIx} (h : (s.stepNoted e).engineHot e = true)
    (hq : ((enginePorts e).find? fun p => !(s.stepNoted e).ports[p].hot &&
      !((s.stepNoted e).ports[p].linkUp && (s.stepNoted e).ports[p].rev == 0x10)) = some q) :
    s.opticalStep e = (s.stepNoted e).setHot q true := by
  rw [State.opticalStep]
  refine (if_pos h).trans ?_
  simp only [State.stepNoted] at hq
  simp only [hq]
  rfl

theorem State.opticalStep_of_cool {q : PortIx} (h : (s.stepNoted e).engineHot e = false) (hc : (s.stepNoted e).engineCool e = true)
    (hq : ((enginePorts e).find? fun p => (s.stepNoted e).ports[p].hot) = some q) :
    s.opticalStep e = (s.stepNoted e).setHot q false := by
  rw [State.engineCool, ← all_filterMap_getD] at hc
  rw [State.opticalStep]
  refine (if_neg (Bool.not_eq_true _ ▸ h)).trans ((if_pos hc).trans ?_)
  simp only [State.stepNoted] at hq
  simp only [hq]
  rfl

theorem State.opticalStep_of_neither (h : (s.stepNoted e).engineHot e = false) (hc : (s.stepNoted e).engineCool e = false) :
    s.opticalStep e = s.stepNoted e := by
  rw [State.engineCool, ← all_filterMap_getD, ← Bool.not_eq_true] at hc
  rw [← Bool.not_eq_true] at h
  exact (if_neg h).trans (if_neg hc)

/-- Four wavelengths of light let a DOWN port train (R346). -/
theorem State.gives_peerPresent (hl : s.live = true) {waves : BitVec 9} (hs : s.ports[p].state = .down) (h4 : 4 ≤ lit waves)
    (hf : s.dbg.frozen = false) (hb : s.bays[bayOf p].state = .active) (he : s.ports[p].cfg.enabled = true) (hm : s.planMode p ≠ 3)
    (ht : s.ports[p].retryAt ≤ s.clock) : Gives (.peerPresent p waves) s fun t =>
      t.ports[p].state = .training ∧ t.ports[p].step = 2 ∧ t.ports[p].stepT = s.clock ∧ t.ports[p].waves = waves := by
  obtain ⟨hdown, hcfg, hretry, hlit⟩ := s.lightSeen_port p waves
  have hmay : (s.lightSeen p waves).mayTrain p = true :=
    State.mayTrain_of_cleared hl hf (hdown.trans hs) hb (hcfg ▸ he) hm (by rw [hlit]; exact h4) (hretry ▸ ht)
  obtain ⟨hstate, hstep, hT, hwaves, -⟩ := (s.lightSeen p waves).startTraining_port p
  refine ⟨_, exec_peerPresent hl waves, ?_⟩
  rw [State.tryTrain_of_mayTrain hmay]
  exact ⟨hstate, hstep, hT, hwaves.trans hlit⟩

end

/-- Settles O50: when each row of lanes, rings and training acts, and what a lane, a step or a port whose conditions hold comes to. -/
theorem lanesAndTraining : Obligations.LanesAndTraining := by
  intro s p hl
  refine ⟨exec_laneFailure hl, ?tone, fun d lane t hu hs hc ht => exec_laneRecovery hl hu hs hc ht, ?standby, ?data, ?light, ?lit,
    fun d lane r hu hs hw => exec_ringLock_of_sweeps hl hu hs hw r, fun d lane r ht h2 hs => exec_ringLock_of_training hl ht h2 hs r,
    ?equalise, ?ident, exec_equaliseComplete hl, ?sequence, ?retrains, exec_trainTimeout hl, ?timeout, exec_peerRetrain hl, ?down,
    ?retry, exec_trainingRetry hl, fun r hs hr => exec_portDown hl hs hr, ?hot⟩
  case tone =>
    intro d lane hu hc hs
    refine ⟨?_, fun r hr => ?_⟩
    · rw [exec_toneRecheck hl hu hc hs, if_pos rfl]
    · rw [exec_toneRecheck hl hu hc hs, if_neg hr]
  case standby =>
    intro d lane cause hp hc hs
    rw [exec_laneFailure hl, State.failLane_of_standby hp hc hs]
  case data =>
    intro lane cause slot hp hrev hs hslot hr u waves v h4
    rw [exec_laneFailure hl]
    exact congrArg _ (State.failLane_of_rx_data hp hrev hs hslot hr h4)
  case light =>
    exact fun waves hs h4 hf hb he hm ht => State.gives_peerPresent hl hs h4 hf hb he hm ht
  case lit =>
    intro waves hs
    rw [exec_peerPresent hl, State.lightSeen_of_not_down hs]
  case equalise =>
    intro a b c ht h3 x n slow u hrx htx
    rw [exec_equaliseComplete hl ht h3]
    exact congrArg _ (State.equalised_of_trained hrx htx)
  case ident =>
    intro id idents rt ht h4 u hrx
    have hport := State.modPort_ports_same s p fun x => { x with peerStep := 4 }
    rw [exec_trainingSequence_of_training hl ht (by decide) (by decide)]
    exact congrArg _ (State.trainOn_of_identified (by rw [hport]; exact ht) (by rw [hport]; exact h4) (by rw [hport]) hrx 3)
  case sequence =>
    exact fun ht step id idents rt h1 h9 _ => exec_trainingSequence_of_training hl ht h1 h9 id idents rt
  case retrains =>
    exact fun hp step id idents rt h1 h9 => exec_trainingSequence_of_linked hl hp h1 h9 id idents rt
  case timeout =>
    intro ht hlate ha
    refine ⟨_, exec_trainTimeout hl ht hlate, ?_⟩
    have hports := s.bump_ports .fabPortTrainFail p.val s.ports[p].step 1
    simpa only [hports, State.bump_clock] using
      State.goDown_trainTimeout (s := s.bump .fabPortTrainFail p.val s.ports[p].step) (p := p) (by rw [hports]; exact ht) (by rw [hports]; exact ha)
  case down =>
    intro r hp hr ht hf ha waves bayLit u v
    have hout : s.ports[p].timeoutsAfter r = s.ports[p].timeouts := if_neg (by simp [ht, hf])
    have hfallen : s.fallen p r = (u.bump .fabPortDown p.val).bump .fabPortRxTruncated p.val 0 s.ports[p].asm.length := by
      simp only [State.fallen, hout]
      exact congrArg (fun t => (State.bump t .fabPortDown p.val).bump .fabPortRxTruncated p.val 0 s.ports[p].asm.length)
        (State.modPort_congr rfl)
    have hdown : s.goDown p r = (v.collPortDown p).tryTrain p := by rw [State.goDown_of_linked hp ha, hfallen]
    refine ⟨?_, fun hc => ?_⟩
    · rw [exec_portDown hl (Port.not_down_of_linked hp) hr, hdown]
    · rw [exec_peerRetrain hl hp, ← hc, hdown]
  case retry =>
    intro hr hm
    refine ⟨_, exec_trainingRetry hl hr, ?_⟩
    rw [State.tryTrain_of_mayTrain hm]
    obtain ⟨hstate, hstep, hT, -⟩ := s.startTraining_port p
    exact ⟨hstate, hstep, hT⟩
  case hot =>
    intro e ht
    refine ⟨exec_opticalRetrainStep hl ht, fun q h hq => ?_, fun q h hc hq => ?_, fun h hc => ?_⟩
    · rw [exec_opticalRetrainStep hl ht, State.opticalStep_of_hot h hq, State.setHot, Bool.bne_true]
      rfl
    · rw [exec_opticalRetrainStep hl ht, State.opticalStep_of_cool h hc hq, State.setHot, Bool.bne_false]
      rfl
    · rw [exec_opticalRetrainStep hl ht, State.opticalStep_of_neither h hc]
      rfl

end Sys2Proof.Machine
end

section
/-! SUPPORT. Proofs of spec/00_scope.md and spec/16_control_protocol.md: the step of the front command, the invariant at reset,
and what a request leaves that is dropped, refused, answered from the cache or only reads. -/

-- Proofs are checked as they come: checked beside the rest, they hold their memory until the whole text is.
set_option Elab.async false

namespace Sys2Proof.Machine

/-- Settles O1: the queue's front is taken by the definition of a step. -/
theorem stepRunsFrontCommand : Obligations.StepRunsFrontCommand := fun _ _ _ => rfl

/-- Settles O4: memory and queue are empty at reset, and no fuse is blown. -/
theorem invariantAtReset : Obligations.InvariantAtReset := ⟨Memory.wf_reset, rfl, Nat.zero_le 64⟩

/-! ## Requests that reach no execution (R433, R442, R443, R449) -/

section
variable {s : State} {r : ZcpReq} {u : Use} {body : State → Ans}

theorem State.zcpStep_of_unreached (h : s.live = false ∨ s.accepts r.src = false) : s.zcpStep r u body = s := by
  rw [State.zcpStep, if_pos]
  rcases h with h | h <;> simp [h]

theorem State.zcpStep_of_filtered (hl : s.live = true) (ha : s.accepts r.src = true)
    (hf : filterAllows s.zcp.filter r.src = false) : s.zcpStep r u body = s.bump .zcpFiltered := by
  simp [State.zcpStep, hl, ha, hf]

theorem State.zcpStep_of_cached {e : ReplayEntry} (hl : s.live = true) (ha : s.accepts r.src = true)
    (hf : filterAllows s.zcp.filter r.src = true) (hh : s.zcp.inHand r.src r.seq = none)
    (hc : s.zcp.cached r.src r.seq = some e) :
    s.zcpStep r u body = s.answerDuplicate r.src e r.maxReply r.rfrag := by
  simp [State.zcpStep, hl, ha, hf, hh, hc]

/-- A request in hand that waits to start, or that completes later, is answered IN_PROGRESS. -/
theorem State.zcpStep_of_inProgress {w : Waiting} (hl : s.live = true) (ha : s.accepts r.src = true)
    (hf : filterAllows s.zcp.filter r.src = true) (hh : s.zcp.inHand r.src r.seq = some w)
    (hw : w.later = true ∨ w.started = none) :
    s.zcpStep r u body =
      ((s.bump .zcpReplayDuplicates).touchSource r.src).sendReply r.src (w.head .inProgress [] 0) r.maxReply 0 [] := by
  have hrun : (w.started.isSome && w.op.toNat == u.op && !w.later) = false := by
    rcases hw with hw | hw <;> simp [hw]
  simp [State.zcpStep, hl, ha, hf, hh, hrun]

end

/-- Settles O19: a request that is not let through is counted, and one that does not arrive meets nothing. -/
theorem filteredRequestsAreDropped : Obligations.FilteredRequestsAreDropped := by
  intro c z s hz
  obtain ⟨u, body, hexec, -⟩ := exec_zcp c z s hz
  refine ⟨fun hl ha hf => ?_, fun h => ?_⟩
  · rw [State.zcpStep_of_filtered hl ha hf] at hexec
    exact hexec (SameBut.bump _ _ _ _ _)
  · rw [State.zcpStep_of_unreached h] at hexec
    exact hexec (SameBut.refl s)

/-- Settles O18: a kept reply is sent again, and a request that still executes is answered IN_PROGRESS. -/
theorem duplicatesAreNotExecuted : Obligations.DuplicatesAreNotExecuted := by
  intro c z s hz hl ha hf
  obtain ⟨u, body, hexec, -⟩ := exec_zcp c z s hz
  refine ⟨fun e hh hc => ?_, fun w hh hw => ?_⟩
  · have hsame := SameBut.answerDuplicate s z.req.src e z.req.maxReply z.req.rfrag
    rw [State.zcpStep_of_cached hl ha hf hh hc] at hexec
    exact ⟨hexec hsame, hsame⟩
  · rw [State.zcpStep_of_inProgress hl ha hf hh hw] at hexec
    exact hexec (((SameBut.bump _ _ _ _ _).trans (SameBut.touch _ _)).trans (SameBut.sendReply _ _ _ _ _ _))

/-! ## Commands that only read (R433, R450) -/

/-- A command whose meaning is the shared step, that does not change and whose body answers with the state that it reads. -/
theorem SameBut.of_reads {c : Instr} {s t : State} {r : ZcpReq} {u : Use} {body : State → Ans} (ht : exec c s = .next t)
    (hc : exec c s = .next (s.zcpStep r u body)) (hu : u.change = false) (hbad : u.bad ≠ some .success)
    (hb : ∀ s, (body s).same s) : SameBut s t := by
  obtain rfl : s.zcpStep r u body = t := Host.Outcome.next.inj (hc.symm.trans ht)
  exact SameBut.zcpStep s r u body hu hbad hb

theorem reservedIf_ne_success (c : Prop) [Decidable c] : (if c then some Status.reservedValue else none) ≠ some .success := by
  split <;> simp

theorem Ans.same_ite {s : State} {c : Prop} [Decidable c] {a b : Ans} (ha : a.same s) (hb : b.same s) :
    (if c then a else b).same s := by
  split <;> assumption

theorem Ans.same_jobCmd {s : State} {id : BitVec 12} {f : Job → Ans} (hf : ∀ j, (f j).same s) : (s.jobCmd id f).same s := by
  unfold State.jobCmd
  split
  · exact SameBut.refl s
  · exact hf _

/-- Settles O16: every body of a read answers with the state that it was given. -/
theorem readCommandsChangeNothing : Obligations.ReadCommandsChangeNothing := by
  intro c s t hc ht
  cases c
  -- these look up a record, which may be missing
  case mapRead r job addr =>
    refine SameBut.of_reads ht rfl rfl (by simp) fun s => ?_
    split
    · exact SameBut.refl s
    · refine Ans.same_ite (SameBut.refl s) ?_
      split <;> exact SameBut.refl s
  case qpQuery | groupRead | counterCatalogue =>
    refine SameBut.of_reads ht rfl rfl (by simp) fun s => ?_
    split <;> exact SameBut.refl s
  case jobStatus =>
    exact SameBut.of_reads ht rfl rfl (by simp) fun s => Ans.same_ite (SameBut.refl s) (Ans.same_jobCmd fun _ => SameBut.refl s)
  -- these refuse a range or an index
  case capRead | collStatus =>
    exact SameBut.of_reads ht rfl rfl (by simp) fun s =>
      Ans.same_ite (SameBut.refl s) (Ans.same_ite (SameBut.refl s) (SameBut.refl s))
  case ping | eventRead | routeRead | cartLedgerRead =>
    exact SameBut.of_reads ht rfl rfl (by simp) fun s => Ans.same_ite (SameBut.refl s) (SameBut.refl s)
  case windowRead | thermalStatus =>
    exact SameBut.of_reads ht rfl rfl (reservedIf_ne_success _) fun s => SameBut.refl s
  case deviceInfo | hostStatus | sourceFilterRead | memStatus | planRead | portStatus | fabricCongRead | cartStatus | ppeStatus |
      powerStatus | timeRead | flagRead | certRead | measureRead | fwStatus =>
    exact SameBut.of_reads ht rfl rfl (by simp) fun s => SameBut.refl s
  all_goals cases hc

/-! ## Changes that the lock or the module's state bars (R448, R450, R548) -/

/-- A request that is heard executes its command's body on the state s₀. -/
theorem ZcpRow.Heard.step {z : ZcpRow} {s s₀ : State} {w : Waiting} (h : z.Heard s s₀ w) {u : Use} (hop : u.op = z.op)
    (ht : u.target = z.target) (body : State → Ans) :
    ∃ s₁ : State, s₀ = s₁.dropLock ∧ s.zcpStep z.req u body = s₁.runZcp w u z.req body := by
  rcases h.taken with ⟨hh, hc, htakes, hw, hs⟩ | ⟨hh, hstart, hwop, hlater, hs⟩
  · have hreq : requestInHand z.req u s.clock = w := by
      rw [hw]; simp [requestInHand, ZcpRow.inHand, hop, ht]
    rw [← hw] at htakes
    exact ⟨_, hs, by simp [State.zcpStep, h.live, h.reaches, h.passes, hh, hc, hreq, htakes]⟩
  · exact ⟨_, hs, by simp [State.zcpStep, h.live, h.reaches, h.passes, hh, hstart, hwop, hlater, hop]⟩

/-- What a command is refused for before its own conditions (R436, R448, R450). -/
def State.firstRefusal (s : State) (r : ZcpReq) (u : Use) : Option Ans :=
  (s.refusal r u).orElse fun _ => s.stateRefusal u

/-- A refusal counts in its command's counter of refusals. -/
def Use.counted (u : Use) (s : State) : State :=
  match u.count with
  | some (c, k) => s.bump c k
  | none => s

/-- The items of a refusal: the parameter that it names, or its own bytes (R451). -/
def refusalItems (p : Option Nat) (i : List Byte) : List Byte :=
  match p with
  | some k => items [leBytes 2 k]
  | none => if i.isEmpty then [] else items [i]

theorem SameBut.counted (u : Use) (s : State) : SameBut s (u.counted s) := by
  unfold Use.counted
  split
  · exact SameBut.bump _ _ _ _ _
  · exact SameBut.refl s

/-- A request that is refused before its command's own conditions is answered so. -/
theorem ZcpRow.Heard.refused {z : ZcpRow} {s s₀ t : State} {w : Waiting} (h : z.Heard s s₀ w) {u : Use} (hop : u.op = z.op)
    (ht : u.target = z.target) (body : State → Ans) {st : Status} {p : Option Nat} {i : List Byte}
    (hr : s₀.firstRefusal z.req u = some (.err t st p i)) :
    s.zcpStep z.req u body = (u.counted t).reply w u.change st (refusalItems p i) := by
  obtain ⟨s₁, rfl, hs⟩ := h.step hop ht body
  rw [hs, State.runZcp]
  rw [State.firstRefusal] at hr
  simp only [hr, Option.getD_some]
  rfl

/-- A control processor hears a request with the module's state and the lock, if its lease runs, as they are. -/
theorem ZcpRow.Heard.keeps {z : ZcpRow} {s s₀ : State} {w : Waiting} (h : z.Heard s s₀ w) :
    s₀.zcp.lock = (s.zcp.lock.filter fun l => decide (s.clock < l.2)) ∧ s₀.boot = s.boot ∧ s₀.dbg = s.dbg := by
  obtain ⟨y, o, c, i, he⟩ := (sameBut_iff _ _).mp h.sameBut
  refine ⟨?_, by rw [he], by rw [he]⟩
  rcases h.taken with ⟨-, -, -, -, rfl⟩ | ⟨-, -, -, -, rfl⟩ <;> exact State.dropLock_lock _

/-- A barred change meets a refusal. -/
theorem ZcpRow.Heard.firstRefusal_of_barred {z : ZcpRow} {s s₀ : State} {w : Waiting} (h : z.Heard s s₀ w) {u : Use}
    (hu : z.Says u) (hb : z.barred s = true) : ∃ a, s₀.firstRefusal z.req u = some a := by
  obtain ⟨hlock, hboot, hdbg⟩ := h.keeps
  cases hr : s₀.refusal z.req u with
  | some a => exact ⟨a, by rw [State.firstRefusal, hr]; rfl⟩
  | none =>
    have hchange : u.change = true := by
      rw [hu.change]; simp only [ZcpRow.barred, Bool.and_eq_true] at hb; exact hb.1
    -- no refusal means that the lock lets the command run, so that the module's state bars it
    have hstate : (!s.boot.ready && !u.early || s.dbg.frozen && !u.frozen) = true := by
      simp only [ZcpRow.barred, Bool.and_eq_true, Bool.or_assoc, Bool.or_eq_true, ← hu.early, ← hu.frozen, ← hu.free] at hb ⊢
      rcases hb.2 with hl | hs
      · exfalso
        revert hr
        simp only [State.refusal, hlock, hchange]
        split
        · simp
        · split
          · simp
          · cases hl' : s.zcp.lock with
            | none => simp [hl'] at hl
            | some l =>
              simp only [hl', Option.map_some, Option.getD_some, Bool.and_eq_true, bne_iff_ne, decide_eq_true_eq,
                Bool.not_eq_true'] at hl
              simp [Option.filter, hl.1.1, hl.1.2, hl.2]
      · exact hs
    simp only [State.firstRefusal, hr, State.stateRefusal, hchange, hboot, hdbg, Option.orElse_none, Bool.not_true,
      Bool.false_eq_true, if_false]
    by_cases h1 : (!s.boot.ready && !u.early) = true
    · exact ⟨_, if_pos h1⟩
    · rw [Bool.not_eq_true] at h1
      rw [h1, Bool.false_or] at hstate
      exact ⟨_, (if_neg (by rw [h1]; decide)).trans (if_pos hstate)⟩

/-- A reply size that is not given is not refused (R439). -/
theorem ZcpReq.size_ok {r : ZcpReq} (h : r.ver2 = true → r.maxReply = 0) :
    (r.ver2 && decide (r.maxReply ≠ 0) && (decide (r.maxReply < 512) || decide (r.maxReply > 9000))) = false := by
  cases hv : r.ver2
  · rfl
  · simp [h hv]

/-- A request that names nothing reserved, of a source that the lock does not bar. -/
theorem State.refusal_eq_none {s : State} {r : ZcpReq} {u : Use} (hbad : u.bad = none) (hsize : r.ver2 = true → r.maxReply = 0)
    (hlock : s.zcp.lock.filter (fun l => l.1 != r.src) = none) : s.refusal r u = none := by
  simp only [State.refusal, hbad, ZcpReq.size_ok hsize]
  cases hl : s.zcp.lock with
  | none => simp
  | some l =>
    have : l.1 = r.src := by simpa [hl, Option.filter] using hlock
    simp [this]

/-- The lock of another source answers LOCKED with its holder, before anything else (R448, R548). -/
theorem State.firstRefusal_of_locked {s : State} {r : ZcpReq} {u : Use} {l : ZcpSrc × Nat} (hbad : u.bad = none)
    (hsize : r.ver2 = true → r.maxReply = 0) (hchange : u.change = true) (hfree : u.free = false)
    (hlock : s.zcp.lock.filter (fun l => l.1 != r.src) = some l) :
    s.firstRefusal r u = some (.err s .locked none (sourceBytes l.1)) := by
  obtain ⟨hl, hne⟩ := Option.filter_eq_some_iff.mp hlock
  have hne' : l.1 ≠ r.src := by simpa using hne
  simp only [State.firstRefusal, State.refusal, hbad, ZcpReq.size_ok hsize, hl, hchange, hfree]
  simp [hne']

theorem State.firstRefusal_of_notReady {s : State} {r : ZcpReq} {u : Use} (href : s.refusal r u = none) (hchange : u.change = true)
    (hearly : u.early = false) (hr : s.boot.ready = false) :
    s.firstRefusal r u = some (.err (s.bump .zcpRefused) .notReady) := by
  simp [State.firstRefusal, href, State.stateRefusal, hchange, hearly, hr]

/-- NOT_READY comes before FROZEN (R548). -/
theorem State.firstRefusal_of_frozen {s : State} {r : ZcpReq} {u : Use} (href : s.refusal r u = none) (hchange : u.change = true)
    (hready : s.boot.ready = true ∨ u.early = true) (hfrozen : u.frozen = false) (hf : s.dbg.frozen = true) :
    s.firstRefusal r u = some (.err (s.bump .zcpRefused) .frozen) := by
  have hearly : (!s.boot.ready && !u.early) = false := by rcases hready with h | h <;> simp [h]
  simp [State.firstRefusal, href, State.stateRefusal, hchange, hearly, hfrozen, hf]

theorem refusalItems_source (a : ZcpSrc) : refusalItems none (sourceBytes a) = items [sourceBytes a] := by
  cases a <;> rfl

/-- How WINDOW_CLOSE is used (R450). -/
def windowCloseUse (ix : Nat) : Use := { op := 0x0421, bad := if ix > 16383 then some .reservedValue else none }

/-- How PPE_CALIBRATE is used (R450). -/
def ppeCalibrateUse : Use := { op := 0x0513, early := true }

/-- Settles O17: a barred change meets a refusal before its own conditions, and the order of the refusals is that of R548. -/
theorem barredCommandsAreRefused : Obligations.BarredCommandsAreRefused := by
  refine ⟨fun c z s s₀ w hz h hb => ?barred, fun s s₀ r e z w hz h hsize he => ?close, fun s s₀ r z w hz h hsize hlock hf => ?calibrate⟩
  case barred =>
    obtain ⟨u, body, hexec, hu⟩ := exec_zcp c z s hz
    obtain ⟨a, ha⟩ := h.firstRefusal_of_barred hu hb
    obtain ⟨t, st, p, i, rfl, hst, ht⟩ := State.earlyRefusal s₀ z.req u a hu.bad ha
    have hchange : u.change = true := by
      rw [hu.change]; simp only [ZcpRow.barred, Bool.and_eq_true] at hb; exact hb.1
    have hstep := h.refused hu.op hu.target body ha
    rw [hchange] at hstep
    have hcounted : SameBut s (u.counted t) := h.sameBut.trans (ht.trans (SameBut.counted u t))
    rw [hstep] at hexec
    exact ⟨st, _, _, hst, hcounted, hexec (hcounted.trans (SameBut.reply _ _ _ _ _ (.inr hst)))⟩
  case close =>
    obtain rfl : _ = z := Option.some.inj hz
    have hbad : (windowCloseUse e).bad = none := if_neg (Nat.not_lt.mpr he)
    obtain ⟨-, hboot, hdbg⟩ := h.keeps
    refine ⟨fun l hl => ?_, fun hl hr => ?_, fun hl hr hf => ?_⟩
    · refine (congrArg _ (h.refused rfl rfl _ (State.firstRefusal_of_locked hbad hsize rfl rfl hl))).trans ?_
      rw [refusalItems_source]
      rfl
    · exact congrArg _ (h.refused rfl rfl _
        (State.firstRefusal_of_notReady (State.refusal_eq_none hbad hsize hl) rfl rfl (hboot ▸ hr)))
    · exact congrArg _ (h.refused rfl rfl _
        (State.firstRefusal_of_frozen (State.refusal_eq_none hbad hsize hl) rfl (.inl (hboot ▸ hr)) rfl (hdbg ▸ hf)))
  case calibrate =>
    obtain rfl : _ = z := Option.some.inj hz
    obtain ⟨hl, -, hdbg⟩ := h.keeps
    have hfree : s₀.zcp.lock.filter (fun l => l.1 != r.src) = none := by rw [hl, hlock]; rfl
    exact congrArg _ (h.refused (u := ppeCalibrateUse) rfl rfl _
      (State.firstRefusal_of_frozen (State.refusal_eq_none rfl hsize hfree) rfl (.inr rfl) rfl (hdbg ▸ hf)))

end Sys2Proof.Machine
end

section
/-! SUPPORT. Invariant (O5, O8). The Keeps relation: what every command but READY keeps (canonical memory, the queue, the fuses), and how it composes. -/

-- Proofs are checked as they come: checked beside the rest, they hold their memory until the whole text is.
set_option Elab.async false

namespace Sys2Proof.Machine

/-- What every command but READY keeps, from the state s to the state t: memory's canonical form, the queue, and the fuses
(R470). -/
def Keeps (s t : State) : Prop :=
  (Memory.wf s.mem = true → Memory.wf t.mem = true) ∧ t.pending = s.pending ∧ t.flash.rollback = s.flash.rollback

/-- An outcome whose next state keeps what s holds. -/
def Out.Keeps (s : State) (o : Out) : Prop := ∀ t, o = .next t → Machine.Keeps s t

/-- An answer whose state keeps what s holds. -/
def Ans.Keeps (s : State) : Ans → Prop
  | .ok t _ => Machine.Keeps s t
  | .err t _ _ _ => Machine.Keeps s t
  | .later t => Machine.Keeps s t

/-- A decoded move whose state keeps what s holds. -/
def Decoded.Keeps (s : State) : Decoded → Prop
  | .refuse _ _ => True
  | .fault t _ => Machine.Keeps s t
  | .ok t _ _ => Machine.Keeps s t

section
variable {s t u : State} {α β : Type}

theorem Keeps.refl (s : State) : Keeps s s := ⟨id, rfl, rfl⟩

theorem Keeps.trans (h₁ : Keeps s t) (h₂ : Keeps t u) : Keeps s u :=
  ⟨h₂.1 ∘ h₁.1, h₂.2.1.trans h₁.2.1, h₂.2.2.trans h₁.2.2⟩

/-- A state that differs elsewhere keeps the same. -/
theorem Keeps.same (hm : u.mem = t.mem) (hp : u.pending = t.pending) (hf : u.flash.rollback = t.flash.rollback)
    (h : Keeps s t) : Keeps s u :=
  ⟨fun hw => hm ▸ h.1 hw, hp.trans h.2.1, hf.trans h.2.2⟩

theorem Keeps.ite {c : Prop} [Decidable c] {a b : State} (ha : Keeps s a) (hb : Keeps s b) : Keeps s (if c then a else b) := by
  split <;> assumption

theorem Keeps.dite {c : Prop} [Decidable c] {a : c → State} {b : ¬c → State} (ha : ∀ h, Keeps s (a h)) (hb : ∀ h, Keeps s (b h)) :
    Keeps s (if h : c then a h else b h) := by
  split
  · exact ha _
  · exact hb _

theorem Keeps.ite_fst {c : Prop} [Decidable c] {a b : State × β} (ha : Keeps s a.1) (hb : Keeps s b.1) :
    Keeps s (if c then a else b).1 := by
  split <;> assumption

theorem Keeps.ite_snd {c : Prop} [Decidable c] {a b : β × State} (ha : Keeps s a.2) (hb : Keeps s b.2) :
    Keeps s (if c then a else b).2 := by
  split <;> assumption

theorem Keeps.foldl {f : State → α → State} {l : List α} (hf : ∀ u x, Keeps s u → Keeps s (f u x)) (h : Keeps s t) :
    Keeps s (l.foldl f t) := by
  induction l generalizing t with
  | nil => exact h
  | cons x l ih => exact ih (hf t x h)

/-- A fold that carries a state and something else. -/
theorem Keeps.foldl_fst {f : State × β → α → State × β} {l : List α} {p : State × β}
    (hf : ∀ q x, Keeps s q.1 → Keeps s (f q x).1) (h : Keeps s p.1) : Keeps s (l.foldl f p).1 := by
  induction l generalizing p with
  | nil => exact h
  | cons x l ih => exact ih (hf p x h)

/-- The state that a pair is taken apart into. -/
theorem Keeps.fst {p : State × β} {b : β} (e : p = (t, b)) (h : Keeps s p.1) : Keeps s t := by rw [e] at h; exact h

theorem Keeps.snd {p : β × State} {b : β} (e : p = (b, t)) (h : Keeps s p.2) : Keeps s t := by rw [e] at h; exact h

theorem Out.Keeps.next (h : Machine.Keeps s t) : Out.Keeps s (.next t) := fun _ e => Host.Outcome.next.inj e ▸ h

theorem Out.Keeps.ite {c : Prop} [Decidable c] {a b : Out} (ha : Out.Keeps s a) (hb : Out.Keeps s b) :
    Out.Keeps s (if c then a else b) := by
  split <;> assumption

theorem Out.Keeps.when_ {c : Bool} {f : State → State} (h : Machine.Keeps s t) (hf : Machine.Keeps s (f t)) :
    Out.Keeps s (when_ t c f) := .next (.ite hf h)

theorem Ans.Keeps.ite {c : Prop} [Decidable c] {a b : Ans} (ha : a.Keeps s) (hb : b.Keeps s) : (if c then a else b).Keeps s := by
  split <;> assumption

theorem Decoded.Keeps.ite {c : Prop} [Decidable c] {a b : Decoded} (ha : a.Keeps s) (hb : b.Keeps s) :
    (if c then a else b).Keeps s := by
  split <;> assumption

end

section
variable {s t : State}

/-! ## Memory -/

theorem Keeps.write {a : Nat} {b : Byte} (h : Keeps s t) : Keeps s { t with mem := Memory.write t.mem a b } :=
  ⟨fun hw => Memory.wf_write (h.1 hw) _ _, h.2⟩

theorem Keeps.writeN {a : Nat} {bs : List Byte} (h : Keeps s t) : Keeps s { t with mem := Memory.writeN t.mem a bs } :=
  ⟨fun hw => Memory.wf_writeN (h.1 hw) _ _, h.2⟩

theorem Keeps.zero {a n : Nat} (h : Keeps s t) : Keeps s { t with mem := Memory.zero t.mem a n } :=
  ⟨fun hw => Memory.wf_zero (h.1 hw) _ _, h.2⟩

theorem Memory.wf_foldl {α : Type} {f : List Host.Cell → α → List Host.Cell} {l : List α} {m : List Host.Cell}
    (hf : ∀ m x, Memory.wf m = true → Memory.wf (f m x) = true) (h : Memory.wf m = true) : Memory.wf (l.foldl f m) = true := by
  induction l generalizing m with
  | nil => exact h
  | cons x l ih => exact ih (hf m x h)

theorem Keeps.mem {m : List Host.Cell} (hm : Memory.wf t.mem = true → Memory.wf m = true) (h : Keeps s t) :
    Keeps s { t with mem := m } :=
  ⟨fun hw => hm (h.1 hw), h.2⟩

/-! ## Operations that touch none of it -/

theorem Keeps.freeBytes {n} (h : Keeps s t) : Keeps s (t.freeBytes n).2 := h

theorem Keeps.discardRecords {j ms} (h : Keeps s t) : Keeps s (t.discardRecords j ms) := h

theorem Keeps.setTile {n x} (h : Keeps s t) : Keeps s (t.setTile n x) := h

theorem Keeps.modTile {n f} (h : Keeps s t) : Keeps s (t.modTile n f) := h

theorem Keeps.modJob {j f} (h : Keeps s t) : Keeps s (t.modJob j f) := h

theorem Keeps.modPeriod {j f} (h : Keeps s t) : Keeps s (t.modPeriod j f) := h

theorem Keeps.modPort {p f} (h : Keeps s t) : Keeps s (t.modPort p f) := h

theorem Keeps.modFab {f} (h : Keeps s t) : Keeps s (t.modFab f) := h

theorem Keeps.sendCredit {p} (h : Keeps s t) : Keeps s (t.sendCredit p) := h

theorem Keeps.sendControl {p bs} (h : Keeps s t) : Keeps s (t.sendControl p bs) := h

theorem Keeps.sample {c i j a b} (h : Keeps s t) : Keeps s (t.sample c i j a b) := h

theorem Keeps.schedule {p a b c d} (h : Keeps s t) : Keeps s (t.schedule p a b c d) := h

theorem Keeps.buildMaps {p} (h : Keeps s t) : Keeps s (t.buildMaps p) := h

theorem Keeps.startCredits {p} (h : Keeps s t) : Keeps s (t.startCredits p) := h

theorem Keeps.after {o : Out} (ho : o.Keeps s) (h : Keeps s t) : Keeps s (after o t) := by
  unfold Machine.after
  split
  · exact ho _ rfl
  · exact h

end
end Sys2Proof.Machine
end

section
/-! SUPPORT. Invariant (O5, O8). What the operations of Ops.lean and Messages.lean keep. -/

-- Proofs are checked as they come: checked beside the rest, they hold their memory until the whole text is.
set_option Elab.async false

namespace Sys2Proof.Machine
section
variable {s t u : State}

theorem Keeps.bump {id i j n} (h : Keeps s t) : Keeps s (t.bump id i j n) :=
  .ite h h

theorem Keeps.sendListener {l bs} (h : Keeps s t) : Keeps s (t.sendListener l bs) := by
  unfold State.sendListener
  split <;> exact h

theorem Keeps.event {code target data at_} (h : Keeps s t) : Keeps s (t.event code target data at_) :=
  .bump (.foldl (fun _ _ h₁ => .sendListener h₁) h)

theorem Keeps.setFlag {f kind index} (h : Keeps s t) : Keeps s (t.setFlag f kind index) :=
  .ite (.event h) h

theorem Keeps.activate {m line} (h : Keeps s t) : Keeps s (t.activate m line) :=
  .ite h (.ite (.bump h) h)

theorem Keeps.upset {errs} (h : Keeps s t) : Keeps s (t.upset errs) := by
  unfold State.upset
  refine .foldl (fun _ _ h₁ => ?_) h
  split
  · exact .ite h₁ h₁
  · exact h₁

theorem Keeps.uncorrectable {m line counts} (h : Keeps s t) : Keeps s (t.uncorrectable m line counts) :=
  .ite (.setFlag (.bump h)) (.bump h)

theorem Keeps.dramRead {m line} (h : Keeps s t) : Keeps s (t.dramRead m line).1 :=
  .ite_fst (.bump (.activate h)) (.ite_fst (.activate h) (.ite_fst (.bump (.activate h)) (.ite_fst (.uncorrectable
    (.activate h)) (.ite_fst (.writeN (.activate h)) (.uncorrectable (.activate h))))))

theorem Keeps.flushEntry {m e cause} (h : Keeps s t) : Keeps s (t.flushEntry m e cause) := by
  unfold State.flushEntry
  have h₁ : Keeps s ((t.bump cause m.val).bump .memWcbRmw m.val) := .bump (.bump h)
  refine .ite (.ite (.activate (.bump h)) (.activate (.bump h))) ?_
  refine .ite (.bump (.ite (.dramRead h₁) (.dramRead h₁))) ?_
  exact .mem (Memory.wf_foldl fun _ _ hm => Memory.wf_write hm _ _) (.dramRead h₁)

theorem Keeps.flushWhere {m p cause} (h : Keeps s t) : Keeps s (t.flushWhere m p cause) :=
  .foldl (fun _ _ h₁ => .flushEntry h₁) h

theorem Keeps.writeLine {m a bs bad} (h : Keeps s t) : Keeps s (t.writeLine m a bs bad) := by
  unfold State.writeLine
  refine .ite (.bump h) ?_
  extract_lets +onlyGivenNames t₁ mask t₂ x₁ t₃ x₂ t₄ t₅
  have h₂ : Keeps s t₂ := .writeN (.bump h)
  have h₃ : Keeps s t₃ := by
    unfold t₃
    split
    · exact .ite (.flushEntry h₂) h₂
    · exact h₂
  have h₄ : Keeps s t₄ := by
    unfold t₄
    split
    · exact .bump h₂
    · exact h₃
  have h₅ : Keeps s t₅ := by
    unfold t₅
    split
    · exact .flushEntry h₄
    · exact h₄
  exact .ite h₅ h₅

theorem Keeps.writeSram {a bs bad} (h : Keeps s t) : Keeps s (t.writeSram a bs bad) :=
  .writeN h

theorem Keeps.writePhys {a bs bad} (h : Keeps s t) : Keeps s (t.writePhys a bs bad) := by
  unfold State.writePhys
  split
  · exact .foldl (fun _ _ h₁ => .writeLine h₁) h
  · exact .ite (.writeSram h) h

theorem Keeps.checkLine {m a n} (h : Keeps s t) : Keeps s (t.checkLine m a n).1 :=
  .ite_fst h (.ite_fst (.ite_fst h (.dramRead h)) (.bump (.bump (.ite_fst h (.dramRead h)))))

theorem Keeps.checkRead {a n} (h : Keeps s t) : Keeps s (t.checkRead a n).1 := by
  unfold State.checkRead
  split
  · exact .foldl_fst (fun _ _ h₁ => .ite_fst h₁ (.checkLine h₁)) h
  · exact .ite_fst h h

theorem Keeps.addTally {t' tal n} (h : Keeps s t) : Keeps s (t.addTally t' tal n) :=
  .bump (.bump h)

theorem Keeps.setTally {t' tal v} (h : Keeps s t) : Keeps s (t.setTally t' tal v) :=
  .ite h h

theorem Keeps.arrive {j t' tal n} (h : Keeps s t) : Keeps s (t.arrive j t' tal n) := by
  unfold State.arrive
  split
  · exact h
  · exact .ite (.addTally h) h

theorem Keeps.takeSnapshot (h : Keeps s t) : Keeps s t.takeSnapshot :=
  .bump h

theorem Keeps.flushAll (h : Keeps s t) : Keeps s t.flushAll :=
  .foldl (fun _ _ h₁ => .flushWhere h₁) h

theorem Keeps.sendFreezeFlit {p f go} (h : Keeps s t) : Keeps s (t.sendFreezeFlit p f go) :=
  .ite h (.ite h (.bump h))

theorem Keeps.spreadFreeze {c tag no origin} (h : Keeps s t) : Keeps s (t.spreadFreeze c tag no origin) := by
  unfold State.spreadFreeze
  split
  · exact .foldl (fun _ _ h₁ => .sendFreezeFlit h₁) h
  · exact .ite h (.foldl (fun _ _ h₁ => .ite h₁ (.sendFreezeFlit h₁)) h)

theorem Keeps.freeze {c tag origin} (h : Keeps s t) : Keeps s (t.freeze c tag origin) :=
  .ite (.bump h) (.ite (.bump (.event (.takeSnapshot (.flushAll (.spreadFreeze (.setFlag (.bump h))))))) (.event
    (.takeSnapshot (.flushAll (.spreadFreeze (.setFlag (.bump h)))))))

theorem Keeps.fault {r} (h : Keeps s t) : Keeps s (t.fault r) := by
  unfold State.fault
  extract_lets +onlyGivenNames r₁ t₁ t₂ t₃ r₂ t₄
  have h₂ : Keeps s t₂ := by
    unfold t₂
    split
    · exact .bump h
    · exact .bump h
    · exact .bump h
    · exact h
  have h₃ : Keeps s t₃ := .ite h₂ h₂
  have h₄ : Keeps s t₄ := .ite (.setFlag (.bump h₃)) (.event h₃)
  split
  · exact .ite (.freeze h₄) h₄
  · exact h₄

theorem Keeps.walkFrom {j v f level table ps n} (h : Keeps s t) : Keeps s (t.walkFrom j v f level table ps n).1 := by
  induction f generalizing t level table ps n with
  | zero => exact h
  | succ f ih =>
    unfold State.walkFrom
    extract_lets ix a
    split
    · next _ u _ e => exact .fst e (.checkRead h)
    · next _ u e =>
      have h₁ : Keeps s u := .fst e (.checkRead h)
      dsimp only
      split
      · exact h₁
      · exact .ite_fst h₁ (ih h₁)

theorem Keeps.walk {u j v} (h : Keeps s t) : Keeps s (t.walk u j v).1 := by
  unfold State.walk
  refine .ite_fst h ?_
  split
  · exact .walkFrom h
  · split <;> exact .walkFrom h

theorem Keeps.doWalk {u j v} (h : Keeps s t) : Keeps s (t.doWalk u j v).1 := by
  conv => enter [2, 1]; fun; fun; fun; fun; delta State.doWalk
  split
  next _ u₁ _ _ _ e₁ =>
    have h₁ : Keeps s u₁ := .fst e₁ (.walk h)
    dsimp only
    split
    · exact .bump (.bump h₁)
    · exact .ite (.bump (.bump (.bump h₁))) (.bump (.bump h₁))

/-- The definition is opened at its constant alone: the kernel would otherwise run the walk to see that nothing else changed. -/
theorem Keeps.translate {u j v write} (h : Keeps s t) : Keeps s (t.translate u j v write).1 := by
  have h₁ : Keeps s ((t.bump .xlatMisses u.val).doWalk u j v).1 := .doWalk (.bump h)
  conv => enter [2, 1]; fun; fun; fun; fun; fun; delta State.translate
  cases t.xlat[u].cache.find? fun e => e.job == j.id && e.page == v / 2 ^ e.size with
  | some e => exact .bump h
  | none =>
    generalize (t.bump .xlatMisses u.val).doWalk u j v = p at h₁ ⊢
    obtain ⟨u₁, r⟩ := p
    cases r <;> exact h₁

theorem Keeps.ringBytes {d a n write} (h : Keeps s t) : Keeps s (t.ringBytes d a n write) := by
  unfold State.ringBytes
  split
  · exact h
  · exact .ite h (.foldl (fun _ _ h₁ => .foldl (fun _ _ h₂ => .bump h₂) h₁) h)

theorem Keeps.readJob {u j v n ring} (h : Keeps s t) : Keeps s (t.readJob u j v n ring).1 := by
  refine .foldl_fst (fun _ _ h₁ => ?_) h
  split
  · exact h₁
  · split
    next u₂ _ e₂ =>
      have h₂ : Keeps s u₂ := .fst e₂ (.translate h₁)
      split
      · exact h₂
      · split
        next u₃ _ e₃ =>
          have h₃ : Keeps s u₃ := .fst e₃ (.checkRead h₂)
          split
          · exact h₃
          · exact .ite (.ringBytes h₃) h₃

theorem Keeps.mapWrite {u j v n} (h : Keeps s t) : Keeps s (t.mapWrite u j v n).1 := by
  refine .foldl_fst (fun _ _ h₁ => ?_) h
  split
  · exact h₁
  · split
    next u _ e =>
      have h₂ : Keeps s u := .fst e (.translate h₁)
      split <;> exact h₂

theorem Keeps.writeJob {u j v bs bad ring} (h : Keeps s t) : Keeps s (t.writeJob u j v bs bad ring).1 := by
  unfold State.writeJob
  dsimp only
  split
  · exact .mapWrite h
  · exact .foldl (fun _ _ h₁ => .ite (.ringBytes (.writePhys h₁)) (.writePhys h₁)) (.mapWrite h)

theorem Keeps.blurJob {u j v n} (h : Keeps s t) : Keeps s (t.blurJob u j v n) := by
  unfold State.blurJob
  split
  · exact h
  · exact .mem (Memory.wf_foldl fun _ _ hm => Memory.wf_writeN hm _ _) h

theorem Keeps.sendLow {dst} (h : Keeps s t) : Keeps s (t.sendLow dst) :=
  .bump h

theorem Keeps.modColl {f} (h : Keeps s t) : Keeps s (t.modColl f) := h

theorem Keeps.modCtx {g q f} (h : Keeps s t) : Keeps s (t.modCtx g q f) :=
  .modColl h

theorem Keeps.modBook {p f} (h : Keeps s t) : Keeps s (t.modBook p f) :=
  .modColl h

theorem Keeps.escRelease {c x} (h : Keeps s t) : Keeps s (t.escRelease c x) :=
  .ite h (.modCtx (.modBook h))

theorem Keeps.strayGrant {p key slots ordered} (h : Keeps s t) : Keeps s (t.strayGrant p key slots ordered) :=
  .modBook (.ite (.bump h) (.bump (.bump h)))

theorem Keeps.dropCtx {c} (h : Keeps s t) : Keeps s (t.dropCtx c) :=
  .modColl (.foldl (fun _ _ h₁ => .escRelease h₁) h)

theorem Keeps.dropJobCtxs {j} (h : Keeps s t) : Keeps s (t.dropJobCtxs j) :=
  .foldl (fun _ _ h₁ => .dropCtx h₁) h

end
end Sys2Proof.Machine
end

section
/-! SUPPORT. Invariant (O5, O8). What the photonic queue's, the sequencer's and the array's operations keep. -/

-- Proofs are checked as they come: checked beside the rest, they hold their memory until the whole text is.
set_option Elab.async false

namespace Sys2Proof.Machine
section
variable {s t u : State}

theorem Keeps.countLoad {t' l} (h : Keeps s t) : Keeps s (t.countLoad t' l) :=
  .bump (.bump h)

theorem Keeps.countScales {e lo hi} (h : Keeps s t) : Keeps s (t.countScales e lo hi) :=
  .ite (.bump (.bump h)) (.bump h)

theorem Keeps.countOut {e target} (h : Keeps s t) : Keeps s (t.countOut e target) :=
  .bump (.bump (.bump (.bump (.bump h))))

theorem Keeps.addBusy {t' r n} (h : Keeps s t) : Keeps s (t.addBusy t' r n) := by
  unfold State.addBusy
  split
  · exact .bump h
  · exact h

theorem Keeps.flushBusy {t' id} (h : Keeps s t) : Keeps s (t.flushBusy t' id) := by
  unfold State.flushBusy
  refine .ite h ?_
  split
  · exact h
  · exact .bump h

theorem Keeps.stopAttempt {t' r out read steps} (h : Keeps s t) : Keeps s (t.stopAttempt t' r out read steps) := by
  unfold State.stopAttempt
  refine .addBusy ?_
  split
  · exact .countOut (.countScales h)
  · exact h

theorem Keeps.stopOnRow {t' r p i} (h : Keeps s t) : Keeps s (t.stopOnRow t' r p i) :=
  .stopAttempt h

theorem Keeps.stopSomewhere {t' r p extra} (h : Keeps s t) : Keeps s (t.stopSomewhere t' r p extra) :=
  .stopAttempt h

theorem Keeps.modPpe {f} (h : Keeps s t) : Keeps s (t.modPpe f) := h

theorem Keeps.kickPpe {t'} (h : Keeps s t) : Keeps s (t.kickPpe t') := by
  unfold State.kickPpe
  refine .ite h ?_
  split
  · exact h
  · exact .foldl (fun u _ (h₁ : Keeps s u) => .ite (.same (t := u) rfl rfl rfl h₁) h₁) h

theorem Keeps.refillPpe (h : Keeps s t) : Keeps s t.refillPpe :=
  .foldl (fun _ _ h₁ => .kickPpe h₁) h

theorem Keeps.dropPpe {p} (h : Keeps s t) : Keeps s (t.dropPpe p) :=
  .refillPpe (.modPpe h)

theorem Keeps.leavePpe {job t' id} (h : Keeps s t) : Keeps s (t.leavePpe job t' id) :=
  .dropPpe h

theorem Keeps.cutRun {t' r} (h : Keeps s t) : Keeps s (t.cutRun t' r) := by
  unfold State.cutRun
  split
  · exact h
  · exact .stopSomewhere h

theorem Keeps.dropRuns {t' p} (h : Keeps s t) : Keeps s (t.dropRuns t' p) :=
  .foldl (fun _ _ h₁ => .flushBusy h₁) (.foldl (fun _ _ h₁ => .cutRun h₁) h)

theorem Keeps.abandonRun {t' r attempt} (h : Keeps s t) : Keeps s (t.abandonRun t' r attempt) :=
  .flushBusy (.bump h)

theorem Keeps.abandonRuns {t'} (h : Keeps s t) : Keeps s (t.abandonRuns t') := by
  unfold State.abandonRuns
  refine .foldl (fun _ _ h₁ => ?_) h
  split
  · exact .ite h₁ (.abandonRun (.cutRun h₁))
  · exact h₁

theorem Keeps.askPreempt {k urgent} (h : Keeps s t) : Keeps s (t.askPreempt k urgent) :=
  .ite h (.ite (.foldl (fun _ _ h₁ => .ite (.abandonRuns h₁) h₁) (.bump (.bump h))) (.bump (.bump h)))

theorem Keeps.beginJob {j} (h : Keeps s t) : Keeps s (t.beginJob j) :=
  .foldl (fun _ _ h₁ => h₁) h

theorem Keeps.takeTiles {j} (h : Keeps s t) : Keeps s (t.takeTiles j) :=
  .ite (.beginJob h) h

theorem Keeps.tryJob {id} (h : Keeps s t) : Keeps s (t.tryJob id) := by
  unfold State.tryJob
  split
  · exact h
  · exact .ite h (.ite (.takeTiles h) (.foldl (fun _ _ h₁ => .askPreempt h₁) h))

theorem Keeps.scheduleJobs (h : Keeps s t) : Keeps s t.scheduleJobs :=
  .foldl (fun _ _ h₁ => .foldl (fun _ _ h₂ => .tryJob h₂) h₁) h

theorem Keeps.jobDoneEvent {j code stopped st} (h : Keeps s t) : Keeps s (t.jobDoneEvent j code stopped st) :=
  .event h

theorem Keeps.checkDone {j} (h : Keeps s t) : Keeps s (t.checkDone j) := by
  unfold State.checkDone
  split
  · exact h
  · exact .ite (.scheduleJobs (.jobDoneEvent h)) h

theorem Keeps.endJob {j st} (h : Keeps s t) : Keeps s (t.endJob j st) := by
  unfold State.endJob
  split
  · exact h
  · exact .ite h (.refillPpe (.scheduleJobs (.jobDoneEvent (.dropJobCtxs (.modPpe (.foldl (fun _ _ h₁ => .ite
      (.dropRuns h₁) h₁) h))))))

theorem Keeps.stopTile {t' f} (h : Keeps s t) : Keeps s (t.stopTile t' f) :=
  .ite (.endJob (.fault (.bump h))) (.checkDone (.fault (.bump h)))

theorem Keeps.fetchCheck {t'} (h : Keeps s t) : Keeps s (t.fetchCheck t') :=
  .ite (.stopTile h) h

theorem Keeps.restartTile {t'} (h : Keeps s t) : Keeps s (t.restartTile t') :=
  .fetchCheck (.bump h)

theorem Keeps.countExpired {j n} (h : Keeps s t) : Keeps s (t.countExpired j n) := by
  unfold State.countExpired
  split
  · exact .bump h
  · exact h

theorem Keeps.countRefusal {t' op} (h : Keeps s t) : Keeps s (t.countRefusal t' op) :=
  .ite (.bump (.ite (.bump (.ite (.bump h) h)) (.ite (.bump h) h))) (.ite (.bump (.ite (.bump h) h)) (.ite (.bump h) h))

theorem Keeps.finishDecode {t' w j} {d : Decoded} (h : Keeps s t) (hd : d.Keeps s) : Keeps s (t.finishDecode t' w j d) := by
  cases d with
  | refuse st phys => exact .stopTile (.countRefusal h)
  | fault u f => exact .stopTile hd
  | ok u taken completes => exact .fetchCheck (.ite (.arrive hd) hd)

theorem Keeps.fetch {t' w yields f} (h : Keeps s t) (hf : ∀ j, Keeps s (f j)) : Keeps s (t.fetch t' w yields f) := by
  unfold State.fetch
  split
  · exact h
  · refine .ite h ?_
    split
    · exact .stopTile h
    · exact hf _

theorem Keeps.decodeMove {t' w yields} {body : State → Job → Tile → Decoded} (h : Keeps s t)
    (hb : ∀ u j x, Keeps s u → (body u j x).Keeps s) : Keeps s (t.decodeMove t' w yields body) := by
  refine .fetch h fun j => .ite h ?_
  have h₁ {x d} : Keeps s ((t.setTile t' x).bump .tileSeqMoves d) := .bump h
  exact .ite (.finishDecode h₁ trivial) (.ite (.finishDecode h₁ h₁) (.ite (.finishDecode h₁ trivial) (.finishDecode h₁
    (hb _ _ _ h₁))))

theorem Keeps.decode {t' w op} {body : State → Job → Tile → Decoded} (h : Keeps s t)
    (hb : ∀ u j x, Keeps s u → (body u j x).Keeps s) : Keeps s (t.decode t' w op body) :=
  .ite h (.decodeMove h hb)

theorem Keeps.wake {t'} (h : Keeps s t) : Keeps s (t.wake t') := by
  unfold State.wake
  refine .fetchCheck ?_
  split
  · exact .arrive h
  · exact h

theorem Keeps.suspend {t' m unit f nextSrc nextDst done} (h : Keeps s t) :
    Keeps s (t.suspend t' m unit f nextSrc nextDst done) := by
  unfold State.suspend
  split
  · exact h
  · exact .ite (.fault (.ite (.bump h) h)) (.endJob (.fault (.ite (.bump h) h)))

theorem Keeps.endRun {t' r status} (h : Keeps s t) : Keeps s (t.endRun t' r status) := by
  unfold State.endRun
  dsimp only
  split
  · exact h
  · exact .flushBusy h

theorem Keeps.refuseAtStart {t' m st} (h : Keeps s t) : Keeps s (t.refuseAtStart t' m st) :=
  .checkDone (.fault (.bump h))

theorem Keeps.applyClear {t' m} (h : Keeps s t) : Keeps s (t.applyClear t' m) :=
  .foldl (fun _ _ h₁ => h₁) h

theorem Keeps.countCvt {d fs} (h : Keeps s t) : Keeps s (t.countCvt d fs) :=
  .bump (.bump h)

theorem Keeps.drainOut {t' m p k rows} (h : Keeps s t) : Keeps s (t.drainOut t' m p k rows) := by
  unfold State.drainOut
  dsimp only
  split
  · refine .foldl (fun _ _ h₁ => .ite (.bump h₁) h₁) ?_
    refine .bump ?_
    refine .countCvt ?_
    refine .writeSram ?_
    refine .foldl_fst (fun _ _ h₁ => ?_) h
    split <;> exact h₁
  · refine .ite ?_ ?_
    · refine .foldl (fun _ _ h₁ => .ite (.bump h₁) h₁) ?_
      refine .bump ?_
      refine .countCvt ?_
      refine .writeSram ?_
      refine .foldl_fst (fun _ _ h₁ => ?_) h
      split <;> exact h₁
    · refine .writeSram ?_
      refine .foldl_fst (fun _ _ h₁ => .ite_fst h₁ h₁) ?_
      refine .foldl (fun _ _ h₁ => .ite (.bump h₁) h₁) ?_
      refine .bump ?_
      refine .countCvt ?_
      refine .writeSram ?_
      refine .foldl_fst (fun _ _ h₁ => ?_) h
      split <;> exact h₁

theorem Keeps.applyDrain {t' m u} (h : Keeps s t) (e : t.applyDrain t' m = .ok u) : Keeps s u := by
  unfold State.applyDrain at e
  dsimp only at e
  split at e
  · cases e
  · next outs _ =>
    split at e
    · cases e
    · cases e
      have h₁ {l : List (List Nat × Nat)} {p} :
          Keeps s (l.foldl (fun u x => u.drainOut t' m p x.2 (x.1.map (u.drainRow t'))) t) :=
        .foldl (fun _ _ h => .drainOut h) h
      split
      · exact h₁
      · exact .fault h₁

theorem Keeps.applyCastle {t' m u} (h : Keeps s t) (e : t.applyCastle t' m = .ok u) : Keeps s u := by
  unfold State.applyCastle at e
  extract_lets south r y at e
  split at e
  · cases e
  · cases e
    exact .bump h

theorem Keeps.part {t'} (h : Keeps s t) : Keeps s (t.part t') := by
  unfold State.part
  split <;> exact h

theorem Keeps.advanceArray {t' f} (h : Keeps s t) : Keeps s (t.advanceArray t' f) := by
  induction f generalizing t with
  | zero => exact h
  | succ f ih =>
    unfold State.advanceArray
    refine .ite h ?_
    split
    · exact h
    · next m _ =>
      extract_lets +onlyGivenNames t₁ go
      have hgo (r : Except Status State) (hr : ∀ u, r = .ok u → Keeps s u) : Keeps s (go r) := by
        cases r with
        | error e => exact .refuseAtStart (.ite (.bump h) h)
        | ok u => exact ih (hr u rfl)
      have hok (u : State) (hu : Keeps s u) : Keeps s (go (.ok u)) := hgo _ fun _ e => Except.ok.inj e ▸ hu
      split
      · exact h
      · exact hgo _ fun _ => .applyDrain h
      · exact hok _ (.applyClear h)
      · exact hgo _ fun _ => .applyCastle h
      · exact hok _ (.ite (.bump (.part h)) h)
      · exact h

theorem Keeps.kickArray {t'} (h : Keeps s t) : Keeps s (t.kickArray t') :=
  .advanceArray h

theorem Keeps.poisonRange {p} (h : Keeps s t) : Keeps s (t.poisonRange p) :=
  .foldl (fun _ _ h₁ => .foldl (fun _ _ h₂ => h₂) h₁) h

theorem Keeps.faultRun {t' r m p st q rook phys} (h : Keeps s t) : Keeps s (t.faultRun t' r m p st q rook phys) :=
  .kickArray (.endRun (.fault (.bump (.poisonRange h))))

theorem Decoded.Keeps.noop (h : Machine.Keeps s t) : (noop t).Keeps s :=
  h

theorem Decoded.Keeps.queued (h : Machine.Keeps s t) : (queued t).Keeps s :=
  h

theorem Out.Keeps.execLoadStationary {t' w} (h : Machine.Keeps s t) : (execLoadStationary t' w t).Keeps s := by
  unfold Machine.execLoadStationary
  refine .next ?_
  refine .kickArray ?_
  refine .decode h fun _ _ _ h₁ => ?_
  split
  · exact trivial
  · exact .ite h₁ h₁

theorem Keeps.endLoad {t' m} (h : Keeps s t) : Keeps s (t.endLoad t' m) := by
  unfold State.endLoad
  refine .kickArray ?_
  split
  · refine .fault ?_
    split <;> exact .bump h
  · refine .countLoad ?_
    split <;> exact .bump h

theorem Out.Keeps.execLoadStallEnd {t'} (h : Machine.Keeps s t) : (execLoadStallEnd t' t).Keeps s := by
  unfold Machine.execLoadStallEnd
  split
  · exact .next h
  · exact .when_ h (.endLoad h)

theorem Out.Keeps.execPass {t' w} (h : Machine.Keeps s t) : (execPass t' w t).Keeps s := by
  unfold Machine.execPass
  refine .next ?_
  refine .decode h fun _ _ _ h₁ => ?_
  split
  · exact trivial
  · exact .ite h₁ h₁

theorem Out.Keeps.execPassSplit {t' w} (h : Machine.Keeps s t) : (execPassSplit t' w t).Keeps s := by
  unfold Machine.execPassSplit
  refine .next ?_
  refine .decode h fun _ _ _ h₁ => ?_
  split
  · exact trivial
  · exact h₁

theorem Keeps.takeGranule {t' r m p kv} (h : Keeps s t) : Keeps s (t.takeGranule t' r m p kv) :=
  .ite h (.ite (.addTally (.bump h)) (.bump h))

theorem Keeps.countRepeat {p attempt} (h : Keeps s t) : Keeps s (t.countRepeat p attempt) :=
  .ite (.ite (.bump h) h) (.ite h (.ite (.ite (.bump h) (.bump h)) (.ite (.ite (.bump h) (.bump h)) h)))

theorem Keeps.startMove {t' m} (h : Keeps s t) : Keeps s (t.startMove t' m) :=
  .ite h h

theorem Keeps.beginRun {t' m p nv q l chained} (h : Keeps s t) : Keeps s (t.beginRun t' m p nv q l chained) :=
  .ite (.bump (.ite (.countRepeat h) h)) (.ite (.countRepeat h) h)

theorem Keeps.startPass {t' m} (h : Keeps s t) : Keeps s (t.startPass t' m) := by
  unfold State.startPass
  split
  · exact h
  · dsimp only
    split
    · exact .refuseAtStart h
    · split
      · exact .refuseAtStart h
      · exact .ite (.refuseAtStart h) (.startMove (.beginRun h))

theorem Keeps.startQuad {t' m q p} (h : Keeps s t) : Keeps s (t.startQuad t' m q p).1 := by
  unfold State.startQuad
  dsimp only
  split
  · exact .beginRun h
  · exact .beginRun (.countLoad h)

theorem Keeps.startSplit {t' m} (h : Keeps s t) : Keeps s (t.startSplit t' m) := by
  unfold State.startSplit
  dsimp only
  split
  · exact .refuseAtStart h
  · exact .ite (.startMove h) (.foldl (fun _ _ h₁ => .faultRun h₁) (.foldl_fst (fun _ _ h₁ => .startQuad h₁) (.bump
      (.startMove h))))

theorem Out.Keeps.execPassStart {t'} (h : Machine.Keeps s t) : (execPassStart t' t).Keeps s := by
  unfold Machine.execPassStart
  dsimp only
  split
  · exact .when_ h (.takeGranule h)
  · split
    · exact .next h
    · exact .when_ h (.ite (.startPass h) (.ite (.kickArray (.startSplit h)) h))

theorem Keeps.overflowed {t' r e i} (h : Keeps s t) : Keeps s (t.overflowed t' r e i) :=
  .ite (.abandonRun (.stopOnRow h)) (.countRepeat (.stopOnRow h))

theorem Out.Keeps.execAttemptOverflow {t' q} (h : Machine.Keeps s t) : (execAttemptOverflow t' q t).Keeps s := by
  unfold Machine.execAttemptOverflow
  split
  · exact .next h
  · split
    · exact .next h
    · split
      · exact .next h
      · exact .when_ h (.overflowed h)

theorem Keeps.findPoison {t' r p kv} (h : Keeps s t) : Keeps s (t.findPoison t' r p kv).1 :=
  .bump h

theorem Out.Keeps.execArrayFault {t' cause q rook} (h : Machine.Keeps s t) : (execArrayFault t' cause q rook t).Keeps s := by
  unfold Machine.execArrayFault
  dsimp only
  split
  · refine .when_ h ?_
    split
    · exact .faultRun (.stopOnRow (.bump h))
    · refine .faultRun ?_
      refine .stopOnRow ?_
      split
      · exact h
      · exact .findPoison h
    · exact .faultRun (.stopSomewhere h)
  · exact .when_ h (.fault (.bump h))

theorem Out.Keeps.execHandshakeTimeout {t' q rook} (h : Machine.Keeps s t) : (execHandshakeTimeout t' q rook t).Keeps s := by
  unfold Machine.execHandshakeTimeout
  split
  · exact .when_ h (.faultRun (.stopSomewhere h))
  · exact .next h

theorem Keeps.commitRun {t' r e} (h : Keeps s t) : Keeps s (t.commitRun t' r e) := by
  unfold State.commitRun
  extract_lets +onlyGivenNames target t₁ t₂ d t₃ t₄ t₅
  have h₁ : Keeps s t₁ := .countOut (.countScales h)
  have h₂ : Keeps s t₂ := .foldl (fun _ _ h => h) h₁
  have h₃ : Keeps s t₃ := .addBusy (.bump h₂)
  have h₄ : Keeps s t₄ := .ite (.bump h₃) h₃
  have h₅ : Keeps s t₅ := .ite (.bump h₄) h₄
  exact .kickArray (.endRun h₅)

theorem Out.Keeps.execPassCommit {t'} (h : Machine.Keeps s t) : (execPassCommit t' t).Keeps s := by
  unfold Machine.execPassCommit
  split
  · exact .next h
  · split
    · exact .next h
    · exact .when_ h (.commitRun h)

theorem Out.Keeps.execQuadrantCommit {t' q} (h : Machine.Keeps s t) : (execQuadrantCommit t' q t).Keeps s := by
  unfold Machine.execQuadrantCommit
  split
  · exact .next h
  · split
    · exact .next h
    · exact .when_ h (.commitRun h)

theorem Out.Keeps.execDrain {t' w} (h : Machine.Keeps s t) : (execDrain t' w t).Keeps s := by
  unfold Machine.execDrain
  refine .next ?_
  refine .kickArray ?_
  refine .decode h fun _ _ _ h₁ => ?_
  split
  · exact trivial
  · exact .ite (Machine.Keeps.ite h₁ h₁) (Machine.Keeps.ite h₁ h₁)

theorem Out.Keeps.execClear {t' w} (h : Machine.Keeps s t) : (execClear t' w t).Keeps s :=
  .next (.kickArray (.decode h fun _ _ _ h₁ => .ite trivial (.ite trivial (.ite h₁ h₁))))

theorem Out.Keeps.execCastle {t' w} (h : Machine.Keeps s t) : (execCastle t' w t).Keeps s := by
  unfold Machine.execCastle
  refine .next ?_
  refine .kickArray ?_
  refine .decode h fun _ _ _ h₁ => ?_
  split
  · exact trivial
  · exact h₁

theorem Out.Keeps.execUncastle {t' w} (h : Machine.Keeps s t) : (execUncastle t' w t).Keeps s :=
  .next (.kickArray (.decode h fun _ _ _ h₁ => .ite trivial (.ite h₁ h₁)))

end
end Sys2Proof.Machine
end

section
/-! SUPPORT. Invariant (O5, O8). What the operations of the control processor, the board, the boot and the fabric keep. -/

-- Proofs are checked as they come: checked beside the rest, they hold their memory until the whole text is.
set_option Elab.async false

namespace Sys2Proof.Machine
section
variable {s t u : State}

theorem Keeps.sendZcp {src pkt} (h : Keeps s t) : Keeps s (t.sendZcp src pkt) := by
  unfold State.sendZcp
  split <;> exact h

theorem Keeps.sendReply {src e maxReply k body} (h : Keeps s t) : Keeps s (t.sendReply src e maxReply k body) :=
  .foldl (fun _ _ h₁ => .sendZcp h₁) h

theorem Keeps.cacheReply {src e} (h : Keeps s t) : Keeps s (t.cacheReply src e) :=
  .ite (.bump h) h

theorem Keeps.answerDuplicate {src e maxReply rfrag} (h : Keeps s t) : Keeps s (t.answerDuplicate src e maxReply rfrag) := by
  unfold State.answerDuplicate
  dsimp only
  split <;> exact .sendReply (.bump h)

theorem Keeps.extendConfig {w} (h : Keeps s t) : Keeps s (t.extendConfig w) :=
  .bump h

theorem Keeps.reply {w change st body} (h : Keeps s t) : Keeps s (t.reply w change st body) :=
  .cacheReply (.sendReply (.ite (.extendConfig h) h))

theorem Ans.Keeps.refusal {r u a} (h : Machine.Keeps s t) (e : t.refusal r u = some a) : a.Keeps s := by
  unfold State.refusal at e
  split at e
  · cases e; exact h
  · split at e
    · cases e; exact h
    · split at e
      · cases e
      · split at e
        · split at e
          · cases e; exact h
          · cases e
        · cases e

theorem Ans.Keeps.stateRefusal {u a} (h : Machine.Keeps s t) (e : t.stateRefusal u = some a) : a.Keeps s := by
  unfold State.stateRefusal at e
  split at e
  · cases e
  · split at e
    · cases e; exact .bump h
    · split at e
      · cases e; exact .bump h
      · cases e

theorem Keeps.dropLock (h : Keeps s t) : Keeps s t.dropLock := by
  unfold State.dropLock
  split
  · exact .ite (.event h) h
  · exact h

/-- What a running request leaves its answer says. -/
theorem Keeps.runZcp {w u r} {body : State → Ans} (h : Keeps s t) (hb : ∀ u, Keeps s u → (body u).Keeps s) :
    Keeps s (t.runZcp w u r body) := by
  have h₁ : Keeps s t.dropLock := .dropLock h
  have ha : ((((t.dropLock.refusal r u).orElse fun _ => t.dropLock.stateRefusal u)).getD (body t.dropLock)).Keeps s := by
    cases e₁ : t.dropLock.refusal r u with
    | some a => exact .refusal h₁ e₁
    | none =>
      cases e₂ : t.dropLock.stateRefusal u with
      | some a => exact .stateRefusal h₁ e₂
      | none => exact hb _ h₁
  unfold State.runZcp
  dsimp only
  split
  · next e => rw [e] at ha; exact .reply ha
  · next u st p i e =>
    rw [e] at ha
    refine .reply ?_
    split
    · exact .bump ha
    · exact ha
  · next e => rw [e] at ha; exact ha

theorem Keeps.zcpStep {r u} {body : State → Ans} (h : Keeps s t) (hb : ∀ u, Keeps s u → (body u).Keeps s) :
    Keeps s (t.zcpStep r u body) := by
  unfold State.zcpStep
  refine .ite h (.ite (.bump h) ?_)
  split
  · exact .ite (.runZcp h hb) (.sendReply (.bump h))
  · split
    · exact .answerDuplicate h
    · exact .ite (.runZcp h hb) (.ite (.sendReply (.bump h)) h)

theorem Keeps.finishZcp {op p change st vs} (h : Keeps s t) : Keeps s (t.finishZcp op p change st vs) :=
  .foldl (fun _ _ h₁ => .reply h₁) h

theorem Keeps.lasersOff (h : Keeps s t) : Keeps s t.lasersOff :=
  .foldl (fun _ _ h₁ => h₁) h

/-- Losing the rails keeps the queue and the flash; memory is empty after it. -/
theorem Keeps.blank (h : Keeps s t) : Keeps s t.blank := ⟨fun _ => rfl, h.2⟩

theorem Keeps.railsOff {mv} (h : Keeps s t) : Keeps s (t.railsOff mv) :=
  .same (t := t.blank) rfl rfl rfl (.blank h)

theorem Keeps.thermalShutdown (h : Keeps s t) : Keeps s t.thermalShutdown :=
  .same (t := t.lasersOff.blank) rfl rfl rfl (.blank (.lasersOff h))

theorem Keeps.resetLogic (h : Keeps s t) : Keeps s t.resetLogic :=
  .same (t := t.lasersOff.blank) rfl rfl rfl (.blank (.lasersOff h))

theorem Keeps.applyPersistent (h : Keeps s t) : Keeps s t.applyPersistent :=
  .foldl (fun _ _ h₁ => .dite (fun _ => h₁) fun _ => h₁) h

@[simp] theorem Flash.setBank_rollback (f : Flash) (isB : Bool) (b : Bank) : (f.setBank isB b).rollback = f.rollback := by
  cases isB <;> rfl

@[simp] theorem Flash.setAttempts_rollback (f : Flash) (isB : Bool) (n : Nat) :
  (f.setAttempts isB n).rollback = f.rollback := by
  cases isB <;> rfl

/-- Choosing a bank blows no fuse. -/
theorem Flash.choose_rollback (f : Flash) : f.choose.1.rollback = f.rollback := by
  unfold Flash.choose
  split
  next b f₁ hb =>
    have h₁ : f₁.rollback = f.rollback := by
      split at hb <;> cases hb <;> simp
    dsimp only
    split
    · exact h₁
    · dsimp only
      split <;> exact h₁

theorem Keeps.flash {f : Flash} (hf : f.rollback = t.flash.rollback) (h : Keeps s t) : Keeps s { t with flash := f } :=
  ⟨h.1, h.2.1, hf.trans h.2.2⟩

theorem Keeps.bootUp {b} (h : Keeps s t) : Keeps s (t.bootUp b) := by
  have h₁ : Keeps s { t with flash := t.flash.choose.1 } := .flash t.flash.choose_rollback h
  unfold State.bootUp
  dsimp only
  split
  · exact h₁
  · exact .ite (.setFlag (.applyPersistent (.foldl (fun _ _ h₂ => .bump h₂) h₁))) (.applyPersistent (.foldl
      (fun _ _ h₂ => .bump h₂) h₁))

theorem Keeps.railsOn {mv b} (h : Keeps s t) : Keeps s (t.railsOn mv b) :=
  .ite h (.ite h (.bootUp h))

theorem Out.Keeps.execPowerUp {mv b} (h : Machine.Keeps s t) : (execPowerUp mv b t).Keeps s :=
  .next (.ite (.railsOn h) h)

theorem Out.Keeps.execInputBackInRange {mv b} (h : Machine.Keeps s t) : (execInputBackInRange mv b t).Keeps s :=
  .next (.ite (.railsOn h) h)

theorem Out.Keeps.execInputUndervoltage {mv} (h : Machine.Keeps s t) : (execInputUndervoltage mv t).Keeps s :=
  .when_ h (.railsOff h)

theorem Out.Keeps.execInputOvervoltage {mv} (h : Machine.Keeps s t) : (execInputOvervoltage mv t).Keeps s :=
  .when_ h (.railsOff h)

theorem Out.Keeps.execRailFault (h : Machine.Keeps s t) : (execRailFault t).Keeps s :=
  .when_ h h

theorem Out.Keeps.execResetNAssert (h : Machine.Keeps s t) : (execResetNAssert t).Keeps s :=
  .next (.ite (.resetLogic h) h)

theorem Out.Keeps.execResetNRelease {b} (h : Machine.Keeps s t) : (execResetNRelease b t).Keeps s :=
  .when_ h (.ite (.bootUp h) h)

theorem Out.Keeps.execBootWatchdog {b} (h : Machine.Keeps s t) : (execBootWatchdog b t).Keeps s :=
  .when_ h (.bootUp (.resetLogic h))

/-- READY blows fuses, and unblows none; the counter stays within the fuses there are (R470). -/
theorem State.advanceRollback_rollback (s : State) :
    s.flash.rollback ≤ s.advanceRollback.flash.rollback ∧
      (s.flash.rollback ≤ 64 → s.advanceRollback.flash.rollback ≤ 64) := by
  unfold State.advanceRollback
  dsimp only
  split
  · exact ⟨le_refl _, id⟩
  · next hn =>
    simp only [Bool.or_eq_true, decide_eq_true_eq, not_or, not_le, not_lt] at hn
    split
    · simp only [Flash.setBank_rollback]
      exact ⟨hn.1.le, fun _ => hn.2⟩
    · exact ⟨hn.1.le, fun _ => hn.2⟩

theorem State.advanceRollback_mem (s : State) : s.advanceRollback.mem = s.mem := by
  unfold State.advanceRollback
  dsimp only
  split <;> rfl

theorem State.advanceRollback_pending (s : State) : s.advanceRollback.pending = s.pending := by
  unfold State.advanceRollback
  dsimp only
  split <;> rfl

/-- The state that READY blows the fuses of (R470, R471): the attempts of the running bank are cleared. -/
def State.cleared (s : State) : State :=
  { s with
    boot := { s.boot with ready := true, totalNs := s.clock - s.boot.startT }
    flash := s.flash.setAttempts s.boot.running 0 }

/-- What READY does after the fuses blows no more of them. -/
theorem Keeps.becomeReady (s : State) : Keeps s.cleared.advanceRollback s.becomeReady := by
  have h : Keeps s.cleared.advanceRollback (s.cleared.advanceRollback.event .ready {} [1]) := .event (.refl _)
  exact .ite h (.ite (.freeze (.bump h)) h)

theorem Out.Keeps.execFreezeInNFall (h : Machine.Keeps s t) : (execFreezeInNFall t).Keeps s :=
  .next (.ite (.freeze (.bump h)) (.ite (.freeze h) h))

theorem Out.Keeps.execSlotIdChange {pins} (h : Machine.Keeps s t) : (execSlotIdChange pins t).Keeps s :=
  .next (.ite (.bump h) h)

theorem Out.Keeps.execJtagBypass (h : Machine.Keeps s t) : (execJtagBypass t).Keeps s :=
  .when_ h h

theorem Out.Keeps.execJtagIdcode (h : Machine.Keeps s t) : (execJtagIdcode t).Keeps s :=
  .when_ h h

theorem Out.Keeps.execJtagSamplePreload {preload} (h : Machine.Keeps s t) : (execJtagSamplePreload preload t).Keeps s :=
  .when_ h h

theorem Out.Keeps.execJtagExtest (h : Machine.Keeps s t) : (execJtagExtest t).Keeps s :=
  .when_ h h

theorem Keeps.touchPeer {dst} (h : Keeps s t) : Keeps s (t.touchPeer dst) := by
  unfold State.touchPeer
  split
  · exact h
  · refine .ite h ?_
    dsimp only
    split
    · exact h
    · next o _ => exact .sendLow (dst := o.dst) h

theorem Keeps.countTx {q} (h : Keeps s t) : Keeps s (t.countTx q) :=
  .bump (.bump h)

theorem Keeps.sendReq {q o only} (h : Keeps s t) : Keeps s (t.sendReq q o only) :=
  .touchPeer (.countTx (.bump h))

theorem Keeps.resend {e cause avoid} (h : Keeps s t) : Keeps s (t.resend e cause avoid) :=
  .countTx (.bump h)

theorem Keeps.retire {e} (h : Keeps s t) : Keeps s (t.retire e) :=
  .foldl (fun _ _ h₁ => .resend h₁) (.touchPeer h)

theorem Keeps.cutRate {dst} (h : Keeps s t) : Keeps s (t.cutRate dst) := by
  unfold State.cutRate
  dsimp only
  split
  · exact h
  · exact .ite (.bump h) h

theorem Keeps.modJobTile {job t' f} (h : Keeps s t) : Keeps s (t.modJobTile job t' f) := by
  unfold State.modJobTile
  split
  · exact h
  · exact .ite h h

theorem Keeps.fabPayload {t' j m c i} (h : Keeps s t) : Keeps s (t.fabPayload t' j m c i).1 := by
  unfold State.fabPayload
  refine .ite_fst ?_ (.ite_fst h (.ite_fst h h))
  refine .ite_fst (.readJob h) ?_
  split <;> exact h

theorem Keeps.suspendFab {t' m f} (h : Keeps s t) : Keeps s (t.suspendFab t' m f) :=
  .suspend h

theorem Keeps.pump {t' id n} (h : Keeps s t) : Keeps s (State.pump t' id n t) := by
  induction n generalizing t with
  | zero => exact h
  | succ n ih =>
    unfold State.pump
    split
    · next m j _ _ =>
      dsimp only
      split
      · exact .ite (.suspendFab h) h
      · refine .ite h (.ite (.ite h h) (.ite (.ite h (.ite (ih h) (.ite h ?_))) (.ite h (.ite h h))))
        split
        · next _ u _ e => exact ih (Keeps.fst e (.fabPayload h) : Keeps s u)
        · next _ u _ e => exact ih (.sendReq (Keeps.fst e (.fabPayload h) : Keeps s u))
    · exact h

theorem Keeps.localSignal {t' j m} (h : Keeps s t) : Keeps s (t.localSignal t' j m) :=
  .ite (.ite (.countExpired h) (.arrive h)) h

theorem Keeps.kickFab {t'} (h : Keeps s t) : Keeps s (t.kickFab t') := by
  unfold State.kickFab
  split
  · exact h
  · exact .foldl (fun _ _ h₁ => .ite (.ite (.localSignal h₁) h₁) (.ite (.pump h₁) h₁)) h

theorem Keeps.credited {o} (h : Keeps s t) : Keeps s (t.credited o) := by
  unfold State.credited
  split
  · exact .kickFab (.modJobTile h)
  · exact h

theorem Keeps.failMove {o f} (h : Keeps s t) : Keeps s (t.failMove o f) := by
  unfold State.failMove
  split
  · exact .kickFab (.modJobTile h)
  · exact h

end
end Sys2Proof.Machine
end

section
/-! SUPPORT. Invariant (O5, O8). What the operations of collectives, of the photonic engine and of the vector unit keep. -/

-- Proofs are checked as they come: checked beside the rest, they hold their memory until the whole text is.
set_option Elab.async false

namespace Sys2Proof.Machine
section
variable {s t u : State}

theorem Keeps.collLoad {j g c} (h : Keeps s t) : Keeps s (t.collLoad j g c).1 := by
  unfold State.collLoad
  extract_lets +onlyGivenNames f n read place
  have hread (k : Nat) : Keeps s (read k).1 := by
    unfold read
    split
    · next _ u₁ _ e₁ => exact .fst e₁ (.readJob h)
    · next _ u₁ _ e₁ =>
        have h₁ : Keeps s u₁ := .fst e₁ (.readJob h)
        exact .ite_fst (.bump h₁) h₁
  split
  · exact h
  · split
    · next _ u₁ _ e₁ => exact .fst e₁ (hread _)
    · exact hread _
  · exact .ite_fst (hread _) h
  · split
    · next _ u₁ _ e₁ => exact .fst e₁ (hread _)
    · exact hread _
  · exact hread _

theorem Keeps.collPump {g q n} (h : Keeps s t) : Keeps s (State.collPump g q n t) := by
  induction n generalizing t with
  | zero => exact h
  | succ n ih =>
    unfold State.collPump
    split
    · split
      · exact .ite h (ih (.sendReq (.bump h)))
      · exact h
    · exact h

theorem Keeps.collChoose {g x c} (h : Keeps s t) : Keeps s (t.collChoose g x c).1 :=
  .modCtx (.ite h (.bump h))

theorem Keeps.collRecord {x c fl st} (h : Keeps s t) : Keeps s (t.collRecord x c fl st) := Keeps.modColl h

theorem Keeps.collFault {x f} (h : Keeps s t) : Keeps s (t.collFault x f) := by
  unfold State.collFault
  split
  · next c j _ _ =>
    extract_lets hold t₁ t₂ t₃ r again t₄
    have h₁ : Keeps s t₁ := .foldl (fun _ _ h₁ => .escRelease h₁) h
    have h₃ : Keeps s t₃ := .modColl (.collRecord h₁)
    have h₄ : Keeps s t₄ := .ite (.bump h₃) h₃
    exact .ite (.fault (.modJobTile h₄)) (.endJob (.fault h₄))
  · exact h

theorem Keeps.collWrite {j g c lo vals} (h : Keeps s t) : Keeps s (t.collWrite j g c lo vals).1 := by
  unfold State.collWrite
  dsimp only
  split
  · exact h
  · exact .writeJob (.ite_snd h h)

theorem Keeps.collRun {gid q} (h : Keeps s t) : Keeps s (t.collRun gid q) := by
  unfold State.collRun
  split
  · split
    · refine .ite h ?_
      refine .ite (.collPump (.ite (.bump (.modCtx h)) (.modCtx h))) ?_
      dsimp only
      split
      · exact .collFault (.foldl_fst (fun _ _ h₁ => .ite_fst h₁ (.collWrite h₁)) (.collPump (.ite (.bump (.modCtx h))
          (.modCtx h))))
      · exact .modCtx (.foldl_fst (fun _ _ h₁ => .ite_fst h₁ (.collWrite h₁)) (.collPump (.ite (.bump (.modCtx h))
          (.modCtx h))))
    · exact h
  · exact h

theorem Keeps.escFallback {x y} (h : Keeps s t) : Keeps s (t.escFallback x y) := by
  unfold State.escFallback
  split
  · exact .collRun (.modCtx (.ite (.bump (.escRelease h)) (.escRelease h)))
  · exact h

theorem Keeps.escRequest {g x c y} (h : Keeps s t) : Keeps s (t.escRequest g x c y) :=
  .bump h

theorem Keeps.escData {g x c y} (h : Keeps s t) : Keeps s (t.escData g x c y) :=
  .modCtx (.foldl (fun _ _ h₁ => .bump h₁) h)

theorem Keeps.collStart {gid q} (h : Keeps s t) : Keeps s (t.collStart gid q) := by
  unfold State.collStart
  split
  · split
    · dsimp only
      split
      · next _ u₁ _ e₁ =>
          have h₁ : Keeps s u₁ := .fst e₁ (.collLoad (.collChoose h))
          exact .collFault h₁
      · next _ u₁ _ e₁ =>
          have h₁ : Keeps s u₁ := .fst e₁ (.collLoad (.collChoose h))
          exact .ite (.foldl (fun _ _ h₂ => .escRequest h₂) (.modCtx (.ite h₁ (.blurJob h₁)))) (.collRun (.modCtx (.ite h₁
            (.blurJob h₁))))
    · exact h
  · exact h

theorem Keeps.collFrames (h : Keeps s t) : Keeps s t.collFrames := by
  unfold State.collFrames
  split
  · exact h
  · exact .collStart (.bump (.modCtx h))

theorem Keeps.collData {q} (h : Keeps s t) : Keeps s (t.collData q).1 := by
  unfold State.collData
  refine .ite_fst h ?_
  dsimp only
  split
  · exact .bump h
  · refine .ite_fst (.bump h) ?_
    split
    · refine .ite_fst h ?_
      refine .ite_fst (.bump h) ?_
      refine .collRun ?_
      refine .foldl (fun _ _ h₁ => ?_) (.bump h)
      split
      · exact .escFallback (.bump h₁)
      · exact h₁
    · refine .ite_fst (.bump h) ?_
      refine .ite_fst (.bump h) ?_
      refine .ite_fst (.bump (.bump h)) ?_
      refine .collRun ?_
      refine .foldl (fun _ _ h₁ => ?_) (.bump (.bump h))
      split
      · exact .escFallback (.bump h₁)
      · exact h₁

theorem Keeps.collPortDown {p} (h : Keeps s t) : Keeps s (t.collPortDown p) := by
  unfold State.collPortDown
  refine .foldl (fun _ _ h₁ => ?_) (.modColl (.modBook h))
  split
  · exact .foldl (fun _ _ h₂ => .escFallback h₂) h₁
  · exact h₁

theorem Keeps.collResume {j} (h : Keeps s t) : Keeps s (t.collResume j) :=
  .modColl h

theorem Keeps.kickColl {t'} (h : Keeps s t) : Keeps s (t.kickColl t') := by
  unfold State.kickColl
  refine .foldl (fun _ _ h₁ => ?_) h
  refine .ite ?_ h₁
  dsimp only
  split
  · exact .ite (.collStart (.modCtx h₁)) (.collFrames (.modCtx h₁))
  · exact .modCtx h₁

theorem Keeps.reprogram {n} (h : Keeps s t) : Keeps s (t.reprogram n) :=
  .dite (fun _ => .bump (.modPpe h)) fun _ => h

theorem State.readVectors_cons (s : State) (t : Nat) (j : Job) (c : ProjectSpec) (v : Nat) (vs : List Nat) (acc :
    List (List Byte)) :
    s.readVectors t j c (v :: vs) acc =
      if c.sk = 1 then
        match s.readJob 6 j (c.src + c.bytes * v) c.bytes with
        | (s, .ok bs) => s.readVectors t j c vs (acc ++ [bs])
        | (s, .error f) => (s, acc, some f)
      else match s.sramPoison t (c.src + c.bytes * v) c.bytes with
        | some p => (s, acc, some { status := .poison, addr := max (c.src + c.bytes * v) (p % sramSize), phys := p })
        | none => s.readVectors t j c vs (acc ++ [s.sram t (c.src + c.bytes * v) c.bytes]) := rfl

theorem Keeps.readVectors {t' j c vs acc} (h : Keeps s t) : Keeps s (t.readVectors t' j c vs acc).1 := by
  induction vs generalizing t acc with
  | nil => exact h
  | cons v vs ih =>
    rw [State.readVectors_cons]
    refine .ite_fst ?_ ?_
    · split
      · next _ u _ e => exact ih (.fst e (.readJob h))
      · next _ u _ e => exact .fst e (.readJob h)
    · split
      · exact h
      · exact ih h

theorem Keeps.settleProject {job t' id} (h : Keeps s t) : Keeps s (t.settleProject job t' id) := by
  unfold State.settleProject
  split
  · refine .ite h ?_
    split
    · exact .leavePpe (.suspend h)
    · exact h
  · exact .leavePpe h

theorem Keeps.enterMesh {e} (h : Keeps s t) : Keeps s (t.enterMesh e) := by
  unfold State.enterMesh
  split
  · next m j _ _ =>
    extract_lets c n
    split
    next u₁ ins f e₁ =>
      have h₁ : Keeps s u₁ := .fst e₁ (.readVectors h)
      dsimp only
      split
      · exact .settleProject h₁
      · exact h₁
  · exact h

theorem Keeps.record {b v bs dark} (h : Keeps s t) : Keeps s (t.record b v bs dark).1 := by
  unfold State.record
  dsimp only
  split <;> exact h

theorem Keeps.countRecord {slot r} (h : Keeps s t) : Keeps s (t.countRecord slot r) := by
  unfold State.countRecord
  dsimp only
  split
  · exact .foldl (fun _ _ h₁ => .bump h₁) h
  · exact .modPpe (.foldl (fun _ _ h₁ => .bump h₁) h)

theorem Keeps.writeRecord {j b v bs dark} (h : Keeps s t) : Keeps s (t.writeRecord j b v bs dark) := by
  unfold State.writeRecord
  refine .ite (.countExpired (.bump h)) ?_
  split
  · exact h
  · refine .ite h ?_
    split
    next u₁ r _ =>
      have h₁ : Keeps s u₁ := .fst ‹_› (.record h)
      extract_lets a p
      have hp : Keeps s p.1 := .ite_fst (.writeJob h₁) (.writePhys h₁)
      clear_value p
      split
      · exact hp
      · exact .ite (.arrive (.countRecord hp)) (.countRecord hp)

theorem Keeps.ppeOffline (h : Keeps s t) : Keeps s t.ppeOffline :=
  .finishZcp (.modPpe h)

theorem Keeps.calibrate (h : Keeps s t) : Keeps s t.calibrate :=
  .modPpe h

theorem Keeps.spareUp (h : Keeps s t) : Keeps s t.spareUp :=
  .ite h h

theorem Keeps.ppeSwitchover (h : Keeps s t) : Keeps s t.ppeSwitchover :=
  .ite (.ppeOffline h) (.spareUp (.bump (.modPpe h)))

theorem Keeps.sawSlot {dark} (h : Keeps s t) : Keeps s (t.sawSlot dark) :=
  .ite (.ppeSwitchover (.modPpe h)) (.modPpe h)

theorem Keeps.leaveMesh {dark} (h : Keeps s t) : Keeps s (t.leaveMesh dark) := by
  unfold State.leaveMesh
  split
  · exact h
  · dsimp only
    split
    · refine .ite ?_ ?_
      · refine .leavePpe ?_
        refine .foldl (fun _ _ h₁ => ?_) (.modPpe h)
        refine .sawSlot ?_
        split
        · exact h₁
        · exact .writeRecord h₁
      · refine .settleProject ?_
        refine .foldl (fun _ _ h₁ => ?_) (.modPpe h)
        refine .sawSlot ?_
        split
        · exact h₁
        · exact .writeRecord h₁
    · refine .leavePpe ?_
      refine .foldl (fun _ _ h₁ => ?_) (.modPpe h)
      refine .sawSlot ?_
      split
      · exact h₁
      · exact .writeRecord h₁

theorem Keeps.writeElts {t' a w first codes} (h : Keeps s t) : Keeps s (t.writeElts t' a w first codes) :=
  .ite h (.writeSram h)

theorem Keeps.fill {w xs} (h : Keeps s t) : Keeps s (t.fill w xs).1 := by
  unfold State.fill
  refine .foldl_fst (fun _ _ h₁ => ?_) h
  split <;> exact h₁

theorem Keeps.countSource {t' v first stop} (h : Keeps s t) : Keeps s (t.countSource t' v first stop) :=
  .ite (.ite (.bump (.ite (.bump (.ite (.bump h) h)) (.ite (.bump h) h))) (.ite (.bump (.ite (.bump h) h)) (.ite
    (.bump h) h))) (.bump (.ite (.bump (.ite (.bump (.ite (.bump h) h)) (.ite (.bump h) h))) (.ite (.bump (.ite
    (.bump h) h)) (.ite (.bump h) h))))

theorem Keeps.runVop {t' m} (h : Keeps s t) : Keeps s (t.runVop t' m) := by
  unfold State.runVop
  dsimp only
  split
  · exact .bump (.ite (.ite (.writeElts (.countCvt (.countSource h))) (.writeSram (.writeElts (.countCvt
      (.countSource h))))) (.writeElts (.fill h)))
  · exact .suspend (.bump (.ite (.ite (.writeElts (.countCvt (.countSource h))) (.writeSram (.writeElts (.countCvt
      (.countSource h))))) (.writeElts (.fill h))))

theorem Keeps.runReduce {t' m} (h : Keeps s t) : Keeps s (t.runReduce t' m) := by
  unfold State.runReduce
  dsimp only
  split
  · exact .bump (.writeElts (.fill h))
  · exact .suspend (.bump (.writeElts (.fill h)))

theorem Keeps.runMvRows {t' j m n} (h : Keeps s t) : Keeps s (t.runMvRows t' j m n) := by
  induction n generalizing t with
  | zero => exact h
  | succ n ih =>
    unfold State.runMvRows
    dsimp only
    split
    · exact .suspend h
    · split
      · next _ u₁ _ e₁ => exact .suspend (Keeps.fst e₁ (.readJob h) : Keeps s u₁)
      · next _ u₁ _ e₁ =>
        have h₁ : Keeps s u₁ := .fst e₁ (.readJob h)
        split
        · next _ u₂ _ e₂ => exact .suspend (Keeps.fst e₂ (.readJob h₁) : Keeps s u₂)
        · next _ u₂ _ e₂ =>
          have h₂ : Keeps s u₂ := .fst e₂ (.readJob h₁)
          exact ih (.foldl (fun _ _ h => .writeSram h) (.bump (.ite (.bump (.bump h₂)) (.bump h₂))))

theorem Keeps.kickVec {t' f} (h : Keeps s t) : Keeps s (t.kickVec t' f) := by
  induction f generalizing t with
  | zero => exact h
  | succ f ih =>
    unfold State.kickVec
    refine .ite h ?_
    split
    · exact h
    · exact .ite h (ih (.ite (.runVop h) (.runReduce h)))

theorem Keeps.kickMv {t' f} (h : Keeps s t) : Keeps s (t.kickMv t' f) := by
  induction f generalizing t with
  | zero => exact h
  | succ f ih =>
    unfold State.kickMv
    refine .ite h ?_
    split
    · next m j _ _ =>
      have h₁ {x : Tile} : Keeps s (t.setTile t' x) := h
      exact .ite h (ih (.runMvRows h₁))
    · exact h

theorem Keeps.kick {t'} (h : Keeps s t) : Keeps s (t.kick t') :=
  .kickMv (.kickVec (.kickArray h))

theorem Out.Keeps.execMvPass {t' w} (h : Machine.Keeps s t) : (execMvPass t' w t).Keeps s := by
  unfold Machine.execMvPass
  refine .next ?_
  refine .kick ?_
  refine .decode h fun _ _ _ h₁ => ?_
  split
  · exact trivial
  · exact .ite h₁ h₁

theorem Out.Keeps.execVop {t' w} (h : Machine.Keeps s t) : (execVop t' w t).Keeps s := by
  unfold Machine.execVop
  refine .next ?_
  refine .kick ?_
  refine .decode h fun _ _ _ h₁ => ?_
  dsimp only
  split
  · exact trivial
  · exact .ite (Machine.Keeps.ite h₁ h₁) (Machine.Keeps.ite h₁ h₁)

theorem Out.Keeps.execReduce {t' w} (h : Machine.Keeps s t) : (execReduce t' w t).Keeps s := by
  unfold Machine.execReduce
  refine .next ?_
  refine .kick ?_
  refine .decode h fun _ _ _ h₁ => ?_
  split
  · exact trivial
  · exact .ite h₁ h₁

end
end Sys2Proof.Machine
end

section
/-! SUPPORT. Invariant (O5, O8). What copies, fabric moves, collectives and the endpoint keep. -/

-- Proofs are checked as they come: checked beside the rest, they hold their memory until the whole text is.
set_option Elab.async false

namespace Sys2Proof.Machine
section
variable {s t u : State}

theorem Keeps.copyRead {t' j c o n} (h : Keeps s t) : Keeps s (t.copyRead t' j c o n).1 := by
  unfold State.copyRead
  refine .ite_fst (.readJob h) ?_
  dsimp only
  split
  · exact h
  · exact .ringBytes h

theorem Keeps.copyWrite {t' j c o bs bad} (h : Keeps s t) : Keeps s (t.copyWrite t' j c o bs bad).1 := by
  unfold State.copyWrite
  dsimp only
  split
  · next _ u₁ _ e₁ =>
      have h₁ : Keeps s u₁ := .fst e₁ (.ite_fst (.writeJob h) (.ringBytes (.writeSram h)))
      exact h₁
  · next _ u₁ e₁ =>
      have h₁ : Keeps s u₁ := .fst e₁ (.ite_fst (.writeJob h) (.ringBytes (.writeSram h)))
      exact .ite_fst h₁ (.ite_fst (.writeJob h₁) (.ringBytes (.writeSram h₁)))

theorem Keeps.copyReadSrc {t' j c o n} (h : Keeps s t) : Keeps s (t.copyReadSrc t' j c o n).1 := by
  refine .ite_fst (.copyRead h) (.foldl_fst (fun p k h₁ => ?_) h)
  split
  · exact h₁
  · next u bs =>
    have h₂ : Keeps s u := h₁
    split
    · next _ v _ e => exact .fst e (.copyRead h₂)
    · next _ v _ e => exact .fst e (.copyRead h₂)

theorem Keeps.copyGranule {t' j m c g} (h : Keeps s t) : Keeps s (t.copyGranule t' j m c g).1 := by
  unfold State.copyGranule
  refine .ite_fst ?_ ?_
  · split
    · next _ u₁ _ e₁ =>
        have h₁ : Keeps s u₁ := .fst e₁ (.copyRead h)
        exact .ite_fst h₁ (.copyWrite h₁)
    · next _ u₁ _ e₁ =>
        have h₁ : Keeps s u₁ := .fst e₁ (.copyRead h)
        exact .copyWrite h₁
  · dsimp only
    split
    · next _ u₁ _ e₁ =>
        have h₁ : Keeps s u₁ := .fst e₁ (.copyReadSrc h)
        exact h₁
    · next _ u₁ _ e₁ =>
        have h₁ : Keeps s u₁ := .fst e₁ (.copyReadSrc h)
        split
        · next _ u₂ _ e₂ =>
            have h₂ : Keeps s u₂ := .fst e₂ (.copyWrite h₁)
            exact h₂
        · next _ u₂ e₂ =>
            have h₂ : Keeps s u₂ := .fst e₂ (.copyWrite h₁)
            exact .ite (.bump (.ite (.bump (.bump (.countCvt h₂))) (.bump (.countCvt h₂)))) (.ite (.bump (.bump
              (.countCvt h₂))) (.bump (.countCvt h₂)))

theorem Out.Keeps.execCopy {t' w} (h : Machine.Keeps s t) : (execCopy t' w t).Keeps s := by
  unfold Machine.execCopy
  refine .next ?_
  refine .decode h fun _ _ _ h₁ => ?_
  dsimp only
  split
  · exact trivial
  · exact .ite (Machine.Keeps.ite h₁ h₁) (.ite (Machine.Keeps.ite h₁ h₁) (Machine.Keeps.ite h₁ h₁))

theorem Keeps.suspendCopy {t' m c f} (h : Keeps s t) : Keeps s (t.suspendCopy t' m c f) :=
  .suspend h

theorem Keeps.writeGranule {t' m j} (h : Keeps s t) : Keeps s (t.writeGranule t' m j) := by
  unfold State.writeGranule
  refine .ite (.countExpired h) ?_
  split
  · next _ u₁ _ e₁ =>
      have h₁ : Keeps s u₁ := .fst e₁ (.copyGranule h)
      exact .suspendCopy h₁
  · next _ u₁ e₁ =>
      have h₁ : Keeps s u₁ := .fst e₁ (.copyGranule h)
      exact .ite (.arrive h₁) h₁

theorem Out.Keeps.execGranuleWritten {t' id errs} (h : Machine.Keeps s t) : (execGranuleWritten t' id errs t).Keeps s := by
  unfold Machine.execGranuleWritten
  dsimp only
  split
  · exact .when_ h (.writeGranule (.upset h))
  · exact .next h

theorem Keeps.kickAll {t'} (h : Keeps s t) : Keeps s (t.kickAll t') :=
  .kickPpe (.kickColl (.kickFab (.kick h)))

theorem Keeps.countDone {t' m j} (h : Keeps s t) : Keeps s (t.countDone t' m j) :=
  .ite h (.ite (.countExpired h) (.arrive h))

theorem Keeps.completeMove {t' m j} (h : Keeps s t) : Keeps s (t.completeMove t' m j) :=
  .ite (.ite (.restartTile h) h) (.kickAll (.countDone h))

theorem Out.Keeps.execMoveCompletion {t' id} (h : Machine.Keeps s t) : (execMoveCompletion t' id t).Keeps s := by
  unfold Machine.execMoveCompletion
  refine .when_ h ?_
  dsimp only
  split
  · exact .ite (.kickAll h) (.completeMove (.kickAll h))
  · exact .kickAll h

theorem Keeps.walked {u j addr write mv} (h : Keeps s t) : Keeps s (t.walked u j addr write mv) := by
  unfold State.walked
  dsimp only
  split
  · split
    · exact .ite (.suspendCopy (.translate h)) (.translate h)
    · exact .translate h
  · exact .translate h

theorem Out.Keeps.execWalkComplete {u job addr write mv} (h : Machine.Keeps s t) :
    (execWalkComplete u job addr write mv t).Keeps s := by
  unfold Machine.execWalkComplete
  split
  · exact .next h
  · exact .when_ h (.walked h)

theorem Out.Keeps.execHoldTimeout {t' id} (h : Machine.Keeps s t) : (execHoldTimeout t' id t).Keeps s := by
  unfold Machine.execHoldTimeout
  split
  · exact .when_ h (.endJob (.bump h))
  · exact .next h

theorem Keeps.fabMove {t' w op} (h : Keeps s t) : Keeps s (t.fabMove t' w op) := by
  unfold State.fabMove
  refine .kickFab ?_
  refine .decode h fun _ _ _ h₁ => ?_
  dsimp only
  split
  · exact trivial
  · exact .ite h₁ h₁

theorem Out.Keeps.execPut {t' w} (h : Machine.Keeps s t) : (execPut t' w t).Keeps s :=
  .next (.fabMove h)

theorem Out.Keeps.execGet {t' w} (h : Machine.Keeps s t) : (execGet t' w t).Keeps s :=
  .next (.fabMove h)

theorem Out.Keeps.execAtomic {t' w} (h : Machine.Keeps s t) : (execAtomic t' w t).Keeps s :=
  .next (.fabMove h)

theorem Out.Keeps.execSignal {t' w} (h : Machine.Keeps s t) : (execSignal t' w t).Keeps s :=
  .next (.fabMove h)

theorem Out.Keeps.execFence {t' w} (h : Machine.Keeps s t) : (execFence t' w t).Keeps s :=
  .next (.decode h fun _ _ _ h₁ => .ite trivial h₁)

theorem Out.Keeps.execCollIssue {t' w} (h : Machine.Keeps s t) : (execCollIssue t' w t).Keeps s := by
  unfold Machine.execCollIssue
  refine .next ?_
  refine .kickColl ?_
  refine .decode h fun _ _ _ h₁ => ?_
  dsimp only
  split
  · exact trivial
  · refine .ite (.bump h₁) ?_
    split
    · exact .modCtx (.bump h₁)
    · exact .modColl (.bump h₁)

theorem Keeps.completeColl {x c} (h : Keeps s t) : Keeps s (t.completeColl x c) :=
  .collFrames (.modJobTile (.ite (.arrive (.bump (.dropCtx (.collRecord (.ite (.setFlag (.bump h)) h))))) (.bump (.dropCtx
    (.collRecord (.ite (.setFlag (.bump h)) h))))))

theorem Out.Keeps.execCollComplete {group seq} (h : Machine.Keeps s t) : (execCollComplete group seq t).Keeps s := by
  unfold Machine.execCollComplete
  split
  · exact .next h
  · split
    · exact .next h
    · exact .when_ h (.completeColl h)

theorem Out.Keeps.execCollTimeout {group seq} (h : Machine.Keeps s t) : (execCollTimeout group seq t).Keeps s := by
  unfold Machine.execCollTimeout
  split
  · exact .when_ h (.collFault (.bump h))
  · exact .next h

theorem Keeps.escRefused {x c y} (h : Keeps s t) : Keeps s (t.escRefused x c y) :=
  .ite (.escFallback (.bump (.modCtx h))) (.modCtx (.modCtx h))

theorem Keeps.granted {p x g c y slots ordered} (h : Keeps s t) : Keeps s (t.granted p x g c y slots ordered) := by
  unfold State.granted
  extract_lets +onlyGivenNames asked t₁ t₂ t₃ t₄ y' x' t₅ t₆ t₇
  have h₁ : Keeps s t₁ := .bump h
  have h₂ : Keeps s t₂ := .ite (.bump h₁) h₁
  have h₃ : Keeps s t₃ := .ite h₂ (.bump h₂)
  have h₅ : Keeps s t₅ := .modCtx (.modBook h₃)
  exact .ite (.escRefused (.bump (.escRelease h₅))) (.escData (.ite (.bump h₅) h₅))

theorem Keeps.lateGrant {x y slots ordered} (h : Keeps s t) : Keeps s (t.lateGrant x y slots ordered) :=
  .strayGrant (.ite (.bump h) h)

theorem Out.Keeps.execGrant {p key slots ordered} (h : Machine.Keeps s t) : (execGrant p key slots ordered t).Keeps s := by
  unfold Machine.execGrant
  refine .when_ h ?_
  split
  · exact .strayGrant h
  · exact .ite (.granted h) (.ite (.lateGrant h) h)

theorem Out.Keeps.execRefuse {p key reason} (h : Machine.Keeps s t) : (execRefuse p key reason t).Keeps s := by
  unfold Machine.execRefuse
  split
  · exact .next h
  · exact .when_ h (.escRefused (.bump h))

theorem Keeps.resultIn {p x g c y offset payload} (h : Keeps s t) : Keeps s (t.resultIn p x g c y offset payload) :=
  .ite (.modCtx (.bump h)) (.ite (.collRun (.escRelease (.modCtx (.bump h)))) (.escData (.modCtx (.bump h))))

theorem Out.Keeps.execResult {p key round offset payload} (h : Machine.Keeps s t) :
    (execResult p key round offset payload t).Keeps s := by
  unfold Machine.execResult
  split
  · exact .next h
  · exact .when_ h (.resultIn h)

theorem Out.Keeps.execReleased {p key} (h : Machine.Keeps s t) : (execReleased p key t).Keeps s := by
  unfold Machine.execReleased
  refine .when_ h ?_
  split
  · exact .bump h
  · exact .modBook h

theorem Out.Keeps.execEscWaitExpiry {p key} (h : Machine.Keeps s t) : (execEscWaitExpiry p key t).Keeps s := by
  unfold Machine.execEscWaitExpiry
  split
  · exact .next h
  · exact .when_ h (.escFallback (.bump h))

theorem Out.Keeps.execEscrowBackoff {p key} (h : Machine.Keeps s t) : (execEscrowBackoff p key t).Keeps s := by
  unfold Machine.execEscrowBackoff
  split
  · exact .next h
  · split
    · exact .when_ h (.escRequest (.modCtx h))
    · exact .next h

theorem Out.Keeps.execEscTimeout {p key} (h : Machine.Keeps s t) : (execEscTimeout p key t).Keeps s := by
  unfold Machine.execEscTimeout
  split
  · exact .next h
  · exact .when_ h (.escFallback (.bump (.bump (.modCtx h))))

theorem Keeps.flushReceipts {src} (h : Keeps s t) : Keeps s (t.flushReceipts src) := by
  unfold State.flushReceipts
  split
  · exact h
  · exact .foldl (fun _ _ h₁ => h₁) h

theorem Keeps.receiptFor {src seq ce last} (h : Keeps s t) : Keeps s (t.receiptFor src seq ce last) :=
  .ite (.flushReceipts h) h

theorem Keeps.lastApplied {q} (h : Keeps s t) : Keeps s (t.lastApplied q) :=
  .ite h (.flushReceipts h)

theorem Keeps.nak {src seq r} (h : Keeps s t) : Keeps s (t.nak src seq r) :=
  .bump h

theorem Keeps.inboundMap {o v n rd wr} (h : Keeps s t) : Keeps s (t.inboundMap o v n rd wr).1 := by
  refine .foldl_fst (fun _ _ h₁ => ?_) h
  split
  · split
    next u₁ x e₁ =>
      have h₁' : Keeps s u₁ := .fst e₁ (.ite_fst (.translate h₁) h₁)
      split
      · exact h₁'
      · split
        next u₂ y e₂ =>
          have h₂ : Keeps s u₂ := .fst e₂ (.ite_fst (.translate h₁') h₁')
          split
          · exact h₂
          · split <;> exact h₂
  · exact h₁

theorem Keeps.nakFault {q o f} (h : Keeps s t) : Keeps s (t.nakFault q o f) :=
  .nak (.fault h)

theorem Keeps.readPieces {ps} (h : Keeps s t) : Keeps s (t.readPieces ps).1 := by
  unfold State.readPieces
  refine .foldl_fst (fun _ _ h₁ => ?_) h
  split
  · exact h₁
  · dsimp only
    split <;> exact .checkRead h₁

theorem Keeps.countRx {q} (h : Keeps s t) : Keeps s (t.countRx q) :=
  .bump (.bump h)

theorem Keeps.atomicValue {a aop old x cmp} (h : Keeps s t) : Keeps s (t.atomicValue a aop old x cmp).1 := by
  unfold State.atomicValue
  refine .ite_fst (.bump h) ?_
  split
  · exact .ite_fst (.bump h) (.bump h)
  · exact h

theorem Keeps.applyPut {q o ps} (h : Keeps s t) : Keeps s (t.applyPut q o ps) :=
  .receiptFor (.countRx (.ite (.arrive (.foldl (fun _ _ h₁ => .writePhys h₁) h)) (.foldl (fun _ _ h₁ => .writePhys h₁) h)))

theorem Keeps.applyGet {q o e ps dup} (h : Keeps s t) : Keeps s (t.applyGet q o e ps dup) := by
  unfold State.applyGet
  split
  · next _ u₁ _ e₁ =>
      have h₁ : Keeps s u₁ := .fst e₁ (.readPieces h)
      exact .nakFault h₁
  · next _ u₁ _ e₁ =>
      have h₁ : Keeps s u₁ := .fst e₁ (.readPieces h)
      exact .lastApplied (.ite (.ite h₁ h₁) (.countRx (.ite h₁ h₁)))

theorem Keeps.applyAtomic {q o e ps} (h : Keeps s t) : Keeps s (t.applyAtomic q o e ps) := by
  unfold State.applyAtomic
  split
  · next _ _ _ _ u₁ _ e₁ =>
      have h₁ : Keeps s u₁ := .fst e₁ (.readPieces h)
      exact .lastApplied (.countRx (.ite (.arrive (.bump (.writePhys (.atomicValue h₁)))) (.bump (.writePhys
        (.atomicValue h₁)))))
  · next _ _ _ u₁ _ e₁ =>
      have h₁ : Keeps s u₁ := .fst e₁ (.readPieces h)
      exact .nakFault h₁
  · next _ _ u₁ _ e₁ =>
      have h₁ : Keeps s u₁ := .fst e₁ (.readPieces h)
      exact h₁

theorem Keeps.applySignal {q o} (h : Keeps s t) : Keeps s (t.applySignal q o) :=
  .receiptFor (.countRx (.arrive h))

theorem Keeps.admitRequest {q dup} (h : Keeps s t) : Keeps s (t.admitRequest q dup) := by
  unfold State.admitRequest
  split
  · exact .nak h
  · refine .ite (.nak h) ?_
    refine .ite (.nak (.bump h)) ?_
    refine .ite (.applySignal h) ?_
    refine .ite ?_ ?_
    · split
      · next _ u₁ e₁ =>
          have h₁ : Keeps s u₁ := .fst e₁ (.collData h)
          exact .receiptFor (.countRx h₁)
      · next _ u₁ _ e₁ =>
          have h₁ : Keeps s u₁ := .fst e₁ (.collData h)
          exact .nak h₁
    · split
      · next _ u₁ e₁ =>
          have h₁ : Keeps s u₁ := .fst e₁ (.inboundMap h)
          exact .nak h₁
      · next _ u₁ _ e₁ =>
          have h₁ : Keeps s u₁ := .fst e₁ (.inboundMap h)
          exact .nakFault h₁
      · next _ u₁ _ e₁ =>
          have h₁ : Keeps s u₁ := .fst e₁ (.inboundMap h)
          exact .ite (.applyPut h₁) (.ite (.applyGet h₁) (.applyAtomic h₁))

theorem Keeps.accept {q} (h : Keeps s t) : Keeps s (t.accept q) := by
  unfold State.accept
  refine .ite (.nak h) ?_
  refine .ite (.nak h) ?_
  refine .ite (.receiptFor (.bump h)) ?_
  split
  · exact .admitRequest h
  · dsimp only
    split
    · exact .bump h
    · exact .ite (.admitRequest (.bump h)) (.receiptFor (.bump h))

theorem Keeps.request {q} (h : Keeps s t) : Keeps s (t.request q) :=
  .ite h (.accept h)

theorem Keeps.drainAtomics {f} (h : Keeps s t) : Keeps s (t.drainAtomics f) := by
  induction f generalizing t with
  | zero => exact h
  | succ f ih =>
    unfold State.drainAtomics
    split
    · exact h
    · exact .ite h (ih (.accept h))

theorem Keeps.answered {o} (h : Keeps s t) : Keeps s (t.answered o) := by
  unfold State.answered
  refine .foldl (fun _ _ h₁ => .collPump h₁) ?_
  split
  · exact .collRun (.credited h)
  · exact .credited h

theorem Keeps.ownerFault {o f} (h : Keeps s t) : Keeps s (t.ownerFault o f) := by
  unfold State.ownerFault
  split
  · exact .failMove h
  · split
    · exact .ite h (.collFault h)
    · exact h

theorem Keeps.peerOwner {q r} (h : Keeps s t) : Keeps s (t.peerOwner q r).2 :=
  .ite_snd h (.ite_snd h h)

theorem Keeps.nakEntry {seq code} (h : Keeps s t) : Keeps s (t.nakEntry seq code) := by
  unfold State.nakEntry
  dsimp only
  split
  · exact .bump (.bump h)
  · split
    · exact .bump h
    · exact .bump h
    · exact .bump h
    · exact .ite (.bump h) (.resend (.bump h))
    · exact .ownerFault (.bump (.retire (.peerOwner (.bump h))))

theorem Keeps.receiptSeq {seq ce} (h : Keeps s t) : Keeps s (t.receiptSeq seq ce) := by
  unfold State.receiptSeq
  split
  · exact .bump h
  · exact .answered (.bump (.retire (.ite (.cutRate h) h)))

theorem Keeps.getData {seq ce bs} (h : Keeps s t) : Keeps s (t.getData seq ce bs) := by
  unfold State.getData
  split
  · exact .bump (.bump h)
  · next e _ =>
    extract_lets +onlyGivenNames t₁ t₂
    have h₁ : Keeps s t₁ := .ite (.cutRate h) h
    have h₂ : Keeps s t₂ := .bump (.retire h₁)
    split
    · split
      · exact .bump h₂
      · extract_lets +onlyGivenNames c a bs r
        have hr : Keeps s r.1 := by
          unfold r
          refine .ite_fst (.writeJob h₂) ?_
          split
          · exact .writePhys h₂
          · exact h₂
        clear_value r
        refine .ite (.answered (.bump h₂)) (.ite (.answered (.countExpired h₂)) ?_)
        split
        · exact .ownerFault hr
        · exact .answered (.ite (.arrive hr) hr)
    · exact .bump h₂

theorem Keeps.atomicAnswer {seq ce old} (h : Keeps s t) : Keeps s (t.atomicAnswer seq ce old) := by
  unfold State.atomicAnswer
  split
  · exact .bump h
  · dsimp only
    split
    · exact .answered (.modJobTile (.bump (.retire (.ite (.cutRate h) h))))
    · exact .bump (.bump (.retire (.ite (.cutRate h) h)))

theorem Keeps.lostSeq {seq} (h : Keeps s t) : Keeps s (t.lostSeq seq) := by
  unfold State.lostSeq
  split
  · exact h
  · exact .resend h

end
end Sys2Proof.Machine
end

section
/-! SUPPORT. Invariant (O5, O8). What the operations of the host interfaces keep. -/

-- Proofs are checked as they come: checked beside the rest, they hold their memory until the whole text is.
set_option Elab.async false

namespace Sys2Proof.Machine
section
variable {s t u : State}

theorem Keeps.modQp {n f} (h : Keeps s t) : Keeps s (t.modQp n f) := h

theorem Keeps.transmit {x} (h : Keeps s t) : Keeps s (t.transmit x) := by
  unfold State.transmit
  refine .ite h ?_
  dsimp only
  split
  · exact .ite (.bump (.bump (.bump h))) (.bump (.bump h))
  · exact .bump (.bump h)

theorem Keeps.sendNet {q o packets bytes} (h : Keeps s t) : Keeps s (t.sendNet q o packets bytes) :=
  .ite h (.transmit h)

theorem Keeps.hubWrite {j a bs} (h : Keeps s t) : Keeps s (t.hubWrite j a bs).1 := by
  unfold State.hubWrite
  split
  · next _ u₁ _ e₁ =>
      have h₁ : Keeps s u₁ := .fst e₁ (.inboundMap h)
      exact .foldl (fun _ _ h₂ => .writePhys h₂) h₁
  · next _ u₁ _ e₁ =>
      have h₁ : Keeps s u₁ := .fst e₁ (.inboundMap h)
      exact h₁
  · next _ u₁ e₁ =>
      have h₁ : Keeps s u₁ := .fst e₁ (.inboundMap h)
      exact h₁

theorem Keeps.hubRead {j a n} (h : Keeps s t) : Keeps s (t.hubRead j a n).1 := by
  unfold State.hubRead
  split
  · next _ u₁ _ e₁ =>
      have h₁ : Keeps s u₁ := .fst e₁ (.inboundMap h)
      split
      · next _ u₂ _ e₂ =>
          have h₂ : Keeps s u₂ := .fst e₂ (.readPieces h₁)
          exact h₂
      · next _ u₂ _ e₂ =>
          have h₂ : Keeps s u₂ := .fst e₂ (.readPieces h₁)
          exact h₂
  · next _ u₁ _ e₁ =>
      have h₁ : Keeps s u₁ := .fst e₁ (.inboundMap h)
      exact h₁
  · next _ u₁ e₁ =>
      have h₁ : Keeps s u₁ := .fst e₁ (.inboundMap h)
      exact h₁

theorem Keeps.rdmaFault {j f} (h : Keeps s t) : Keeps s (t.rdmaFault j f) :=
  .fault h

theorem Keeps.complete {n wrid bytes imm op st hasImm} (h : Keeps s t) :
    Keeps s (t.complete n wrid bytes imm op st hasImm) := by
  unfold State.complete
  split
  · exact h
  · split
    · exact h
    · extract_lets e
      split
      next u₁ f e₁ =>
        have h₁ : Keeps s u₁ := .fst e₁ (.hubWrite h)
        extract_lets t₂ t₃
        have h₂ : Keeps s t₂ := by
          unfold t₂
          split
          · exact .rdmaFault h₁
          · exact h₁
        have h₃ : Keeps s t₃ := .modQp (.bump h₂)
        exact .ite (.arrive h₃) h₃

theorem Keeps.endWqe {n w st} (h : Keeps s t) : Keeps s (t.endWqe n w st) :=
  .ite (.modQp h) (.complete (.modQp h))

theorem Keeps.wqeBytes {q j k} (h : Keeps s t) : Keeps s (t.wqeBytes q j k).1 :=
  .hubRead h

theorem Keeps.flushPosted {n f} (h : Keeps s t) : Keeps s (State.flushPosted n f t) := by
  induction f generalizing t with
  | zero => exact h
  | succ f ih =>
    unfold State.flushPosted
    split
    · exact h
    · refine .ite h ?_
      split
      · exact h
      · exact ih (.complete (.modQp (.wqeBytes h)))

theorem Keeps.flushQp {n} (h : Keeps s t) : Keeps s (t.flushQp n) := by
  unfold State.flushQp
  split
  · exact h
  · exact .flushPosted (.foldl (fun _ _ h₁ => .endWqe h₁) h)

theorem Keeps.qpError {n} (h : Keeps s t) : Keeps s (t.qpError n) := by
  unfold State.qpError
  split
  · exact h
  · exact .ite h (.flushQp (.modQp (.bump h)))

theorem Keeps.qpErrors {p} (h : Keeps s t) : Keeps s (t.qpErrors p) :=
  .foldl (fun _ _ h₁ => .qpError h₁) h

theorem Keeps.sendWqe {q j w k c} (h : Keeps s t) : Keeps s (t.sendWqe q j w k c).1 := by
  unfold State.sendWqe
  dsimp only
  split
  · exact .ite_fst h (.hubRead h)
  · exact .sendNet (.ite_fst h (.hubRead h))

theorem Keeps.pumpQp {n f} (h : Keeps s t) : Keeps s (State.pumpQp n f t) := by
  induction f generalizing t with
  | zero => exact h
  | succ f ih =>
    unfold State.pumpQp
    split
    · exact h
    · next q _ =>
      refine .ite h ?_
      split
      · exact h
      · next j _ =>
        have h₁ : Keeps s (t.wqeBytes q j q.sqNext).1 := .wqeBytes h
        dsimp only
        split
        · exact .qpError (.complete (.modQp (.rdmaFault h₁)))
        · split
          · exact .qpError (.complete (.modQp h₁))
          · refine .ite h₁ ?_
            split
            · next _ u _ e => exact .qpError (.complete (.modQp (.rdmaFault (.fst e (.sendWqe h₁) : Keeps s u))))
            · next _ u e => exact ih (.modQp (.fst e (.sendWqe h₁) : Keeps s u))

theorem Keeps.workQp {n} (h : Keeps s t) : Keeps s (t.workQp n) := by
  unfold State.workQp
  split
  · exact h
  · exact .pumpQp h

theorem Keeps.releaseTx {h'} (h : Keeps s t) : Keeps s (t.releaseTx h') :=
  .foldl (fun _ _ h₁ => .workQp h₁) (.foldl (fun _ _ h₁ => .transmit h₁) h)

theorem Keeps.doorbell {n} (h : Keeps s t) : Keeps s (t.doorbell n) := by
  unfold State.doorbell
  split
  · exact h
  · split
    · exact h
    · dsimp only
      split
      · next _ u₁ _ e₁ =>
          have h₁ : Keeps s u₁ := .fst e₁ (.hubRead (.modQp h))
          exact .rdmaFault h₁
      · next _ u₁ _ e₁ =>
          have h₁ : Keeps s u₁ := .fst e₁ (.hubRead (.modQp h))
          exact .ite (.flushPosted (.modQp h₁)) (.workQp (.modQp h₁))

theorem Keeps.resendWqe {q j w psn mask} (h : Keeps s t) : Keeps s (t.resendWqe q j w psn mask) := by
  unfold State.resendWqe
  refine .ite h ?_
  dsimp only
  split
  · next _ u₁ _ e₁ =>
      have h₁ : Keeps s u₁ := .fst e₁ (.foldl_fst (fun _ _ h₁ => .ite_fst h₁ (.sendWqe h₁)) (.bump h))
      exact .qpError (.endWqe (.rdmaFault h₁))
  · next _ u₁ e₁ =>
      have h₁ : Keeps s u₁ := .fst e₁ (.foldl_fst (fun _ _ h₁ => .ite_fst h₁ (.sendWqe h₁)) (.bump h))
      exact .modQp h₁

theorem Keeps.resendFrom {n psn mask} (h : Keeps s t) : Keeps s (t.resendFrom n psn mask) := by
  unfold State.resendFrom
  split
  · exact h
  · refine .ite (.modQp h) ?_
    split
    · exact h
    · exact .foldl (fun _ _ h₁ => .ite h₁ (.resendWqe h₁)) h

theorem Keeps.retryQp {n psn mask} (h : Keeps s t) : Keeps s (t.retryQp n psn mask) := by
  unfold State.retryQp
  split
  · exact h
  · split
    · exact h
    · exact .ite (.qpError (.endWqe h)) (.resendFrom (.modQp h))

theorem Keeps.cnpIn {n} (h : Keeps s t) : Keeps s (t.cnpIn n) := by
  unfold State.cnpIn
  split
  · exact h
  · exact .modQp (.bump h)

theorem Keeps.rateTick {n} (h : Keeps s t) : Keeps s (t.rateTick n) := by
  unfold State.rateTick
  split
  · exact h
  · exact .modQp h

theorem Keeps.rtt {n rttNs} (h : Keeps s t) : Keeps s (t.rtt n rttNs) := by
  unfold State.rtt
  split
  · exact h
  · refine .ite (.ite (.modQp h) (.modQp (.modQp h))) ?_
    refine .ite ?_ (.modQp h)
    split
    · exact .modQp h
    · exact .ite (.modQp h) h

theorem Keeps.ackTo {n psn f} (h : Keeps s t) : Keeps s (State.ackTo n psn f t) := by
  induction f generalizing t with
  | zero => exact h
  | succ f ih =>
    unfold State.ackTo
    split
    · exact .ite h (ih (.endWqe (.modQp h)))
    · exact h

theorem Keeps.failOldest {n st} (h : Keeps s t) : Keeps s (t.failOldest n st) := by
  unfold State.failOldest
  split
  · exact .qpError (.endWqe h)
  · exact h

theorem Keeps.roceAnswer {n a} (h : Keeps s t) : Keeps s (t.roceAnswer n a) := by
  unfold State.roceAnswer
  split
  · exact h
  · split
    · exact .workQp (.ackTo (.ite (.rtt h) h))
    · split
      · refine .ite h ?_
        split
        · next _ u₁ _ e₁ =>
            have h₁ : Keeps s u₁ := .fst e₁ (.hubWrite h)
            exact .qpError (.endWqe (.rdmaFault h₁))
        · next _ u₁ e₁ =>
            have h₁ : Keeps s u₁ := .fst e₁ (.hubWrite h)
            exact .workQp (.endWqe (.modQp h₁))
      · exact h
    · exact .retryQp (.ackTo h)
    · exact .ite (.failOldest (.ackTo h)) (.modQp (.ackTo h))
    · exact .failOldest h
    · exact .failOldest h
    · exact .failOldest h

theorem Keeps.roceNak {q c o} (h : Keeps s t) : Keeps s (t.roceNak q c o) :=
  .qpError (.sendNet (.bump h))

theorem Keeps.takeRecv {q j} (h : Keeps s t) : Keeps s (t.takeRecv q j).1 := by
  unfold State.takeRecv
  refine .ite_fst h ?_
  refine .ite_fst h ?_
  dsimp only
  split
  · next _ u₁ _ e₁ =>
      have h₁ : Keeps s u₁ := .fst e₁ (.hubRead h)
      exact h₁
  · next _ u₁ _ e₁ =>
      have h₁ : Keeps s u₁ := .fst e₁ (.hubRead h)
      exact h₁

theorem Keeps.roceAck {q r} (h : Keeps s t) : Keeps s (t.roceAck q r) :=
  .sendNet h

theorem Keeps.roceFault {q psn f} (h : Keeps s t) : Keeps s (t.roceFault q psn f) :=
  .ite (.roceNak (.rdmaFault h)) (.roceNak (.rdmaFault h))

theorem Keeps.applyRoce {q j r} (h : Keeps s t) : Keeps s (t.applyRoce q j r).1 := by
  unfold State.applyRoce
  dsimp only
  split
  · exact .roceNak h
  · refine .ite_fst (.roceNak h) ?_
    split
    · next _ u₁ _ e₁ =>
        have h₁ : Keeps s u₁ := .fst e₁ (.hubRead h)
        exact .roceFault h₁
    · next _ u₁ _ e₁ =>
        have h₁ : Keeps s u₁ := .fst e₁ (.hubRead h)
        exact .sendNet h₁
  · refine .ite_fst (.roceNak h) ?_
    split
    · next _ u₁ _ e₁ =>
        have h₁ : Keeps s u₁ := .fst e₁ (.hubWrite h)
        exact .roceFault h₁
    · next _ u₁ e₁ =>
        have h₁ : Keeps s u₁ := .fst e₁ (.hubWrite h)
        exact .roceAck h₁
  · refine .ite_fst (.roceNak h) ?_
    split
    · next _ u₁ e₁ =>
        have h₁ : Keeps s u₁ := .fst e₁ (.takeRecv h)
        exact .sendNet (.bump h₁)
    · next _ u₁ _ e₁ =>
        have h₁ : Keeps s u₁ := .fst e₁ (.takeRecv h)
        exact .roceFault h₁
    · next _ u₁ _ _ _ e₁ =>
        have h₁ : Keeps s u₁ := .fst e₁ (.takeRecv h)
        split
        · next _ u₂ _ e₂ =>
            have h₂ : Keeps s u₂ := .fst e₂ (.hubWrite h₁)
            exact .roceFault h₂
        · next _ u₂ e₂ =>
            have h₂ : Keeps s u₂ := .fst e₂ (.hubWrite h₁)
            exact .roceAck (.complete (.modQp h₂))
  · split
    · next _ u₁ e₁ =>
        have h₁ : Keeps s u₁ := .fst e₁ (.takeRecv h)
        exact .sendNet (.bump h₁)
    · next _ u₁ _ e₁ =>
        have h₁ : Keeps s u₁ := .fst e₁ (.takeRecv h)
        exact .roceFault h₁
    · next _ u₁ _ _ _ e₁ =>
        have h₁ : Keeps s u₁ := .fst e₁ (.takeRecv h)
        refine .ite_fst (.roceNak h₁) ?_
        split
        · next _ u₂ _ e₂ =>
            have h₂ : Keeps s u₂ := .fst e₂ (.hubWrite h₁)
            exact .roceFault h₂
        · next _ u₂ e₂ =>
            have h₂ : Keeps s u₂ := .fst e₂ (.hubWrite h₁)
            exact .roceAck (.complete (.modQp h₂))

theorem Keeps.takeBeyond {n f} (h : Keeps s t) : Keeps s (State.takeBeyond n f t) := by
  induction f generalizing t with
  | zero => exact h
  | succ f ih =>
    unfold State.takeBeyond
    split
    · exact h
    · split
      · exact .ite (.applyRoce h) (ih (.modQp (.applyRoce h)))
      · exact h

theorem Keeps.nakGap {n} (h : Keeps s t) : Keeps s (t.nakGap n) := by
  unfold State.nakGap
  split
  · exact h
  · exact .ite h (.modQp (.sendNet h))

theorem Keeps.keepBeyond {q r} (h : Keeps s t) : Keeps s (t.keepBeyond q r) :=
  .ite (.nakGap h) (.ite (.nakGap (.bump h)) (.ite (.nakGap h) (.ite (.nakGap h) (.nakGap (.modQp h)))))

theorem Keeps.cnpOut {q} (h : Keeps s t) : Keeps s (t.cnpOut q) :=
  .ite (.modQp (.sendNet (.bump h))) h

theorem Keeps.roceIn {q r} (h : Keeps s t) : Keeps s (t.roceIn q r) := by
  unfold State.roceIn
  dsimp only
  split
  · exact .ite (.cnpOut h) h
  · refine .ite (.ite (.applyRoce (.ite (.cnpOut h) h)) (.takeBeyond (.modQp (.applyRoce (.ite (.cnpOut h) h))))) ?_
    refine .ite (.keepBeyond (.ite (.cnpOut h) h)) ?_
    split
    · exact .applyRoce (.ite (.cnpOut h) h)
    · exact .ite (.cnpOut h) h
    · exact .roceAck (.ite (.cnpOut h) h)

theorem Keeps.dropQp {n} (h : Keeps s t) : Keeps s (t.dropQp n) :=
  .flushQp h

theorem Keeps.dropRdma {j} (h : Keeps s t) : Keeps s (t.dropRdma j) :=
  .foldl (fun _ _ h₁ => .dropQp h₁) h

theorem Keeps.setAddr {i ix a} (h : Keeps s t) : Keeps s (t.setAddr i ix a) :=
  .ite h (.ite (.qpErrors h) h)

theorem Keeps.drainHost (h : Keeps s t) : Keeps s t.drainHost :=
  .foldl (fun _ _ h₁ => .ite h₁ h₁) h

end
end Sys2Proof.Machine
end

section
/-! SUPPORT. Invariant (O5, O8). What the moves of a sequencer, jobs and the commands of the fabric endpoint keep. -/

-- Proofs are checked as they come: checked beside the rest, they hold their memory until the whole text is.
set_option Elab.async false

namespace Sys2Proof.Machine
section
variable {s t u : State}

theorem Out.Keeps.execJump {t' w} (h : Machine.Keeps s t) : (execJump t' w t).Keeps s := by
  unfold Machine.execJump
  refine .next ?_
  refine .decode h fun _ _ _ h₁ => ?_
  refine .ite trivial ?_
  split
  · exact trivial
  · exact h₁

theorem Out.Keeps.execBranch {t' w} (h : Machine.Keeps s t) : (execBranch t' w t).Keeps s :=
  .next (.decode h fun _ _ _ h₁ => .ite trivial (.ite trivial h₁))

theorem Out.Keeps.execLoop {t' w} (h : Machine.Keeps s t) : (execLoop t' w t).Keeps s :=
  .next (.decode h fun _ _ _ h₁ => .ite trivial (.ite trivial (.ite trivial (.ite trivial (.ite h₁ h₁)))))

theorem Out.Keeps.execCall {t' w} (h : Machine.Keeps s t) : (execCall t' w t).Keeps s := by
  unfold Machine.execCall
  refine .next ?_
  refine .decode h fun _ _ _ h₁ => ?_
  refine .ite trivial ?_
  split
  · exact trivial
  · exact .ite trivial h₁

theorem Out.Keeps.execReturn {t' w} (h : Machine.Keeps s t) : (execReturn t' w t).Keeps s := by
  unfold Machine.execReturn
  refine .next ?_
  refine .decode h fun _ _ _ h₁ => ?_
  refine .ite trivial ?_
  split
  · exact trivial
  · exact h₁

theorem Keeps.markWork {j} (h : Keeps s t) : Keeps s (t.markWork j) := by
  unfold State.markWork
  split
  · exact h
  · exact .ite h h

theorem Keeps.noteWork {t'} (h : Keeps s t) : Keeps s (t.noteWork t') := by
  unfold State.noteWork
  dsimp only
  split
  · exact h
  · exact .ite (.markWork h) h

theorem Out.Keeps.execHalt {t' w} (h : Machine.Keeps s t) : (execHalt t' w t).Keeps s :=
  .next (.checkDone (.noteWork (.decode h fun _ _ _ h₁ => .ite trivial (.ite trivial (Machine.Keeps.ite (.arrive h₁) h₁)))))

theorem Out.Keeps.execParkWake {t'} (h : Machine.Keeps s t) : (execParkWake t' t).Keeps s := by
  unfold Machine.execParkWake
  exact .when_ h (.wake (.bump h))

theorem Out.Keeps.execWaitTally {t' w} (h : Machine.Keeps s t) : (execWaitTally t' w t).Keeps s :=
  .next (.decode h fun _ _ _ h₁ => .ite trivial (.ite trivial (.ite h₁ h₁)))

theorem Out.Keeps.execWaitSatisfied {t'} (h : Machine.Keeps s t) : (execWaitSatisfied t' t).Keeps s := by
  unfold Machine.execWaitSatisfied
  dsimp only
  split
  · exact .next h
  · refine .when_ h ?_
    split
    · exact .wake (.ite (.bump h) h)
    · exact .wake h

theorem Out.Keeps.execWaitTimeout {t'} (h : Machine.Keeps s t) : (execWaitTimeout t' t).Keeps s := by
  unfold Machine.execWaitTimeout
  dsimp only
  split
  · exact .when_ h (.wake (.bump h))
  · exact .next h

theorem Out.Keeps.execWaitEpoch {t' w} (h : Machine.Keeps s t) : (execWaitEpoch t' w t).Keeps s :=
  .next (.noteWork (.decode h fun _ _ _ h₁ => .ite trivial (.ite trivial h₁)))

theorem Out.Keeps.execYield {t' w} (h : Machine.Keeps s t) : (execYield t' w t).Keeps s :=
  .ite (.next h) (.next (.decodeMove h fun _ _ _ h₁ => .ite trivial (.ite h₁ h₁)))

theorem Out.Keeps.execSalu {t' w} (h : Machine.Keeps s t) : (execSalu t' w t).Keeps s := by
  unfold Machine.execSalu
  refine .ite (.next h) ?_
  refine .next ?_
  refine .decode h fun _ _ _ h₁ => ?_
  refine .ite trivial ?_
  split
  · exact trivial
  · exact h₁

theorem Out.Keeps.execTset {t' w} (h : Machine.Keeps s t) : (execTset t' w t).Keeps s :=
  .ite (.next h) (.next (.decode h fun _ _ _ h₁ => .ite trivial (.bump (.setTally h₁))))

theorem Out.Keeps.execTadd {t' w} (h : Machine.Keeps s t) : (execTadd t' w t).Keeps s :=
  .ite (.next h) (.next (.decode h fun _ _ _ h₁ => .ite trivial (.addTally h₁)))

theorem Out.Keeps.execScmp {t' w} (h : Machine.Keeps s t) : (execScmp t' w t).Keeps s := by
  unfold Machine.execScmp
  refine .next ?_
  refine .decode h fun _ _ _ h₁ => ?_
  refine .ite trivial ?_
  split
  · exact trivial
  · exact h₁

theorem Out.Keeps.execSldi {t' w} (h : Machine.Keeps s t) : (execSldi t' w t).Keeps s :=
  .next (.decode h fun _ _ _ h₁ => .ite trivial h₁)

theorem Out.Keeps.execSld {t' w} (h : Machine.Keeps s t) : (execSld t' w t).Keeps s := by
  unfold Machine.execSld
  refine .next ?_
  refine .decode h fun _ _ _ h₁ => ?_
  refine .ite trivial ?_
  split
  · exact trivial
  · split
    · exact trivial
    · exact h₁

theorem Out.Keeps.execSst {t' w} (h : Machine.Keeps s t) : (execSst t' w t).Keeps s := by
  unfold Machine.execSst
  refine .next ?_
  refine .decode h fun _ _ _ h₁ => ?_
  refine .ite trivial ?_
  split
  · exact trivial
  · exact .writeSram h₁

theorem Out.Keeps.execSread {t' w} (h : Machine.Keeps s t) : (execSread t' w t).Keeps s := by
  unfold Machine.execSread
  refine .next ?_
  refine .decode h fun _ _ _ h₁ => ?_
  refine .ite trivial ?_
  split
  · exact trivial
  · exact h₁

theorem Out.Keeps.execMoveReservedOpcode {t' w} (h : Machine.Keeps s t) : (execMoveReservedOpcode t' w t).Keeps s :=
  .next (.ite h (.decodeMove h fun _ _ _ _ => trivial))

theorem Out.Keeps.execPeriodMark {t' w} (h : Machine.Keeps s t) : (execPeriodMark t' w t).Keeps s := by
  unfold Machine.execPeriodMark
  refine .next ?_
  refine .decode h fun _ _ _ h₁ => ?_
  refine .ite trivial ?_
  refine .ite trivial ?_
  refine .ite trivial ?_
  refine .ite trivial ?_
  refine .ite h₁ ?_
  refine .ite ?_ (.noteWork h₁)
  split
  · next _ u₂ _ e₂ =>
      have h₂ : Machine.Keeps s u₂ := .fst e₂ (.writeJob h₁)
      exact h₂
  · next _ u₂ e₂ =>
      have h₂ : Machine.Keeps s u₂ := .fst e₂ (.writeJob h₁)
      exact h₂

theorem Out.Keeps.execTrace {t' w} (h : Machine.Keeps s t) : (execTrace t' w t).Keeps s := by
  unfold Machine.execTrace
  refine .next ?_
  refine .decode h fun _ _ _ h₁ => ?_
  refine .ite trivial ?_
  refine .ite (.bump h₁) ?_
  dsimp only
  split
  · next _ u₂ _ e₂ =>
      have h₂ : Machine.Keeps s u₂ := .fst e₂ (.writeJob h₁)
      exact h₂
  · next _ u₂ e₂ =>
      have h₂ : Machine.Keeps s u₂ := .fst e₂ (.writeJob h₁)
      split
      · next _ u₃ _ e₃ =>
          have h₃ : Machine.Keeps s u₃ := .fst e₃ (.writeJob h₂)
          exact h₃
      · next _ u₃ e₃ =>
          have h₃ : Machine.Keeps s u₃ := .fst e₃ (.writeJob h₂)
          exact h₃

theorem Out.Keeps.execBreak {t' w} (h : Machine.Keeps s t) : (execBreak t' w t).Keeps s :=
  .next (.decode h fun _ _ _ h₁ => .ite trivial (.ite (.freeze h₁) (.bump h₁)))

theorem Keeps.partAny {t'} (h : Keeps s t) : Keeps s (t.partAny t') := by
  unfold State.partAny
  split
  · exact h
  · exact .part h
  · exact .part h

theorem Keeps.zeroTallies {t'} (h : Keeps s t) : Keeps s (t.zeroTallies t') :=
  .foldl (fun _ _ h₁ => .setTally h₁) h

theorem Keeps.applyHeld {j t'} (h : Keeps s t) : Keeps s (t.applyHeld j t') :=
  .foldl (fun _ _ h₁ => .addTally h₁) h

theorem Keeps.zeroSram {t'} (h : Keeps s t) : Keeps s (t.zeroSram t') :=
  .zero h

theorem Keeps.schedFault {j f} (h : Keeps s t) : Keeps s (t.schedFault j f) :=
  .ite (.endJob (.fault h)) (.fault h)

theorem Keeps.prepareTile {j t'} (h : Keeps s t) : Keeps s (t.prepareTile j t') := by
  unfold State.prepareTile
  extract_lets +onlyGivenNames t₁
  split
  next u₁ img e₁ =>
    have h₁ : Keeps s u₁ := .fst e₁ (.readJob (.zeroSram (.partAny h)))
    extract_lets t₂ t₃ x y t₄ t₅ t₆
    have h₂ : Keeps s t₂ := by
      unfold t₂
      split
      · exact .writeSram h₁
      · exact h₁
    have h₃ : Keeps s t₃ := .zeroTallies h₂
    have h₄ : Keeps s t₄ := .setTile h₃
    have h₅ : Keeps s t₅ := .applyHeld h₄
    have h₆ : Keeps s t₆ := .modJob h₅
    split
    · exact .fetchCheck h₆
    · exact .stopTile h₆

theorem Keeps.writeLines {a bs bad} (h : Keeps s t) : Keeps s (t.writeLines a bs bad) :=
  .foldl (fun _ _ h₁ => .writePhys h₁) h

theorem Keeps.saveTile {j t'} (h : Keeps s t) : Keeps s (t.saveTile j t') := by
  unfold State.saveTile
  refine .modJob (.setTile (.bump ?_))
  split
  · exact h
  · extract_lets u₁ u₂ u₃
    have h₃ : Keeps s u₃ := .writeLines (.writeLines (.writeLines h))
    split
    next bs u e =>
      have h₄ : Keeps s u := .snd e (.freeBytes h₃)
      exact .writeLines h₄

theorem Keeps.flushDie {d} (h : Keeps s t) : Keeps s (t.flushDie d) :=
  .foldl (fun _ _ h₁ => .ite (.flushWhere h₁) h₁) h

theorem Keeps.saveJob {j} (h : Keeps s t) : Keeps s (t.saveJob j) := by
  unfold State.saveJob
  refine .dropPpe ?_
  refine .scheduleJobs ?_
  refine .ite ?_ (.bump (.bump (.foldl (fun _ _ h₁ => .ite (.flushDie h₁) h₁) (.foldl (fun _ _ h₁ => .saveTile h₁) h))))
  split
  · exact .bump (.bump (.bump (.foldl (fun _ _ h₁ => .ite (.flushDie h₁) h₁) (.foldl (fun _ _ h₁ => .saveTile h₁) h))))
  · exact .bump (.bump (.foldl (fun _ _ h₁ => .ite (.flushDie h₁) h₁) (.foldl (fun _ _ h₁ => .saveTile h₁) h)))

theorem Keeps.readLines {a n} (h : Keeps s t) : Keeps s (t.readLines a n).1 :=
  .foldl_fst (fun _ _ h₁ => .checkRead h₁) h

/-- The reader of lines stands for itself here: the kernel would otherwise read every line of the save area. -/
theorem Keeps.restoreTile {j v} (h : Keeps s t) : Keeps s (t.restoreTile j v) := by
  have h₀ : Keeps s (((t.partAny v.tile).zeroSram v.tile).zeroTallies v.tile) := .zeroTallies (.zeroSram (.partAny h))
  have hr : ∀ u a n, Keeps s u → Keeps s (State.readLines u a n).1 := fun _ _ _ h => .readLines h
  conv => enter [2]; fun; fun; fun; delta State.restoreTile
  generalize @State.readLines = read at hr ⊢
  extract_lets +onlyGivenNames n t₀
  change Keeps s t₀ at h₀
  clear_value t₀ n
  extract_lets +onlyGivenNames base x st t₁
  have h₁ : Keeps s t₁ := by
    unfold t₁
    clear_value st
    clear t₁ base x
    as_aux_lemma =>
      split
      · exact .setTile h₀
      · split
        next u₁ bs₁ b₁ e₁ =>
          have h₁ : Keeps s u₁ := .fst e₁ (hr _ _ _ h₀)
          split
          next u₂ bs₂ b₂ e₂ =>
            have h₂ : Keeps s u₂ := .fst e₂ (hr _ _ _ h₁)
            split
            next u₃ bs₃ b₃ e₃ =>
              have h₃ : Keeps s u₃ := .fst e₃ (hr _ _ _ h₂)
              exact .setTile (.same (t := u₃.writeSram (sramBase n) bs₁ false) rfl rfl rfl (.writeSram h₃))
  exact .modTile (Keeps.applyHeld (.bump h₁))

theorem Keeps.restoreJob {j} (h : Keeps s t) : Keeps s (t.restoreJob j) :=
  .checkDone (.foldl (fun _ _ h₁ => .kickAll h₁) (.scheduleJobs (.collResume (.foldl (fun _ _ h₁ => .ite (.wake h₁)
    (.fetchCheck h₁)) (.bump (.bump (.foldl (fun _ _ h₁ => .restoreTile h₁) h)))))))

theorem Keeps.startTileBooks {j t'} (h : Keeps s t) : Keeps s (t.startTileBooks j t') :=
  .modJobTile h

theorem Keeps.startPeriod {j p} (h : Keeps s t) : Keeps s (t.startPeriod j p) :=
  .foldl (fun _ _ h₁ => .ite (.noteWork h₁) h₁) (.foldl (fun _ _ h₁ => .startTileBooks h₁) (.ite (.bump h) h))

theorem Keeps.checkPeriod {j p post} (h : Keeps s t) : Keeps s (t.checkPeriod j p post) :=
  .ite h (.event (.bump h))

theorem Keeps.fallTile {j t'} (h : Keeps s t) : Keeps s (t.fallTile j t').1 := by
  unfold State.fallTile
  refine .ite_fst h ?_
  extract_lets on gone ended t₁ t₂ t₃
  have h₁ : Keeps s t₁ := .dropRuns (.bump h)
  have h₃ : Keeps s t₃ := .modTile h₁
  exact .ite_fst (.restartTile h₃) (.modPeriod (.modTile h₃))

theorem Keeps.fallTiles {j} (h : Keeps s t) : Keeps s (t.fallTiles j).1 := by
  unfold State.fallTiles
  refine .ite_fst (.foldl_fst (fun p n h₁ => .ite_fst ?_ h₁) h) ?_
  · split
    next u k e =>
      have h₂ : Keeps s u := .fst e (.fallTile h₁)
      dsimp only
      exact .zeroTallies h₂
  · exact .modJob (.foldl (fun _ _ h₁ => .ite h₁ (.bump h₁)) (.discardRecords h))

theorem Keeps.schedWrite {j a bs} (h : Keeps s t) : Keeps s (t.schedWrite j a bs) := by
  unfold State.schedWrite
  split
  · next _ u₁ _ e₁ =>
      have h₁ : Keeps s u₁ := .fst e₁ (.writeJob h)
      exact .schedFault h₁
  · next _ u₁ e₁ =>
      have h₁ : Keeps s u₁ := .fst e₁ (.writeJob h)
      exact h₁

theorem Keeps.markStale {j n a} (h : Keeps s t) : Keeps s (t.markStale j n a) := by
  unfold State.markStale
  dsimp only
  split
  · next _ u₁ _ e₁ =>
      have h₁ : Keeps s u₁ := .fst e₁ (.readJob h)
      exact .schedFault h₁
  · next _ u₁ _ e₁ =>
      have h₁ : Keeps s u₁ := .fst e₁ (.readJob h)
      exact .ite h₁ (.schedWrite h₁)

theorem Keeps.flagFall {j p whole} (h : Keeps s t) : Keeps s (t.flagFall j p whole) := by
  unfold State.flagFall
  extract_lets +onlyGivenNames late before done steps t₁
  have h₁ : Keeps s t₁ := .bump (.bump h)
  split
  next t₂ k e₂ =>
    have h₂ : Keeps s t₂ := .fst e₂ (.ite_fst (.fallTiles h₁) h₁)
    extract_lets +onlyGivenNames t₃ t₄ t₅ b u₆ n t₆ t₇ t₈ t₉
    have h₃ : Keeps s t₃ := .ite (.modJob h₂) h₂
    have h₄ : Keeps s t₄ := .modPeriod (.bump h₃)
    have h₅ : Keeps s t₅ := .foldl (fun _ _ h => .markStale h) h₄
    have h₆ : Keeps s t₆ := .ite (.dropJobCtxs (.bump (.bump (.dropPpe h₅)))) h₅
    have h₇ : Keeps s t₇ := by
      unfold t₇
      split
      · exact h₆
      · exact .schedWrite h₆
    have h₈ : Keeps s t₈ := .modPeriod h₇
    have h₉ : Keeps s t₉ := .ite (.event h₈) h₈
    exact .ite (.scheduleJobs (.foldl (fun _ _ h => .ite (.kickAll h) h) h₉)) h₉

theorem Keeps.reclaim {j} (h : Keeps s t) : Keeps s (t.reclaim j) :=
  .scheduleJobs h

theorem Keeps.catchUp {t' f fell} (h : Keeps s t) : Keeps s (State.catchUp t' f fell t) := by
  induction f generalizing t fell with
  | zero => exact h
  | succ f ih =>
    unfold State.catchUp
    dsimp only
    split
    · exact h
    · split
      · exact h
      · split
        · exact ih (.startPeriod h)
        · exact ih (.checkPeriod h)
        · exact ih (.flagFall h)
        · exact ih (.reclaim h)

theorem Keeps.deferredActions (h : Keeps s t) : Keeps s t.deferredActions :=
  .catchUp h

theorem Out.Keeps.execTilePrepared {t'} (h : Machine.Keeps s t) : (execTilePrepared t' t).Keeps s := by
  unfold Machine.execTilePrepared
  split
  · exact .next h
  · exact .when_ h (.prepareTile h)

theorem Out.Keeps.execSaveComplete {job} (h : Machine.Keeps s t) : (execSaveComplete job t).Keeps s := by
  unfold Machine.execSaveComplete
  split
  · exact .next h
  · exact .when_ h (.saveJob h)

theorem Out.Keeps.execRestoreComplete {job} (h : Machine.Keeps s t) : (execRestoreComplete job t).Keeps s := by
  unfold Machine.execRestoreComplete
  split
  · exact .next h
  · exact .when_ h (.restoreJob h)

theorem Out.Keeps.periodAct {job f g} (h : Machine.Keeps s t) (hg : ∀ j p, Machine.Keeps s (g t j p)) :
    (t.periodAct job f g).Keeps s := by
  unfold State.periodAct
  split
  · exact .next h
  · split
    · exact .next h
    · exact .when_ h (hg _ _)

theorem Out.Keeps.execPeriodStart {job} (h : Machine.Keeps s t) : (execPeriodStart job t).Keeps s :=
  .periodAct h fun _ _ => .startPeriod h

theorem Out.Keeps.execCheck {job} (h : Machine.Keeps s t) : (execCheck job t).Keeps s :=
  .periodAct h fun _ _ => .checkPeriod h

theorem Out.Keeps.execFlagFall {job} (h : Machine.Keeps s t) : (execFlagFall job t).Keeps s :=
  .periodAct h fun _ _ => .flagFall h

theorem Out.Keeps.execLend {job} (h : Machine.Keeps s t) : (execLend job t).Keeps s :=
  .periodAct h fun _ _ => h

theorem Out.Keeps.execReclaim {job} (h : Machine.Keeps s t) : (execReclaim job t).Keeps s :=
  .periodAct h fun _ _ => .reclaim h

theorem Out.Keeps.requestRow {p q op} (h : Machine.Keeps s t) : (t.requestRow p q op).Keeps s :=
  .when_ h (.request h)

theorem Out.Keeps.execRequestPut {p q} (h : Machine.Keeps s t) : (execRequestPut p q t).Keeps s :=
  .requestRow h

theorem Out.Keeps.execRequestGet {p q} (h : Machine.Keeps s t) : (execRequestGet p q t).Keeps s :=
  .requestRow h

theorem Out.Keeps.execRequestAtomic {p q} (h : Machine.Keeps s t) : (execRequestAtomic p q t).Keeps s :=
  .requestRow h

theorem Out.Keeps.execRequestSignal {p q} (h : Machine.Keeps s t) : (execRequestSignal p q t).Keeps s :=
  .requestRow h

theorem Out.Keeps.execGetData {seq ce payload} (h : Machine.Keeps s t) : (execGetData seq ce payload t).Keeps s :=
  .when_ h (.getData h)

theorem Out.Keeps.execAtomicReply {seq ce old} (h : Machine.Keeps s t) : (execAtomicReply seq ce old t).Keeps s :=
  .when_ h (.atomicAnswer h)

theorem Out.Keeps.execReceipt {entries} (h : Machine.Keeps s t) : (execReceipt entries t).Keeps s :=
  .when_ h (.foldl (fun _ _ h₁ => .foldl (fun _ _ h₂ => .ite (.receiptSeq h₂) h₂) h₁) h)

theorem Out.Keeps.execNak {_src entries} (h : Machine.Keeps s t) : (execNak _src entries t).Keeps s :=
  .when_ h (.foldl (fun _ _ h₁ => .nakEntry h₁) h)

theorem Out.Keeps.execLost {_reporter _rport seqs} (h : Machine.Keeps s t) : (execLost _reporter _rport seqs t).Keeps s :=
  .when_ h (.foldl (fun _ _ h₁ => .lostSeq h₁) h)

theorem Out.Keeps.execLowMark {src low} (h : Machine.Keeps s t) : (execLowMark src low t).Keeps s :=
  .when_ h h

theorem Out.Keeps.execCongMap {src record} (h : Machine.Keeps s t) : (execCongMap src record t).Keeps s :=
  .when_ h h

theorem Out.Keeps.execReceiptFlush {src} (h : Machine.Keeps s t) : (execReceiptFlush src t).Keeps s := by
  unfold Machine.execReceiptFlush
  split
  · exact .when_ h (.flushReceipts h)
  · exact .next h

theorem Out.Keeps.execRetransmitTimeout {seq} (h : Machine.Keeps s t) : (execRetransmitTimeout seq t).Keeps s := by
  unfold Machine.execRetransmitTimeout
  split
  · exact .when_ h (.resend h)
  · exact .next h

theorem Out.Keeps.execBackoffExpiry {seq} (h : Machine.Keeps s t) : (execBackoffExpiry seq t).Keeps s := by
  unfold Machine.execBackoffExpiry
  split
  · split
    · exact .when_ h (.resend h)
    · exact .next h
  · exact .next h

theorem Out.Keeps.execAbandon {seq} (h : Machine.Keeps s t) : (execAbandon seq t).Keeps s := by
  unfold Machine.execAbandon
  split
  · exact .when_ h (.ownerFault (.bump (.retire h)))
  · exact .next h

theorem Out.Keeps.execLowMarkTimer {dst} (h : Machine.Keeps s t) : (execLowMarkTimer dst t).Keeps s := by
  unfold Machine.execLowMarkTimer
  split
  · exact .when_ h (.sendLow (dst := dst) h)
  · exact .next h

theorem Out.Keeps.execRateRaise {dst} (h : Machine.Keeps s t) : (execRateRaise dst t).Keeps s := by
  unfold Machine.execRateRaise
  split
  · exact .when_ h h
  · exact .next h

end
end Sys2Proof.Machine
end

section
/-! SUPPORT. Invariant (O5, O8). What the control processor's commands, routers and frames keep. -/

-- Proofs are checked as they come: checked beside the rest, they hold their memory until the whole text is.
set_option Elab.async false

namespace Sys2Proof.Machine
section
variable {s t u : State}

theorem Keeps.answerPacket {src h' st ver2} (h : Keeps s t) : Keeps s (t.answerPacket src h' st ver2) :=
  .sendReply h

theorem Keeps.arrivesZcp {src h' bytes} (h : Keeps s t) : Keeps s (t.arrivesZcp src h' bytes) := by
  unfold State.arrivesZcp
  split
  · exact .sendReply (.bump h)
  · split
    · exact .answerDuplicate h
    · refine .ite (.answerPacket h) ?_
      refine .ite (.answerPacket (.bump h)) ?_
      dsimp only
      split
      · refine .reply ?_
        split
        · exact .bump h
        · exact h
      · exact h

theorem Keeps.fragment {src h'} (h : Keeps s t) : Keeps s (t.fragment src h') := by
  unfold State.fragment
  dsimp only
  split
  · exact .ite (.answerPacket h) h
  · exact .ite (.answerPacket h) (.ite h (.arrivesZcp h))

theorem Keeps.zcpPacketIn {src pkt} (h : Keeps s t) : Keeps s (t.zcpPacketIn src pkt) := by
  unfold State.zcpPacketIn
  refine .ite h ?_
  refine .ite (.bump h) ?_
  refine .ite (.bump h) ?_
  refine .ite (.bump h) ?_
  split
  · exact .answerPacket h
  · exact .ite (.arrivesZcp h) (.fragment h)

theorem Out.Keeps.execZcpFragment {src pkt} (h : Machine.Keeps s t) : (execZcpFragment src pkt t).Keeps s :=
  .next (.zcpPacketIn h)

theorem Out.Keeps.execReassemblyTimeout {src seq} (h : Machine.Keeps s t) : (execReassemblyTimeout src seq t).Keeps s := by
  unfold Machine.execReassemblyTimeout
  exact .when_ h (.bump h)

theorem Out.Keeps.execInterimReply {src seq} (h : Machine.Keeps s t) : (execInterimReply src seq t).Keeps s := by
  unfold Machine.execInterimReply
  split
  · exact .when_ h (.sendReply h)
  · exact .next h

theorem Out.Keeps.execLockExpiry (h : Machine.Keeps s t) : (execLockExpiry t).Keeps s := by
  unfold Machine.execLockExpiry
  split
  · exact .when_ h (.dropLock h)
  · exact .next h

theorem Out.Keeps.execZcpUnknownOpcode {r op} (h : Machine.Keeps s t) : (execZcpUnknownOpcode r op t).Keeps s :=
  .next (.zcpStep h fun _ h₁ => h₁)

theorem Out.Keeps.execDeviceInfo {r} (h : Machine.Keeps s t) : (execDeviceInfo r t).Keeps s :=
  .next (.zcpStep h fun _ h₁ => h₁)

theorem Out.Keeps.execCapRead {r offset len} (h : Machine.Keeps s t) : (execCapRead r offset len t).Keeps s :=
  .next (.zcpStep h fun _ h₁ => .ite h₁ (.ite h₁ h₁))

theorem Out.Keeps.execPing {r data stamp} (h : Machine.Keeps s t) : (execPing r data stamp t).Keeps s :=
  .next (.zcpStep h fun _ h₁ => .ite h₁ h₁)

theorem Out.Keeps.execEventRegister {r l mask} (h : Machine.Keeps s t) : (execEventRegister r l mask t).Keeps s := by
  unfold Machine.execEventRegister
  refine .next ?_
  refine .zcpStep h fun _ h₁ => ?_
  split <;> exact h₁

theorem Out.Keeps.execEventDeregister {r ix} (h : Machine.Keeps s t) : (execEventDeregister r ix t).Keeps s :=
  .next (.zcpStep h fun _ h₁ => h₁)

theorem Out.Keeps.execEventRead {r first count} (h : Machine.Keeps s t) : (execEventRead r first count t).Keeps s :=
  .next (.zcpStep h fun _ h₁ => .ite h₁ h₁)

theorem Out.Keeps.execFlagRead {r} (h : Machine.Keeps s t) : (execFlagRead r t).Keeps s :=
  .next (.zcpStep h fun _ h₁ => h₁)

theorem Out.Keeps.execFlagClear {r tgt flag} (h : Machine.Keeps s t) : (execFlagClear r tgt flag t).Keeps s := by
  unfold Machine.execFlagClear
  refine .next ?_
  refine .zcpStep h fun _ h₁ => ?_
  split <;> exact h₁

theorem Out.Keeps.execMgmtLock {r lease} (h : Machine.Keeps s t) : (execMgmtLock r lease t).Keeps s :=
  .next (.zcpStep h fun _ h₁ => Machine.Keeps.ite (.event h₁) h₁)

theorem Out.Keeps.execMgmtUnlock {r force} (h : Machine.Keeps s t) : (execMgmtUnlock r force t).Keeps s := by
  unfold Machine.execMgmtUnlock
  refine .next ?_
  refine .zcpStep h fun _ h₁ => ?_
  split
  · exact .ite h₁ h₁
  · exact .ite (.event h₁) (.event (.setFlag h₁))

theorem Out.Keeps.execSourceFilter {r es} (h : Machine.Keeps s t) : (execSourceFilter r es t).Keeps s :=
  .next (.zcpStep h fun _ h₁ => .ite h₁ (.ite h₁ h₁))

theorem Out.Keeps.execSourceFilterRead {r} (h : Machine.Keeps s t) : (execSourceFilterRead r t).Keeps s :=
  .next (.zcpStep h fun _ h₁ => h₁)

theorem Keeps.freeFlits {p v n stale} (h : Keeps s t) : Keeps s (t.freeFlits p v n stale) := by
  unfold State.freeFlits
  split
  · exact .ite h (.modFab h)
  · next p =>
    refine .ite h ?_
    extract_lets t₁ x
    have h₁ : Keeps s t₁ := .modPort h
    exact .ite (.sendCredit h₁) h₁

theorem Keeps.modInput {p f} (h : Keeps s t) : Keeps s (t.modInput p f) := by
  unfold State.modInput
  split <;> exact h

theorem Keeps.dropInput {p k} (h : Keeps s t) : Keeps s (t.dropInput p k) := by
  unfold State.dropInput
  split
  · exact h
  · exact .freeFlits (.modInput h)

theorem Keeps.modAt {p k f} (h : Keeps s t) : Keeps s (t.modAt p k f) :=
  .modInput h

theorem Keeps.markCe {p k} (h : Keeps s t) : Keeps s (t.markCe p k) :=
  .bump (.modAt h)

theorem Keeps.sendFlit {q p k v} (h : Keeps s t) : Keeps s (t.sendFlit q p k v) := by
  unfold State.sendFlit
  split
  · exact h
  · exact .ite (.modInput (.freeFlits (.bump h))) (.modAt (.freeFlits (.bump h)))

theorem Keeps.serveN {q n} (h : Keeps s t) : Keeps s (State.serveN q n t) := by
  induction n generalizing t with
  | zero => exact h
  | succ n ih =>
    unfold State.serveN
    split
    · exact h
    · exact ih (.sendFlit h)

theorem Keeps.serve {q} (h : Keeps s t) : Keeps s (t.serve q) :=
  .ite h (.serveN h)

theorem Keeps.deliver {p k} (h : Keeps s t) : Keeps s (t.deliver p k) := by
  unfold State.deliver
  refine .ite (.request h) (.ite (.getData h) (.ite (.atomicAnswer h) (.ite ?_ (.ite (.foldl (fun _ _ h₁ => .nakEntry h₁) h)
    (.ite (.foldl (fun _ _ h₁ => .lostSeq h₁) h) (.ite h (.ite ?_ (.ite (.after (.execCongMap h) h) (.ite ?_ h)))))))))
  · exact .after (.execReceipt h) h
  · split
    · exact h
    · exact .zcpPacketIn h
  · split
    · exact h
    · exact .ite (.after (.execGrant h) h) (.ite (.after (.execRefuse h) h) (.ite (.after (.execResult h) h)
        (.ite (.after (.execReleased h) h) h)))

theorem Keeps.routerNak {p h' r other} (h : Keeps s t) : Keeps s (t.routerNak p h' r other) :=
  .ite (.bump h) (.ite (.nakEntry (.bump h)) (.nak h))

theorem Keeps.routeOne {p k} (h : Keeps s t) : Keeps s (t.routeOne p k) := by
  unfold State.routeOne
  split
  · exact h
  · next x _ =>
    refine .ite h ?_
    split
    · exact .bump (.dropInput h)
    · exact .routerNak (.dropInput h)
    · extract_lets +onlyGivenNames t₁ y e l
      have h₁ : Keeps s t₁ := .ite (.markCe h) h
      clear_value l
      split
      · exact .deliver (.dropInput h₁)
      · exact .routerNak (.dropInput (.ite (.bump h₁) h₁))
      · split
        · exact .modAt h₁
        · exact .serve (.bump (.modFab (.ite (.modAt h₁) (.modAt h₁))))

theorem Keeps.contend {p k f} (h : Keeps s t) : Keeps s (State.contend p k f t) := by
  induction f generalizing t with
  | zero => exact .routeOne h
  | succ f ih =>
    unfold State.contend
    split
    · exact .routeOne h
    · dsimp only
      split
      · exact ih (.routeOne h)
      · exact .routeOne h

theorem Keeps.routeVc {p v} (h : Keeps s t) : Keeps s (t.routeVc p v) :=
  .foldl_fst (fun _ _ h₁ => .ite_fst h₁ (.contend h₁)) h

theorem Keeps.countRxFlits {p v n} (h : Keeps s t) : Keeps s (t.countRxFlits p v n) :=
  .ite (.bump h) (.bump h)

theorem Keeps.arrivePkt {p k} (h : Keeps s t) : Keeps s (t.arrivePkt p k) :=
  .ite (.bump (.freeFlits h)) (.ite h (.contend h))

theorem Keeps.nameLost {q src seqs} (h : Keeps s t) : Keeps s (t.nameLost q src seqs) :=
  .ite (.foldl (fun _ _ h₁ => .lostSeq h₁) (.bump h)) (.foldl (fun _ _ h₁ => h₁) (.bump h))

theorem Keeps.routerDown {q} (h : Keeps s t) : Keeps s (t.routerDown q) := by
  unfold State.routerDown
  refine .bump (.foldl (fun _ _ h₁ => .nameLost h₁) (.modPort (.foldl (fun u p h₁ => ?_) h)))
  exact .modInput (.foldl (fun _ _ h₂ => .freeFlits h₂) h₁)

theorem Keeps.tickFrame {q} (h : Keeps s t) : Keeps s (t.tickFrame q) :=
  .ite (.serve h) h

end
end Sys2Proof.Machine
end

section
/-! SUPPORT. Invariant (O5, O8). What links, routers and the commands of the fabric keep. -/

-- Proofs are checked as they come: checked beside the rest, they hold their memory until the whole text is.
set_option Elab.async false

namespace Sys2Proof.Machine
section
variable {s t u : State}

theorem Keeps.checkCabling {p} (h : Keeps s t) : Keeps s (t.checkCabling p) := by
  unfold State.checkCabling
  split
  · exact h
  · exact .ite h (.event (.setFlag (.bump h)))

theorem Keeps.enterStep {p k} (h : Keeps s t) : Keeps s (t.enterStep p k) :=
  .ite h h

theorem Keeps.startTraining {p} (h : Keeps s t) : Keeps s (t.startTraining p) :=
  .enterStep (.bump h)

theorem Keeps.tryTrain {p} (h : Keeps s t) : Keeps s (t.tryTrain p) :=
  .ite (.startTraining h) h

theorem Keeps.auditReply {p st vs} (h : Keeps s t) : Keeps s (t.auditReply p st vs) := by
  unfold State.auditReply
  dsimp only
  split
  · exact .reply h
  · exact h

theorem Keeps.auditEnd {p st} (h : Keeps s t) : Keeps s (t.auditEnd p st) :=
  .foldl (fun _ _ h₁ => .ite (.auditReply h₁) h₁) h

theorem Keeps.goDown {p r} (h : Keeps s t) : Keeps s (t.goDown p r) := by
  unfold State.goDown
  refine .ite h ?_
  refine .tryTrain ?_
  refine .ite ?_ ?_
  · refine .collPortDown ?_
    refine .routerDown ?_
    refine .bump ?_
    refine .bump ?_
    split
    · exact .auditEnd (.auditReply h)
    · exact h
  · refine .bump ?_
    refine .bump ?_
    split
    · exact .auditEnd (.auditReply h)
    · exact h

theorem Keeps.auditTry {p} (h : Keeps s t) : Keeps s (t.auditTry p) := by
  unfold State.auditTry
  split
  · exact h
  · exact .ite (.auditEnd h) (.ite h (.ite (.auditReply h) (.goDown (.bump (.bump (.auditReply h))))))

theorem Keeps.startFrames {p} (h : Keeps s t) : Keeps s (t.startFrames p) :=
  .enterStep h

theorem Keeps.trainStep {p id idents rt} (h : Keeps s t) : Keeps s (t.trainStep p id idents rt) := by
  unfold State.trainStep
  extract_lets +onlyGivenNames x
  split
  · exact .ite (.goDown (.modPort h)) (.enterStep (.modPort h))
  · refine .ite (.goDown h) ?_
    extract_lets t₁ t₂ t₃
    have h₁ : Keeps s t₁ := .ite (.bump h) h
    have h₂ : Keeps s t₂ := .modPort h₁
    have h₃ : Keeps s t₃ := .modPort h₂
    exact .ite (.ite (.goDown h₃) (.enterStep h₃)) (.enterStep h₂)
  · refine .ite (.goDown h) ?_
    extract_lets t₁
    have h₁ : Keeps s t₁ := .buildMaps (.checkCabling h)
    exact .ite (.goDown h₁) (.startFrames h₁)
  · exact .enterStep (.startCredits h)
  · exact h

theorem Keeps.trainOn {p id idents rt n} (h : Keeps s t) : Keeps s (State.trainOn p id idents rt n t) := by
  induction n generalizing t with
  | zero => exact h
  | succ n ih =>
    unfold State.trainOn
    exact .ite (ih (.trainStep h)) h

theorem Keeps.sendRetry {p} (h : Keeps s t) : Keeps s (t.sendRetry p) :=
  .ite (.goDown (.bump h)) (.bump h)

theorem Keeps.retryIn {p fsn} (h : Keeps s t) : Keeps s (t.retryIn p fsn) :=
  .ite (.goDown h) (.ite h h)

theorem Keeps.ackIn {p fsn} (h : Keeps s t) : Keeps s (t.ackIn p fsn) :=
  .ite h (.auditTry (.serve h))

theorem Keeps.creditIn {p freed} (h : Keeps s t) : Keeps s (t.creditIn p freed) :=
  .ite h (.ite (.goDown (.bump h)) (.auditTry (.serve h)))

theorem Keeps.creditInit {p sizes} (h : Keeps s t) : Keeps s (t.creditInit p sizes) :=
  .ite h (.ite (.enterStep h) h)

theorem Keeps.freezeFlitIn {p f} (h : Keeps s t) : Keeps s (t.freezeFlitIn p f) :=
  .ite h (.ite (.bump h) (.freeze h))

theorem Keeps.skipSlot {p slot lane} (h : Keeps s t) : Keeps s (t.skipSlot p slot lane) := by
  unfold State.skipSlot
  extract_lets +onlyGivenNames t₁
  have h₁ : Keeps s t₁ := .modPort h
  exact .ite (.goDown h₁) (.ite h₁ (.schedule h₁))

theorem Keeps.failLane {p d k c} (h : Keeps s t) : Keeps s (t.failLane p d k c) := by
  unfold State.failLane
  refine .ite h ?_
  extract_lets +onlyGivenNames fade t₁
  have h₁ : Keeps s t₁ := .ite h (.modPort h)
  split
  · exact .modPort h₁
  · exact .setFlag (.bump (.modPort h₁))
  · split
    · exact h₁
    · refine .ite h₁ ?_
      extract_lets +onlyGivenNames t₂
      have h₂ : Keeps s t₂ := .bump h₁
      refine .ite (.goDown h₂) (.ite (.schedule h₂) ?_)
      split
      · exact .skipSlot h₂
      · have h₃ {f} : Keeps s (t₂.modPort p f) := .modPort h₂
        refine .ite (.goDown h₃) ?_
        have h₄ {f g} : Keeps s ((t₂.modPort p f).modPort p g) := .modPort h₃
        have h₅ {c : Prop} [Decidable c] {f g} :
            Keeps s (if c then ((t₂.modPort p f).modPort p g).sendRetry p else (t₂.modPort p f).modPort p g) :=
          .ite (.sendRetry h₄) h₄
        exact .ite h₅ (.sendControl h₅)
  · exact h₁

theorem Keeps.swapIn {p m} (h : Keeps s t) : Keeps s (t.swapIn p m) := by
  unfold State.swapIn
  refine .ite h ?_
  refine .ite ?_ (.ite (.ite h h) h)
  split
  · exact h
  · exact .ite h (.skipSlot h)

theorem Keeps.swapDue {p d} (h : Keeps s t) : Keeps s (t.swapDue p d) := by
  unfold State.swapDue
  split
  · exact h
  · exact .ite h (.ite (.ite (.goDown h) h) (.ite (.goDown (.ite (.bump h) h)) (.ite (.bump h) h)))

theorem Keeps.linkControlIn {p f} (h : Keeps s t) : Keeps s (t.linkControlIn p f) := by
  unfold State.linkControlIn
  dsimp only
  split
  · exact .creditIn h
  · exact .creditInit h
  · exact .freezeFlitIn h
  · exact .ackIn h
  · exact .retryIn h
  · exact .swapIn h
  · exact h
  · exact .bump h

theorem Keeps.flitIn {p tag f} (h : Keeps s t) : Keeps s (t.flitIn p tag f) := by
  unfold State.flitIn
  refine .ite (.ite (.linkControlIn h) h) (.ite h ?_)
  extract_lets +onlyGivenNames t₁ old rest t₂ fs
  clear_value old fs
  have h₁ : Keeps s t₁ := .countRxFlits h
  have h₂ : Keeps s t₂ := by
    unfold t₂
    split
    · exact .ite (.freeFlits h₁) h₁
    · exact h₁
  split
  · exact .freeFlits h₂
  · have h₃ {c : Prop} [Decidable c] {v} : Keeps s (if c then t₂.freeFlits (some p) v 1 false else t₂) := .ite
      (.freeFlits h₂) h₂
    exact .ite h₃ (.arrivePkt h₃)

theorem Keeps.frameIn {p skip} (h : Keeps s t) : Keeps s (t.frameIn p skip) :=
  .ite (.goDown (.foldl (fun _ _ h₁ => .foldl (fun _ _ h₂ => .flitIn h₂) h₁) h)) (.foldl (fun _ _ h₁ => .foldl
    (fun _ _ h₂ => .flitIn h₂) h₁) h)

theorem Keeps.sliceIn {p k b n crcOk} (h : Keeps s t) : Keeps s (t.sliceIn p k b n crcOk) := by
  unfold State.sliceIn
  extract_lets +onlyGivenNames x ln t₁ swapTo slotOk bad carries t₂ unc t₃ y again need t₄
  have h₁ : Keeps s t₁ := by
    unfold t₁
    split
    · exact .bump (.bump h)
    · exact .bump h
  have h₃ : Keeps s t₃ := .ite (.bump h₁) h₁
  have h₄ : Keeps s t₄ := by
    unfold t₄
    exact .ite h₃ (.ite (.ite (.sendRetry h₃) h₃) (.ite (.frameIn h₃) h₃))
  exact .ite (.failLane h₄) h₄

theorem Keeps.blockIn {p k b} (h : Keeps s t) : Keeps s (t.blockIn p k b) :=
  .ite h (.ite h (.ite (.failLane (.sliceIn h)) (.sliceIn h)))

theorem Out.Keeps.execHeadFlit {p vc head payload} (h : Machine.Keeps s t) : (execHeadFlit p vc head payload t).Keeps s := by
  unfold Machine.execHeadFlit
  split
  · exact .when_ h (.arrivePkt (.countRxFlits h))
  · refine .when_ h ?_
    split
    · exact .contend h
    · exact h

theorem Out.Keeps.execVcAllocation {p vc} (h : Machine.Keeps s t) : (execVcAllocation p vc t).Keeps s :=
  .when_ h (.routeVc h)

theorem Out.Keeps.execCredit {p freed} (h : Machine.Keeps s t) : (execCredit p freed t).Keeps s :=
  .when_ h (.creditIn h)

theorem Out.Keeps.execCreditInit {p sizes} (h : Machine.Keeps s t) : (execCreditInit p sizes t).Keeps s :=
  .when_ h (.creditInit h)

theorem Out.Keeps.execFreezeFlit {p f} (h : Machine.Keeps s t) : (execFreezeFlit p f t).Keeps s :=
  .when_ h (.freezeFlitIn h)

theorem Out.Keeps.execReservedLinkControl {p kind} (h : Machine.Keeps s t) : (execReservedLinkControl p kind t).Keeps s :=
  .when_ h (.bump h)

theorem Out.Keeps.execCreditTimer {p} (h : Machine.Keeps s t) : (execCreditTimer p t).Keeps s := by
  unfold Machine.execCreditTimer
  exact .when_ h h

theorem Out.Keeps.execControl {p src dst pkt} (h : Machine.Keeps s t) : (execControl p src dst pkt t).Keeps s := by
  unfold Machine.execControl
  exact .when_ h (.arrivePkt (.countRxFlits h))

theorem Out.Keeps.execStalemate {p vc} (h : Machine.Keeps s t) : (execStalemate p vc t).Keeps s := by
  unfold Machine.execStalemate
  dsimp only
  split
  · exact .next h
  · refine .when_ h ?_
    split <;> exact .bump (.modAt h)

theorem Out.Keeps.execCeWait {p vc} (h : Machine.Keeps s t) : (execCeWait p vc t).Keeps s := by
  unfold Machine.execCeWait
  dsimp only
  split
  · exact .next h
  · exact .when_ h (.markCe h)

theorem Keeps.sampleOccupancy (h : Keeps s t) : Keeps s t.sampleOccupancy := by
  unfold State.sampleOccupancy
  extract_lets +onlyGivenNames t₁
  have h₁ : Keeps s t₁ := by
    unfold t₁
    exact .foldl (fun _ _ h₁ => .foldl (fun _ _ h₂ => .sample h₂) (.modPort h₁)) h
  exact .modFab h₁

theorem Out.Keeps.execOccupancyUpdate (h : Machine.Keeps s t) : (execOccupancyUpdate t).Keeps s :=
  .when_ h (.sampleOccupancy h)

theorem Keeps.sampleHistograms (h : Keeps s t) : Keeps s t.sampleHistograms :=
  .foldl (fun _ _ h₁ => h₁) (.foldl (fun _ _ h₁ => .foldl (fun _ _ h₂ => h₂) h₁) h)

theorem Out.Keeps.execHistogramSample (h : Machine.Keeps s t) : (execHistogramSample t).Keeps s :=
  .when_ h (.sampleHistograms h)

theorem Out.Keeps.execCongMapSend (h : Machine.Keeps s t) : (execCongMapSend t).Keeps s := by
  unfold Machine.execCongMapSend
  split
  · exact .next h
  · exact .when_ h (.bump h)

theorem Keeps.refreshDown {p} (h : Keeps s t) : Keeps s (t.refreshDown p) :=
  .ite h (.tryTrain h)

theorem Keeps.recheck {p} (h : Keeps s t) : Keeps s (t.recheck p) :=
  .ite (.refreshDown h) (.ite (.goDown h) (.ite (.routerDown (.checkCabling h)) (.checkCabling h)))

theorem Keeps.loadPlan {plan} (h : Keeps s t) : Keeps s (t.loadPlan plan) :=
  .foldl (fun _ _ h₁ => .recheck h₁) (.foldl (fun _ _ h₁ => h₁) h)

theorem Out.Keeps.execPlanLoad {r plan} (h : Machine.Keeps s t) : (execPlanLoad r plan t).Keeps s :=
  .next (.zcpStep h fun _ h₁ => .ite h₁ (.loadPlan h₁))

theorem Out.Keeps.execPlanRead {r} (h : Machine.Keeps s t) : (execPlanRead r t).Keeps s :=
  .next (.zcpStep h fun _ h₁ => h₁)

theorem Out.Keeps.execPlanAccept {r p} (h : Machine.Keeps s t) : (execPlanAccept r p t).Keeps s := by
  unfold Machine.execPlanAccept
  refine .next ?_
  refine .zcpStep h fun _ h₁ => ?_
  split
  · exact .ite h₁ h₁
  · exact h₁

theorem Keeps.fabricConfigure {p c} (h : Keeps s t) : Keeps s (t.fabricConfigure p c) :=
  .foldl (fun _ _ h₁ => .ite (.refreshDown h₁) (.ite (.refreshDown h₁) (.goDown h₁))) h

theorem Out.Keeps.execFabricConfig {r p c} (h : Machine.Keeps s t) : (execFabricConfig r p c t).Keeps s :=
  .next (.zcpStep h fun _ h₁ => .ite h₁ (.fabricConfigure h₁))

theorem Out.Keeps.execPortStatus {r p} (h : Machine.Keeps s t) : (execPortStatus r p t).Keeps s :=
  .next (.zcpStep h fun _ h₁ => h₁)

theorem Out.Keeps.execPortRetrain {r p} (h : Machine.Keeps s t) : (execPortRetrain r p t).Keeps s :=
  .next (.zcpStep h fun _ h₁ => .ite (.refreshDown h₁) (.goDown h₁))

theorem Out.Keeps.execRouteWrite {r first es} (h : Machine.Keeps s t) : (execRouteWrite r first es t).Keeps s :=
  .next (.zcpStep h fun _ h₁ => .ite h₁ (.ite h₁ h₁))

theorem Out.Keeps.execRouteRead {r first count} (h : Machine.Keeps s t) : (execRouteRead r first count t).Keeps s :=
  .next (.zcpStep h fun _ h₁ => .ite h₁ h₁)

theorem Out.Keeps.execWindowOpen {r ix e} (h : Machine.Keeps s t) : (execWindowOpen r ix e t).Keeps s :=
  .next (.zcpStep h fun _ h₁ => .ite h₁ (.ite h₁ (.ite h₁ (.ite h₁ h₁))))

theorem Out.Keeps.execWindowClose {r ix} (h : Machine.Keeps s t) : (execWindowClose r ix t).Keeps s :=
  .next (.zcpStep h fun _ h₁ => h₁)

theorem Out.Keeps.execWindowRead {r ix} (h : Machine.Keeps s t) : (execWindowRead r ix t).Keeps s :=
  .next (.zcpStep h fun _ h₁ => h₁)

theorem Out.Keeps.execFabricCongRead {r} (h : Machine.Keeps s t) : (execFabricCongRead r t).Keeps s :=
  .next (.zcpStep h fun _ h₁ => h₁)

theorem Keeps.setTopo {t'} (h : Keeps s t) : Keeps s (t.setTopo t') :=
  .modColl h

theorem Out.Keeps.execTopoLoad {r job naxes sizes first fids} (h : Machine.Keeps s t) :
    (execTopoLoad r job naxes sizes first fids t).Keeps s := by
  unfold Machine.execTopoLoad
  refine .next ?_
  refine .zcpStep h fun _ h₁ => ?_
  refine .ite h₁ ?_
  refine .ite h₁ ?_
  split
  · exact h₁
  · exact .ite h₁ (.ite (Machine.Keeps.ite h₁ (.modColl h₁)) (.ite h₁ (.ite h₁ (.setTopo h₁))))

theorem Out.Keeps.execGroupDefine {r g} (h : Machine.Keeps s t) : (execGroupDefine r g t).Keeps s := by
  unfold Machine.execGroupDefine
  refine .next ?_
  refine .zcpStep h fun _ h₁ => ?_
  split
  · exact h₁
  · exact .modColl h₁

theorem Out.Keeps.execGroupDelete {r g} (h : Machine.Keeps s t) : (execGroupDelete r g t).Keeps s :=
  .next (.zcpStep h fun _ h₁ => .ite h₁ (.ite h₁ (.modColl h₁)))

theorem Out.Keeps.execGroupRead {r g} (h : Machine.Keeps s t) : (execGroupRead r g t).Keeps s := by
  unfold Machine.execGroupRead
  refine .next ?_
  refine .zcpStep h fun _ h₁ => ?_
  split <;> exact h₁

theorem Out.Keeps.execCollStatus {r g count} (h : Machine.Keeps s t) : (execCollStatus r g count t).Keeps s :=
  .next (.zcpStep h fun _ h₁ => .ite h₁ (.ite h₁ h₁))

end
end Sys2Proof.Machine
end

section
/-! SUPPORT. Invariant (O5, O8). What the commands of maps, jobs, temperature and links keep. -/

-- Proofs are checked as they come: checked beside the rest, they hold their memory until the whole text is.
set_option Elab.async false

namespace Sys2Proof.Machine
section
variable {s t u : State}

theorem Keeps.writeEntry {a e} (h : Keeps s t) : Keeps s (t.writeEntry a e) :=
  .ite (.writePhys h) (.writePhys h)

theorem Keeps.mapPage {j v target leaf f level table next p} (h : Keeps s t)
    (e : t.mapPage j v target leaf f level table next = some p) : Keeps s p.1 := by
  induction f generalizing t level table next with
  | zero => cases e
  | succ f ih =>
    unfold State.mapPage at e
    extract_lets _ _ size n _ _ at e
    split at e
    · cases e; exact .writeEntry h
    split at e
    · exact ih h e
    · clear_value size
      split at e
      · cases e
      · exact ih (.writeEntry (.writePhys h)) e

theorem Keeps.shootDown {j a len} (h : Keeps s t) : Keeps s (t.shootDown j a len) := h

theorem Keeps.shootLines {j es} (h : Keeps s t) : Keeps s (t.shootLines j es) :=
  .foldl (fun _ _ h₁ => .ite (.shootDown h₁) h₁) h

theorem Keeps.countBad {es} (h : Keeps s t) : Keeps s (t.countBad es) :=
  .bump h

theorem Ans.Keeps.mapCmd {job addr len} {f : Job → Ans} (h : Machine.Keeps s t) (hf : ∀ j, (f j).Keeps s) :
    (t.mapCmd job addr len f).Keeps s := by
  unfold State.mapCmd
  split
  · exact h
  · exact .ite h (.ite h (hf _))

theorem Keeps.mapPages {j addr len phys page rd wr p} (h : Keeps s t)
    (e : t.mapPages j addr len phys page rd wr = some p) : Keeps s p.1 := by
  unfold State.mapPages at e
  dsimp only at e
  refine List.foldlRecOn (motive := fun o => ∀ p, o = some p → Keeps s p.1) _ _ (fun p e => ?_) (fun o ho k _ p e => ?_) p e
  · cases e; exact h
  · obtain ⟨q, hq, hp⟩ := Option.bind_eq_some_iff.mp e
    exact .mapPage (ho q hq) hp

theorem Keeps.writeHeader {job} (h : Keeps s t) : Keeps s (t.writeHeader job) := by
  unfold State.writeHeader
  split
  · exact h
  · refine .ite h ?_
    split
    · next _ u₁ e₁ =>
        have h₁ : Keeps s u₁ := .fst e₁ (.writeJob h)
        exact h₁
    · next _ u₁ _ e₁ =>
        have h₁ : Keeps s u₁ := .fst e₁ (.writeJob h)
        exact h

theorem Keeps.mapInstall {job next es addr len} (h : Keeps s t) : Keeps s (t.mapInstall job next es addr len) :=
  .writeHeader (.shootDown (.shootLines (.countBad h)))

theorem Out.Keeps.execMapRange {r job addr len phys page rd wr} (h : Machine.Keeps s t) :
    (execMapRange r job addr len phys page rd wr t).Keeps s := by
  refine .next (.zcpStep h fun u h₁ => .mapCmd h₁ fun j => .ite h₁ (.ite h₁ ?_))
  split
  · exact h₁
  · next u₂ _ e =>
    have h₂ : Machine.Keeps s u₂ := .mapPages h₁ e
    split
    · exact h₁
    · exact .mapInstall h₂

theorem Ans.Keeps.rewriteLeaves {job addr len f} (h : Machine.Keeps s t) : (t.rewriteLeaves job addr len f).Keeps s := by
  unfold State.rewriteLeaves
  refine .mapCmd h fun j => ?_
  extract_lets es t₁
  have h₁ : Machine.Keeps s t₁ := .foldl (fun _ _ h₁ => by split <;> [exact .writeEntry h₁; exact h₁]) h
  exact .ite h (Machine.Keeps.writeHeader (.bump (.shootDown (.shootLines (.countBad h₁)))))

theorem Out.Keeps.execUnmapRange {r job addr len} (h : Machine.Keeps s t) : (execUnmapRange r job addr len t).Keeps s :=
  .next (.zcpStep h fun _ h₁ => .rewriteLeaves h₁)

theorem Out.Keeps.execProtectRange {r job addr len rd wr} (h : Machine.Keeps s t) :
    (execProtectRange r job addr len rd wr t).Keeps s :=
  .next (.zcpStep h fun _ h₁ => .rewriteLeaves h₁)

theorem Out.Keeps.execMapRead {r job addr} (h : Machine.Keeps s t) : (execMapRead r job addr t).Keeps s := by
  unfold Machine.execMapRead
  refine .next ?_
  refine .zcpStep h fun _ h₁ => ?_
  split
  · exact h₁
  · refine .ite h₁ ?_
    split <;> exact h₁

theorem Out.Keeps.execMemFlush {r m range} (h : Machine.Keeps s t) : (execMemFlush r m range t).Keeps s := by
  unfold Machine.execMemFlush
  refine .next ?_
  refine .zcpStep h fun _ h₁ => ?_
  dsimp only
  split
  · exact .ite (.bump h₁) (.flushWhere h₁)
  · refine .ite (.bump h₁) ?_
    split
    · exact .bump h₁
    · exact .flushWhere h₁

theorem Out.Keeps.execMemStatus {r m} (h : Machine.Keeps s t) : (execMemStatus r m t).Keeps s :=
  .next (.zcpStep h fun _ h₁ => h₁)

theorem Keeps.loadJob {job p} (h : Keeps s t) : Keeps s (t.loadJob job p) :=
  .bump (.writePhys h)

theorem Out.Keeps.execJobLoad {r job p} (h : Machine.Keeps s t) : (execJobLoad r job p t).Keeps s := by
  unfold Machine.execJobLoad
  refine .next ?_
  refine .zcpStep h fun _ h₁ => ?_
  split
  · exact Machine.Keeps.ite (.bump h₁) h₁
  · exact .loadJob h₁

theorem Ans.Keeps.jobCmd {job} {f : Job → Ans} (h : Machine.Keeps s t) (hf : ∀ j, (f j).Keeps s) :
    (t.jobCmd job f).Keeps s := by
  unfold State.jobCmd
  split
  · exact h
  · exact hf _

theorem Keeps.startJob {j} (h : Keeps s t) : Keeps s (t.startJob j) :=
  .scheduleJobs h

theorem Out.Keeps.execJobStart {r job} (h : Machine.Keeps s t) : (execJobStart r job t).Keeps s :=
  .next (.zcpStep h fun _ h₁ => .jobCmd h₁ fun _ => .ite h₁ (.startJob h₁))

theorem Out.Keeps.execJobStop {r job} (h : Machine.Keeps s t) : (execJobStop r job t).Keeps s :=
  .next (.zcpStep h fun _ h₁ => .jobCmd h₁ fun _ => .endJob h₁)

theorem Keeps.unloadJob {j} (h : Keeps s t) : Keeps s (t.unloadJob j) :=
  .scheduleJobs (.dropPpe (.modPpe (.dropJobCtxs (.dropRdma h))))

theorem Out.Keeps.execJobUnload {r job} (h : Machine.Keeps s t) : (execJobUnload r job t).Keeps s :=
  .next (.zcpStep h fun _ h₁ => .jobCmd h₁ fun _ => .ite (.unloadJob h₁) h₁)

theorem Keeps.resumeJob {j a tile} (h : Keeps s t) : Keeps s (t.resumeJob j a tile).1 :=
  .ite_fst (.ite_fst h (.foldl (fun _ _ h₁ => .kickAll h₁) (.foldl (fun _ _ h₁ => .fetchCheck h₁) (.collResume (.ite
    (.foldl (fun _ _ h₁ => h₁) (.foldl (fun _ _ h₁ => h₁) h)) (.foldl (fun _ _ h₁ => h₁) (.foldl
    (fun _ _ h₁ => h₁) h))))))) h

theorem Out.Keeps.execJobResume {r job a tile} (h : Machine.Keeps s t) : (execJobResume r job a tile t).Keeps s :=
  .next (.zcpStep h fun _ h₁ => .jobCmd h₁ fun _ => .ite h₁ (.ite h₁ (.resumeJob h₁)))

theorem Out.Keeps.execJobPreempt {r job urgent prio} (h : Machine.Keeps s t) :
    (execJobPreempt r job urgent prio t).Keeps s :=
  .next (.zcpStep h fun _ h₁ => .jobCmd h₁ fun _ => .ite h₁ (.scheduleJobs h₁))

theorem Out.Keeps.execJobStatus {r job} (h : Machine.Keeps s t) : (execJobStatus r job t).Keeps s :=
  .next (.zcpStep h fun _ h₁ => .ite h₁ (.jobCmd h₁ fun _ => h₁))

theorem Out.Keeps.execFaultRead {r job count} (h : Machine.Keeps s t) : (execFaultRead r job count t).Keeps s :=
  .next (.zcpStep h fun _ h₁ => .ite (.ite h₁ h₁) (.jobCmd h₁ fun _ => .ite h₁ h₁))

theorem Keeps.readReports {j p first count} (h : Keeps s t) : Keeps s (t.readReports j p first count).1 := by
  unfold State.readReports
  refine .foldl_fst (fun _ _ h₁ => ?_) h
  split
  · exact h₁
  · exact .readJob h₁

theorem Out.Keeps.execPeriodReportRead {r job first count} (h : Machine.Keeps s t) :
    (execPeriodReportRead r job first count t).Keeps s := by
  unfold Machine.execPeriodReportRead
  refine .next ?_
  refine .zcpStep h fun _ h₁ => ?_
  refine .jobCmd h₁ fun _ => ?_
  split
  · exact h₁
  · refine .ite h₁ ?_
    split
    · next _ u₂ _ e₂ =>
        have h₂ : Machine.Keeps s u₂ := .fst e₂ (.readReports h₁)
        exact h₂
    · next _ u₂ _ e₂ =>
        have h₂ : Machine.Keeps s u₂ := .fst e₂ (.readReports h₁)
        exact .schedFault h₂

theorem Out.Keeps.execBreakArm {r job armed} (h : Machine.Keeps s t) : (execBreakArm r job armed t).Keeps s :=
  .next (.zcpStep h fun _ h₁ => .jobCmd h₁ fun _ => h₁)

theorem Keeps.modRegion {k f} (h : Keeps s t) : Keeps s (t.modRegion k f) := h

theorem Keeps.thermalEvent {k threshold} (h : Keeps s t) : Keeps s (t.thermalEvent k threshold) :=
  .event h

theorem Keeps.thermalFlag {f k} (h : Keeps s t) : Keeps s (t.thermalFlag f k) :=
  .setFlag h

theorem Keeps.holdCheck {k} (h : Keeps s t) : Keeps s (t.holdCheck k) := by
  unfold State.holdCheck
  refine .ite h ?_
  split
  · exact h
  · exact .ite (.modRegion h) (.ite (.modRegion h) h)

theorem Keeps.judgeWarning {k t'} (h : Keeps s t) : Keeps s (t.judgeWarning k t') :=
  .dite (fun _ => .ite (.thermalEvent (.thermalFlag (.modRegion h))) (.ite (.thermalEvent (.modRegion h)) h)) fun _ => .ite
    (.thermalEvent (.thermalFlag (.modRegion h))) (.ite (.thermalEvent (.modRegion h)) h)

theorem Keeps.judgeThrottle {k t'} (h : Keeps s t) : Keeps s (t.judgeThrottle k t') := by
  unfold State.judgeThrottle
  extract_lets +onlyGivenNames r th nbrs trip quiet since t₁ t₂ r' t₃ t₄ calm t₅ t₆ cool t₇
  have h₁ : Keeps s t₁ := .modRegion h
  have h₂ : Keeps s t₂ := .ite (.thermalEvent (.bump h₁)) h₁
  have h₃ : Keeps s t₃ := .ite (.bump (.modRegion h₂)) h₂
  have h₄ : Keeps s t₄ := .ite (.thermalEvent (.thermalFlag (.modRegion h₃))) h₃
  have h₅ : Keeps s t₅ := .modRegion h₄
  have h₆ : Keeps s t₆ := .ite (.thermalEvent (.modRegion h₅)) h₅
  have h₇ : Keeps s t₇ := .modRegion h₆
  clear_value t₇
  exact .dite (fun _ => h₇) fun _ => h₇

theorem Keeps.judgeRate {k t'} (h : Keeps s t) : Keeps s (t.judgeRate k t') :=
  .ite (.modRegion h) (.ite (.ite (.modRegion h) (.modRegion h)) (.modRegion h))

theorem Keeps.judgeSensor {k i before had} (h : Keeps s t) : Keeps s (t.judgeSensor k i before had) :=
  .ite (.setFlag (.bump h)) (.ite (.ite (.setFlag (.bump (.modRegion h))) (.modRegion h)) h)

theorem Keeps.sampleRegion {r readings} (h : Keeps s t) : Keeps s (t.sampleRegion r readings) := by
  unfold State.sampleRegion
  extract_lets k before t₁ t₂
  have h₂ : Keeps s t₂ := .foldl (fun _ _ => .judgeSensor) (.modRegion h)
  split
  · exact h₂
  · exact .ite (.thermalShutdown (.thermalEvent h₂)) (.ite h₂ (.holdCheck (.judgeRate (.judgeThrottle (.judgeWarning h₂)))))

theorem Out.Keeps.execSensorSample {r readings} (h : Machine.Keeps s t) : (execSensorSample r readings t).Keeps s :=
  .when_ h (.sampleRegion h)

theorem Out.Keeps.execThermalLimitStep {d r} (h : Machine.Keeps s t) : (execThermalLimitStep d r t).Keeps s :=
  .when_ h (.holdCheck (.modRegion h))

theorem Out.Keeps.execHubThrottleStep (h : Machine.Keeps s t) : (execHubThrottleStep t).Keeps s :=
  .when_ h (.ite h (.ite h h))

theorem Out.Keeps.execVoltageStepDone {d r} (h : Machine.Keeps s t) : (execVoltageStepDone d r t).Keeps s :=
  .when_ h (.holdCheck h)

theorem Keeps.countInput {mw mv} (h : Keeps s t) : Keeps s (t.countInput mw mv) := by
  unfold State.countInput
  extract_lets nj p t₁ t₂ t₃
  have h₂ : Keeps s t₂ := .bump (t := t₁) (.same rfl rfl rfl h)
  have h₃ : Keeps s t₃ := .ite (.bump h₂) h₂
  exact .ite (.bump h₃) h₃

theorem Keeps.samplePower {mw mv} (h : Keeps s t) : Keeps s (t.samplePower mw mv) := by
  unfold State.samplePower
  extract_lets +onlyGivenNames c t₁ b p t₂
  have h₁ : Keeps s t₁ := .countInput h
  have h₂ : Keeps s t₂ := .same (t := t₁) rfl rfl rfl h₁
  clear_value t₂
  exact .ite (.same (t := (t₂.bump .pwrCapActs).setFlag .powerCapped 0 0) rfl rfl rfl (.setFlag (.bump h₂)))
    (.same (t := t₂) rfl rfl rfl h₂)

theorem Out.Keeps.execPowerSample {mw mv} (h : Machine.Keeps s t) : (execPowerSample mw mv t).Keeps s :=
  .when_ h (.samplePower h)

theorem Out.Keeps.execOvercurrent (h : Machine.Keeps s t) : (execOvercurrent t).Keeps s :=
  .when_ h (.ite h (.bump h))

theorem Out.Keeps.execOvercurrentRelease (h : Machine.Keeps s t) : (execOvercurrentRelease t).Keeps s :=
  .when_ h h

theorem Out.Keeps.execThermalStatus {r tgt} (h : Machine.Keeps s t) : (execThermalStatus r tgt t).Keeps s :=
  .next (.zcpStep h fun _ h₁ => h₁)

theorem Out.Keeps.execPowerStatus {r} (h : Machine.Keeps s t) : (execPowerStatus r t).Keeps s :=
  .next (.zcpStep h fun _ h₁ => h₁)

theorem Out.Keeps.execPowerCapSet {r cap setpoints} (h : Machine.Keeps s t) : (execPowerCapSet r cap setpoints t).Keeps s :=
  .next (.zcpStep h fun _ h₁ => .ite h₁ h₁)

theorem Out.Keeps.execAck {p fsn} (h : Machine.Keeps s t) : (execAck p fsn t).Keeps s :=
  .when_ h (.ackIn h)

theorem Out.Keeps.execRetry {p fsn} (h : Machine.Keeps s t) : (execRetry p fsn t).Keeps s :=
  .when_ h (.retryIn h)

theorem Out.Keeps.execSwap {p m} (h : Machine.Keeps s t) : (execSwap p m t).Keeps s :=
  .when_ h (.swapIn h)

theorem Out.Keeps.execSwapAck {p m} (h : Machine.Keeps s t) : (execSwapAck p m t).Keeps s :=
  .when_ h h

theorem Out.Keeps.execSwapAt {p d} (h : Machine.Keeps s t) : (execSwapAt p d t).Keeps s :=
  .when_ h (.auditTry (.swapDue h))

theorem Out.Keeps.execLaneBlock {p lane b} (h : Machine.Keeps s t) : (execLaneBlock p lane b t).Keeps s :=
  .when_ h (.blockIn h)

theorem Out.Keeps.execRetryRepeat {p} (h : Machine.Keeps s t) : (execRetryRepeat p t).Keeps s := by
  unfold Machine.execRetryRepeat
  split
  · exact .next h
  · exact .when_ h (.sendRetry h)

theorem Out.Keeps.execAckTimer {p} (h : Machine.Keeps s t) : (execAckTimer p t).Keeps s := by
  unfold Machine.execAckTimer
  exact .when_ h h

theorem Out.Keeps.execLaneFailure {p d lane cause} (h : Machine.Keeps s t) : (execLaneFailure p d lane cause t).Keeps s :=
  .when_ h (.failLane h)

theorem Keeps.countTone {p k r} (h : Keeps s t) : Keeps s (t.countTone p k r) := by
  unfold State.countTone
  split
  · exact h
  · exact .bump h
  · exact .bump h

theorem Out.Keeps.execToneRecheck {p d lane r} (h : Machine.Keeps s t) : (execToneRecheck p d lane r t).Keeps s := by
  unfold Machine.execToneRecheck
  exact .when_ h (.ite h (.ite (.countTone h) (.failLane (.countTone h))))

theorem Out.Keeps.execLaneRecovery {p d lane} (h : Machine.Keeps s t) : (execLaneRecovery p d lane t).Keeps s := by
  unfold Machine.execLaneRecovery
  exact .when_ h h

theorem Out.Keeps.execPeerPresent {p waves} (h : Machine.Keeps s t) : (execPeerPresent p waves t).Keeps s :=
  .when_ h (.tryTrain h)

theorem Out.Keeps.execRingLock {p d lane r} (h : Machine.Keeps s t) : (execRingLock p d lane r t).Keeps s := by
  unfold Machine.execRingLock
  exact .when_ h (.ite (.ite (.enterStep (.countTone h)) (.countTone h)) (.ite (.countTone h) h))

theorem Keeps.equalised {p pass200 pass100 peerRate100} (h : Keeps s t) :
    Keeps s (t.equalised p pass200 pass100 peerRate100) :=
  .ite (.goDown h) (.enterStep h)

theorem Out.Keeps.execEqualiseComplete {p pass200 pass100 peerRate100} (h : Machine.Keeps s t) :
    (execEqualiseComplete p pass200 pass100 peerRate100 t).Keeps s := by
  unfold Machine.execEqualiseComplete
  exact .when_ h (.equalised h)

theorem Out.Keeps.execTrainingSequence {p step id idents roundTrip} (h : Machine.Keeps s t) :
    (execTrainingSequence p step id idents roundTrip t).Keeps s := by
  unfold Machine.execTrainingSequence
  exact .when_ h (.ite (.ite (.goDown h) h) (.ite (.trainOn h) h))

theorem Out.Keeps.execTrainTimeout {p} (h : Machine.Keeps s t) : (execTrainTimeout p t).Keeps s := by
  unfold Machine.execTrainTimeout
  exact .when_ h (.goDown (.bump h))

theorem Out.Keeps.execPeerRetrain {p} (h : Machine.Keeps s t) : (execPeerRetrain p t).Keeps s :=
  .when_ h (.goDown h)

theorem Out.Keeps.execTrainingRetry {p} (h : Machine.Keeps s t) : (execTrainingRetry p t).Keeps s := by
  unfold Machine.execTrainingRetry
  exact .when_ h (.tryTrain h)

theorem Out.Keeps.execPortDown {p reason} (h : Machine.Keeps s t) : (execPortDown p reason t).Keeps s :=
  .when_ h (.goDown h)

theorem Keeps.opticalStep {e} (h : Keeps s t) : Keeps s (t.opticalStep e) := by
  unfold State.opticalStep
  refine .ite ?_ ?_
  · split
    · exact .ite (.goDown h) h
    · exact h
  · refine .ite ?_ h
    split
    · exact .ite (.goDown h) h
    · exact h

theorem Out.Keeps.execOpticalRetrainStep {e} (h : Machine.Keeps s t) : (execOpticalRetrainStep e t).Keeps s :=
  .when_ h (.opticalStep h)

end
end Sys2Proof.Machine
end

section
/-! SUPPORT. Invariant (O5, O8). What debug, host Ethernet, security and laser commands keep. -/

-- Proofs are checked as they come: checked beside the rest, they hold their memory until the whole text is.
set_option Elab.async false

namespace Sys2Proof.Machine
section
variable {s t u : State}

theorem Out.Keeps.execCounterCatalogue {r first count} (h : Machine.Keeps s t) :
    (execCounterCatalogue r first count t).Keeps s := by
  unfold Machine.execCounterCatalogue
  refine .next ?_
  refine .zcpStep h fun _ h₁ => ?_
  split <;> exact h₁

theorem Out.Keeps.execCounterRead {r first count} (h : Machine.Keeps s t) : (execCounterRead r first count t).Keeps s := by
  unfold Machine.execCounterRead
  refine .next ?_
  refine .zcpStep h fun _ h₁ => ?_
  split <;> exact h₁

theorem Out.Keeps.execCounterSnapshot {r} (h : Machine.Keeps s t) : (execCounterSnapshot r t).Keeps s :=
  .next (.zcpStep h fun _ h₁ => .takeSnapshot h₁)

theorem Out.Keeps.execSnapshotRead {r first count} (h : Machine.Keeps s t) : (execSnapshotRead r first count t).Keeps s := by
  unfold Machine.execSnapshotRead
  refine .next ?_
  refine .zcpStep h fun _ h₁ => ?_
  split <;> exact h₁

theorem Out.Keeps.execTriggerFire {ix} (h : Machine.Keeps s t) : (execTriggerFire ix t).Keeps s := by
  unfold Machine.execTriggerFire
  split
  · exact .next h
  · exact .when_ h (.ite (.takeSnapshot (.bump h)) (.freeze (.bump h)))

theorem Out.Keeps.execFreezeTrigger {r c} (h : Machine.Keeps s t) : (execFreezeTrigger r c t).Keeps s := by
  unfold Machine.execFreezeTrigger
  refine .next ?_
  refine .zcpStep h fun _ h₁ => ?_
  dsimp only
  split
  · exact h₁
  · split <;> exact h₁

theorem Out.Keeps.execFreezeStart {cause tag} (h : Machine.Keeps s t) : (execFreezeStart cause tag t).Keeps s :=
  .when_ h (.ite (.ite (.bump h) (.freeze h)) (.freeze (.ite (.bump h) h)))

theorem Out.Keeps.execFreeze {r tag} (h : Machine.Keeps s t) : (execFreeze r tag t).Keeps s :=
  .next (.zcpStep h fun _ h₁ => .freeze h₁)

theorem Out.Keeps.execDumpConfig {r c} (h : Machine.Keeps s t) : (execDumpConfig r c t).Keeps s := by
  unfold Machine.execDumpConfig
  refine .next ?_
  refine .zcpStep h fun _ h₁ => ?_
  split
  · exact .bump h₁
  · exact .ite h₁ (.ite h₁ h₁)

theorem Keeps.writeDump {a bs} (h : Keeps s t) : Keeps s (t.writeDump a bs) :=
  .writePhys h

theorem Keeps.writeOpen {a n} (h : Keeps s t) : Keeps s (t.writeOpen a n) :=
  .writeDump h

theorem Keeps.scanOut {base accs sram} (h : Keeps s t) : Keeps s (t.scanOut base accs sram) := by
  unfold State.scanOut
  extract_lets +onlyGivenNames tiles t₁ t₂ t₃ t₄ t₅ t₆ t₇ t₈ t₉ t₁₀ t₁₁ t₁₂
  have h₁ : Keeps s t₁ := .writeDump h
  have h₂ : Keeps s t₂ := .foldl (fun _ _ h => .writeDump h) h₁
  have h₅ : Keeps s t₅ := .foldl (fun _ _ => .writeDump) (.writeOpen (.writeDump h₂))
  have h₆ : Keeps s t₆ := .foldl (fun _ _ => .writeDump) h₅
  have h₈ : Keeps s t₈ := .foldl (fun _ _ h => .writeOpen (.writeDump (.writeOpen h))) (.writeOpen h₆)
  have h₉ : Keeps s t₉ := .ite h₈ (.foldl (fun _ _ h => .writeDump (.writeOpen (.writeDump h))) h₈)
  have h₁₀ : Keeps s t₁₀ := .ite h₉ (.foldl (fun _ _ => .writeLines) h₉)
  have h₁₁ : Keeps s t₁₁ := .writeDump h₁₀
  have h₁₂ : Keeps s t₁₂ := by
    unfold t₁₂
    split
    · exact .flushWhere h₁₁
    · exact h₁₁
  clear_value t₁₂
  exact .bump (.same (t := t₁₂) rfl rfl rfl h₁₂)

theorem Ans.Keeps.dumpAnswer {a len} (h : Machine.Keeps s t) : (t.dumpAnswer a len).Keeps s := by
  unfold State.dumpAnswer
  split
  · next _ u₁ _ e₁ =>
      have h₁ : Machine.Keeps s u₁ := .fst e₁ (.checkRead h)
      exact h₁
  · next _ u₁ e₁ =>
      have h₁ : Machine.Keeps s u₁ := .fst e₁ (.checkRead h)
      exact h₁

theorem Out.Keeps.execDumpRead {r offset len} (h : Machine.Keeps s t) : (execDumpRead r offset len t).Keeps s := by
  unfold Machine.execDumpRead
  refine .next ?_
  refine .zcpStep h fun _ h₁ => ?_
  split
  · exact h₁
  · exact .ite h₁ (.ite h₁ (.dumpAnswer h₁))

theorem Keeps.answerLater {src seq change st vs} (h : Keeps s t) : Keeps s (t.answerLater src seq change st vs) := by
  unfold State.answerLater
  split
  · exact .reply h
  · exact h

theorem Keeps.release (h : Keeps s t) : Keeps s t.release := by
  unfold State.release
  extract_lets +onlyGivenNames t₁ long b d t₂ t₃ t₄ t₅ t₆ t₇ t₈ t₉
  have h₁ : Keeps s t₁ := .foldl (fun _ _ => .auditEnd) h
  clear_value t₁
  have h₂ : Keeps s t₂ := .same (t := t₁) rfl rfl rfl h₁
  clear_value t₂
  have h₃ : Keeps s t₃ := .foldl (fun _ _ => .tryTrain) h₂
  have h₄ : Keeps s t₄ := .deferredActions h₃
  have h₅ : Keeps s t₅ := .ite (.modPpe h₄) h₄
  clear_value t₅
  have h₆ : Keeps s t₆ := .drainHost h₅
  have h₇ : Keeps s t₇ := .foldl (fun _ _ h => .foldl (fun _ _ => .routeVc) h) h₆
  have h₈ : Keeps s t₈ := .foldl (fun _ _ => .serve) h₇
  have h₉ : Keeps s t₉ := .foldl (fun _ _ => .kickAll) h₈
  exact .event h₉

theorem Keeps.releaseTest (h : Keeps s t) : Keeps s t.releaseTest := by
  unfold State.releaseTest
  dsimp only
  split
  · exact h
  · exact .ite h (.ite (.answerLater (.bump (.ite h h))) (.foldl (fun _ _ h₁ => .answerLater (.bump h₁)) (.answerLater
      (.release (.ite h h)))))

theorem Out.Keeps.execThaw {r at_} (h : Machine.Keeps s t) : (execThaw r at_ t).Keeps s := by
  unfold Machine.execThaw
  exact .next (.ite (.zcpStep h fun _ h₁ => .ite (.bump h₁) (.ite h₁ h₁)) (.releaseTest (.zcpStep h fun _ h₁ => .ite
    (.bump h₁) (.ite h₁ h₁))))

theorem Out.Keeps.execReleaseTest (h : Machine.Keeps s t) : (execReleaseTest t).Keeps s :=
  .when_ h (.releaseTest h)

theorem Keeps.scanEnds {base accs sram} (h : Keeps s t) : Keeps s (t.scanEnds base accs sram) := by
  refine .releaseTest (.foldl (fun u d h₁ => ?_) (.scanOut h))
  have ha : (u.dumpAnswer (base + d.2.2.1) d.2.2.2).Keeps s := .dumpAnswer h₁
  split
  · next e => rw [e] at ha; exact .answerLater ha
  · next e => rw [e] at ha; exact .answerLater ha
  · next e => rw [e] at ha; exact ha

theorem Out.Keeps.execScanOutComplete (h : Machine.Keeps s t) : (execScanOutComplete t).Keeps s := by
  unfold Machine.execScanOutComplete
  split
  · exact .next h
  · exact .when_ h (.scanEnds h)

theorem Out.Keeps.execAudit {r p vc} (h : Machine.Keeps s t) : (execAudit r p vc t).Keeps s := by
  unfold Machine.execAudit
  exact .next (.ite (.zcpStep h fun _ h₁ => .ite h₁ (.bump h₁)) (.auditTry (.zcpStep h fun _ h₁ => .ite h₁ (.bump h₁))))

theorem Keeps.holdFrame {h' f} (h : Keeps s t) : Keeps s (t.holdFrame h' f) :=
  .ite (.bump h) (.ite (.bump h) h)

theorem Keeps.ethFrameIn {i f} (h : Keeps s t) : Keeps s (t.ethFrameIn i f) := by
  unfold State.ethFrameIn
  refine .ite (.bump (.bump (.bump (.bump (.bump h))))) ?_
  refine .ite (.bump (.bump (.bump (.bump (.bump h))))) ?_
  split
  · exact .bump (.bump (.bump (.bump (.bump h))))
  · exact .bump (.bump (.bump (.bump (.bump h))))
  · exact .bump (.bump (.bump (.bump (.bump h))))
  · exact .bump (.bump (.bump (.bump (.bump h))))
  · exact .ite (.holdFrame (.bump (.bump (.bump (.bump (.bump h)))))) (.bump (.bump (.bump (.bump (.bump h)))))
  · exact .zcpPacketIn (.bump (.bump (.bump (.bump (.bump h)))))
  · exact .bump (.bump (.bump (.bump (.bump h))))

theorem Out.Keeps.execFrameReceived {i f} (h : Machine.Keeps s t) : (execFrameReceived i f t).Keeps s :=
  .when_ h (.ethFrameIn h)

theorem Out.Keeps.execPtpMessage {i stamp} (h : Machine.Keeps s t) : (execPtpMessage i stamp t).Keeps s :=
  .when_ h h

theorem Out.Keeps.execControlFrame {i dhcp} (h : Machine.Keeps s t) : (execControlFrame i dhcp t).Keeps s := by
  unfold Machine.execControlFrame
  refine .when_ h ?_
  split
  · exact .ite (.setAddr h) h
  · exact .ite (.bump h) h

theorem Out.Keeps.execAddressChange {i ix addr} (h : Machine.Keeps s t) : (execAddressChange i ix addr t).Keeps s :=
  .when_ h (.setAddr h)

theorem Out.Keeps.execHostLinkChange {i up} (h : Machine.Keeps s t) : (execHostLinkChange i up t).Keeps s := by
  unfold Machine.execHostLinkChange
  exact .when_ h (.ite (.foldl (fun _ _ h₁ => .workQp h₁) h) h)

theorem Keeps.pfcIn {h' pause} (h : Keeps s t) : Keeps s (t.pfcIn h' pause) :=
  .releaseTx (.foldl (fun _ _ h₁ => .ite (.bump (.ite (.ite h₁ h₁) (.ite h₁ h₁))) (.ite (.ite h₁ h₁) (.ite h₁ h₁))) h)

theorem Out.Keeps.execPfcFrame {h' pause} (h : Machine.Keeps s t) : (execPfcFrame h' pause t).Keeps s :=
  .when_ h (.pfcIn h)

theorem Out.Keeps.execPfcWatchdog {h' prio} (h : Machine.Keeps s t) : (execPfcWatchdog h' prio t).Keeps s := by
  unfold Machine.execPfcWatchdog
  exact .when_ h (.releaseTx (.bump (.setFlag h)))

theorem Out.Keeps.execRoceRequest {i q} (h : Machine.Keeps s t) : (execRoceRequest i q t).Keeps s := by
  unfold Machine.execRoceRequest
  split
  · exact .next h
  · exact .when_ h (.roceIn h)

theorem Out.Keeps.onRts {n c f} (h : Machine.Keeps s t) (hf : ∀ q, Machine.Keeps s (f t q)) : (t.onRts n c f).Keeps s := by
  unfold State.onRts
  split
  · exact .next h
  · exact .when_ h (hf _)

theorem Out.Keeps.execRoceAck {qpn a} (h : Machine.Keeps s t) : (execRoceAck qpn a t).Keeps s :=
  .onRts h fun _ => .roceAnswer h

theorem Out.Keeps.execCnp {qpn} (h : Machine.Keeps s t) : (execCnp qpn t).Keeps s :=
  .onRts h fun _ => .cnpIn h

theorem Out.Keeps.execDoorbellPoll {qpn} (h : Machine.Keeps s t) : (execDoorbellPoll qpn t).Keeps s :=
  .onRts h fun _ => .doorbell h

theorem Out.Keeps.execLocalAckTimeout {qpn} (h : Machine.Keeps s t) : (execLocalAckTimeout qpn t).Keeps s :=
  .onRts h fun _ => .retryQp h

theorem Out.Keeps.execRnrTimer {qpn} (h : Machine.Keeps s t) : (execRnrTimer qpn t).Keeps s :=
  .onRts h fun _ => .workQp (.resendFrom (.modQp h))

theorem Out.Keeps.execRateTimer {qpn} (h : Machine.Keeps s t) : (execRateTimer qpn t).Keeps s :=
  .onRts h fun _ => .rateTick h

theorem Keeps.setMode {h' m} (h : Keeps s t) : Keeps s (t.setMode h' m) :=
  .ite h (.qpErrors (.foldl (fun _ _ h₁ => .ite h₁ h₁) h))

theorem Keeps.setStatic {i v4 v6} (h : Keeps s t) : Keeps s (t.setStatic i v4 v6) :=
  .foldl (fun _ _ h₁ => .ite (.setAddr h₁) h₁) h

theorem Keeps.hostConfigure {i c} (h : Keeps s t) : Keeps s (t.hostConfigure i c) := by
  unfold State.hostConfigure
  extract_lets +onlyGivenNames p t₁ t₂ t₃ t₄ t₅
  have h₁ : Keeps s t₁ := by
    unfold t₁
    split
    · exact .setMode h
    · exact h
  have h₂ : Keeps s t₂ := .setStatic h₁
  have h₅ : Keeps s t₅ := .releaseTx (.same (t := t₂) rfl rfl rfl h₂)
  clear_value t₅
  exact .ite h₅ (.same (t := t₅) rfl rfl rfl h₅)

theorem Out.Keeps.execHostConfig {r i c} (h : Machine.Keeps s t) : (execHostConfig r i c t).Keeps s :=
  .next (.zcpStep h fun _ h₁ => .hostConfigure h₁)

theorem Out.Keeps.execHostStatus {r i} (h : Machine.Keeps s t) : (execHostStatus r i t).Keeps s :=
  .next (.zcpStep h fun _ h₁ => h₁)

theorem Out.Keeps.execMrRegister {r job base len rights} (h : Machine.Keeps s t) :
    (execMrRegister r job base len rights t).Keeps s := by
  refine .next (.zcpStep h fun u h₁ => .ite h₁ (.ite (.bump h₁) (.ite h₁ ?_)))
  split
  · exact .bump h₁
  · exact h₁

theorem Out.Keeps.execMrDeregister {r job rkey} (h : Machine.Keeps s t) : (execMrDeregister r job rkey t).Keeps s := by
  unfold Machine.execMrDeregister
  refine .next ?_
  refine .zcpStep h fun _ h₁ => ?_
  refine .ite h₁ ?_
  split <;> exact h₁

theorem Out.Keeps.execQpCreate {r job p} (h : Machine.Keeps s t) : (execQpCreate r job p t).Keeps s := by
  refine .next (.zcpStep h fun u h₁ => ?_)
  have hb : ∀ i j n, Machine.Keeps s (u.bump .rdmaRefused i j n) := fun _ _ _ => .bump h₁
  split
  · exact h₁
  · split
    · exact Machine.Keeps.ite (hb _ _ _) h₁
    · refine Ans.Keeps.ite (hb _ _ _) ?_
      split
      · exact hb _ _ _
      · exact h₁

theorem Keeps.qpChange {qpn q st attr} (h : Keeps s t) : Keeps s (t.qpChange qpn q st attr) := by
  unfold State.qpChange
  dsimp only
  split
  · exact .modQp (.modQp h)
  · exact .qpError (.modQp h)
  · exact .modQp (.modQp h)
  · exact .modQp (.modQp h)
  · exact .workQp (.modQp (.modQp h))

theorem Out.Keeps.execQpModify {r qpn st attr} (h : Machine.Keeps s t) : (execQpModify r qpn st attr t).Keeps s := by
  unfold Machine.execQpModify
  refine .next ?_
  refine .zcpStep h fun _ h₁ => ?_
  split
  · exact h₁
  · split
    · exact h₁
    · refine .ite h₁ ?_
      split
      · exact Machine.Keeps.ite (.bump h₁) h₁
      · exact .qpChange h₁

theorem Out.Keeps.execQpDestroy {r qpn} (h : Machine.Keeps s t) : (execQpDestroy r qpn t).Keeps s :=
  .next (.zcpStep h fun _ h₁ => .ite h₁ (.dropQp h₁))

theorem Out.Keeps.execQpDoorbell {r qpn} (h : Machine.Keeps s t) : (execQpDoorbell r qpn t).Keeps s :=
  .next (.zcpStep h fun _ h₁ => .ite h₁ (.doorbell h₁))

theorem Out.Keeps.execQpQuery {r qpn} (h : Machine.Keeps s t) : (execQpQuery r qpn t).Keeps s := by
  unfold Machine.execQpQuery
  refine .next ?_
  refine .zcpStep h fun _ h₁ => ?_
  split <;> exact h₁

theorem Out.Keeps.execAttest {r nonce ids} (h : Machine.Keeps s t) : (execAttest r nonce ids t).Keeps s :=
  .next (.zcpStep h fun _ h₁ => .ite h₁ (.ite h₁ (.ite h₁ (.bump h₁))))

theorem Out.Keeps.execCertRead {r} (h : Machine.Keeps s t) : (execCertRead r t).Keeps s :=
  .next (.zcpStep h fun _ h₁ => h₁)

theorem Out.Keeps.execMeasureRead {r} (h : Machine.Keeps s t) : (execMeasureRead r t).Keeps s :=
  .next (.zcpStep h fun _ h₁ => h₁)

theorem Out.Keeps.execFwStatus {r} (h : Machine.Keeps s t) : (execFwStatus r t).Keeps s :=
  .next (.zcpStep h fun _ h₁ => h₁)

theorem Out.Keeps.execFwWrite {r offset data} (h : Machine.Keeps s t) : (execFwWrite r offset data t).Keeps s := by
  refine .next (.zcpStep h fun u h₁ => .ite h₁ (.ite h₁ ?_))
  exact .bump (.bump (.flash (Flash.setBank_rollback ..) h₁))

theorem Keeps.markBank {x} (h : Keeps s t) : Keeps s (t.markBank x) := .flash (Flash.setBank_rollback ..) h

theorem Out.Keeps.execFwVerify {r} (h : Machine.Keeps s t) : (execFwVerify r t).Keeps s := by
  unfold Machine.execFwVerify
  refine .next ?_
  refine .zcpStep h fun _ h₁ => ?_
  split
  · exact .markBank h₁
  · exact .bump (.markBank h₁)
  · exact .bump (.markBank h₁)

theorem Out.Keeps.execFwActivate {r} (h : Machine.Keeps s t) : (execFwActivate r t).Keeps s :=
  .next (.zcpStep h fun _ h₁ => .ite h₁ (.ite h₁ (.flash (Flash.setAttempts_rollback ..) h₁)))

theorem Out.Keeps.execModuleRestart {r} (h : Machine.Keeps s t) : (execModuleRestart r t).Keeps s := by
  unfold Machine.execModuleRestart
  exact .next (.ite (.zcpStep h fun _ h₁ => h₁) (.bootUp (.resetLogic (.zcpStep h fun _ h₁ => h₁))))

theorem Keeps.modBay {b f} (h : Keeps s t) : Keeps s (t.modBay b f) := h

theorem Keeps.modLaser {b j f} (h : Keeps s t) : Keeps s (t.modLaser b j f) :=
  .modBay h

theorem Keeps.i3cWrite {b offset bs} (h : Keeps s t) : Keeps s (t.i3cWrite b offset bs) :=
  .ite h h

theorem Keeps.writeCtrl {b f} (h : Keeps s t) : Keeps s (t.writeCtrl b f) :=
  .i3cWrite (.modBay h)

theorem Keeps.cartEvent {b} (h : Keeps s t) : Keeps s (t.cartEvent b) :=
  .event h

theorem Keeps.commitLedger {b} (h : Keeps s t) : Keeps s (t.commitLedger b) :=
  .bump (.i3cWrite (.i3cWrite (.modBay (.modBay h))))

theorem Keeps.hostDown {p} (h : Keeps s t) : Keeps s (t.hostDown p) := h

theorem Keeps.feedsDown {b} (h : Keeps s t) : Keeps s (t.feedsDown b) := by
  unfold State.feedsDown
  extract_lets t₁ t₂
  have h₁ : Keeps s t₁ := .foldl (fun _ _ => .goDown) h
  have h₂ : Keeps s t₂ := .foldl (fun _ _ => .hostDown) h₁
  exact .ite (.modPpe (.ite (.ppeOffline h₂) h₂)) h₂

theorem Keeps.bayFault {b reason} (h : Keeps s t) : Keeps s (t.bayFault b reason) :=
  .cartEvent (.feedsDown (.writeCtrl (.ite (.modBay h) (.commitLedger (.modBay h)))))

theorem Keeps.bayGone {b} (h : Keeps s t) : Keeps s (t.bayGone b) :=
  .finishZcp (.feedsDown (.ite (.modBay h) (.bump (.modBay h))))

theorem Keeps.setCondition {b c} (h : Keeps s t) : Keeps s (t.setCondition b c) :=
  .ite h (.cartEvent (.setFlag (.commitLedger (.writeCtrl (.modBay h)))))

theorem Keeps.judge {b last} (h : Keeps s t) : Keeps s (t.judge b last) :=
  .setCondition h

theorem Keeps.bringSpare {b j failure} (h : Keeps s t) : Keeps s (t.bringSpare b j failure) := by
  unfold State.bringSpare
  refine .ite (.foldl (fun _ _ => .failLane) h) (.ite ?_ (.ite (.ite h (.ite (.ppeSwitchover h) h)) (.ite
    (.ppeOffline h) h)))
  extract_lets
  refine .ite ?_ (.ite (.same (t := t) rfl rfl rfl h) (.ite (.hostDown h) h))
  split
  · exact .ite (.hostDown h) h
  · exact h

theorem Keeps.drainBegins {b} (h : Keeps s t) : Keeps s (t.drainBegins b) :=
  .ite (.modBay h) (.ite (.ppeOffline (.cartEvent (.modBay h))) (.cartEvent (.modBay h)))

theorem Keeps.tickDrains (h : Keeps s t) : Keeps s t.tickDrains :=
  .foldl (fun _ _ h₁ => .ite h₁ (.ite (.drainBegins h₁) (.modBay h₁))) h

theorem Keeps.spareIn {b j failure} (h : Keeps s t) : Keeps s (t.spareIn b j failure) := by
  unfold State.spareIn
  extract_lets +onlyGivenNames x l second t₁ t₂ t₃ t₄ t₅
  have h₁ : Keeps s t₁ := .modLaser h
  have h₂ : Keeps s t₂ := .ite (.writeCtrl h₁) h₁
  have h₃ : Keeps s t₃ := .bringSpare h₂
  have h₄ : Keeps s t₄ := .ite h₃ (.bump h₃)
  have h₅ : Keeps s t₅ := .judge (.commitLedger h₄)
  exact .ite h (.ite (.bayFault h₅) h₅)

theorem Keeps.judgeLaser {b j} (h : Keeps s t) : Keeps s (t.judgeLaser b j) := by
  unfold State.judgeLaser
  refine .ite h ?_
  refine .ite (.bump (.i3cWrite (.modLaser h))) ?_
  split
  · exact h
  · exact .ite (.spareIn (.ite (.ite h (.bump (.setFlag (.modLaser h)))) (.ite h (.modLaser h)))) (.ite (.ite h (.bump
      (.setFlag (.modLaser h)))) (.ite h (.modLaser h)))

theorem Keeps.join {b} (h : Keeps s t) : Keeps s (t.join b) :=
  .writeCtrl (.modBay h)

theorem Out.Keeps.execHotJoin {b} (h : Machine.Keeps s t) : (execHotJoin b t).Keeps s :=
  .when_ h (.join h)

theorem Keeps.reauthed {b reason} (h : Keeps s t) : Keeps s (t.reauthed b reason) :=
  .finishZcp h

theorem Keeps.polled {b status} (h : Keeps s t) : Keeps s (t.polled b status) := by
  unfold State.polled
  split
  · exact .ite h (.ite (.modBay h) (.bayGone (.bump (.modBay h))))
  · refine .ite h (.ite (.join h) ?_)
    extract_lets t₁ t₂
    have h₁ : Keeps s t₁ := .modBay h
    have h₂ : Keeps s t₂ := .ite (.i3cWrite (.bump h₁)) h₁
    exact .ite h₂ (.ite (.bayFault h₂) (.ite (.reauthed (.bayFault h₂)) h₂))

theorem Out.Keeps.execI3cPoll {b status} (h : Machine.Keeps s t) : (execI3cPoll b status t).Keeps s :=
  .when_ h (.polled h)

theorem Keeps.strokeDogs (h : Keeps s t) : Keeps s t.strokeDogs :=
  .foldl (fun _ _ h₁ => .ite (.modBay (.writeCtrl h₁)) h₁) h

theorem Out.Keeps.execWdogWrite (h : Machine.Keeps s t) : (execWdogWrite t).Keeps s :=
  .when_ h (.strokeDogs h)

theorem Keeps.authFail {b reason} (h : Keeps s t) : Keeps s (t.authFail b reason) :=
  .reauthed (.cartEvent (.setFlag (.bump (.writeCtrl (.modBay h)))))

theorem Keeps.authWrites {b nonce result} (h : Keeps s t) : Keeps s (t.authWrites b nonce result) :=
  .ite h (.ite (.i3cWrite h) (.i3cWrite (.i3cWrite (.i3cWrite (.i3cWrite h)))))

theorem Keeps.authenticate {b c} (h : Keeps s t) : Keeps s (t.authenticate b c) :=
  .ite (.authFail (.authWrites (.modBay h))) (.reauthed (.cartEvent (.writeCtrl (.modBay (.authWrites (.modBay h))))))

theorem Out.Keeps.execAuthentication {b c} (h : Machine.Keeps s t) : (execAuthentication b c t).Keeps s := by
  unfold Machine.execAuthentication
  exact .when_ h (.authenticate h)

theorem Out.Keeps.execAuthTimeout {b} (h : Machine.Keeps s t) : (execAuthTimeout b t).Keeps s := by
  unfold Machine.execAuthTimeout
  exact .when_ h (.authFail h)

theorem Keeps.rampEnds {b lasers} (h : Keeps s t) : Keeps s (t.rampEnds b lasers) := by
  unfold State.rampEnds
  extract_lets +onlyGivenNames low rd old t₁ t₂ t₃ t₄ t₅
  have h₂ : Keeps s t₂ := .writeCtrl (.bump (.modBay h))
  have h₃ : Keeps s t₃ := .ite (.calibrate h₂) h₂
  have h₄ : Keeps s t₄ := .foldl (fun _ _ h => .ite (.spareIn h) (.ite (.spareIn (.bump h)) (.ite (.spareIn h) h))) h₃
  exact .ite h₄ (.cartEvent (.foldl (fun _ _ => .tryTrain) h₄))

theorem Out.Keeps.execRampingEnd {b lasers} (h : Machine.Keeps s t) : (execRampingEnd b lasers t).Keeps s := by
  unfold Machine.execRampingEnd
  exact .when_ h (.rampEnds h)

theorem Keeps.commission {b} (h : Keeps s t) : Keeps s (t.commission b) :=
  .commitLedger (.modBay h)

theorem Out.Keeps.execCommissioning {b} (h : Machine.Keeps s t) : (execCommissioning b t).Keeps s := by
  unfold Machine.execCommissioning
  exact .when_ h (.commission h)

theorem Keeps.fadeSample {b lasers temp} (h : Keeps s t) : Keeps s (t.fadeSample b lasers temp) :=
  .ite (.judge (.foldl (fun _ _ h₁ => .ite h₁ (.ite (.spareIn h₁) (.judgeLaser h₁))) (.modBay h))) (.foldl
    (fun _ _ h₁ => .ite h₁ (.ite (.spareIn h₁) (.judgeLaser h₁))) (.modBay h))

theorem Out.Keeps.execFadeSample {b lasers temp} (h : Machine.Keeps s t) : (execFadeSample b lasers temp t).Keeps s :=
  .when_ h (.fadeSample h)

theorem Out.Keeps.execFailureSample {b j d} (h : Machine.Keeps s t) : (execFailureSample b j d t).Keeps s := by
  unfold Machine.execFailureSample
  exact .when_ h (.ite (.spareIn (.bump h)) (.ite (.spareIn h) h))

theorem Out.Keeps.execLedgerCommit {b busy} (h : Machine.Keeps s t) : (execLedgerCommit b busy t).Keeps s := by
  unfold Machine.execLedgerCommit
  exact .when_ h (.ite (.bump (.modBay h)) (.commitLedger h))

theorem Keeps.drained {b} (h : Keeps s t) : Keeps s (t.drained b) :=
  .cartEvent (.modBay (.writeCtrl (.commitLedger (.feedsDown (.modBay h)))))

theorem Out.Keeps.execDrainComplete {b} (h : Machine.Keeps s t) : (execDrainComplete b t).Keeps s :=
  .when_ h (.drained h)

theorem Out.Keeps.execCartStatus {r b} (h : Machine.Keeps s t) : (execCartStatus r b t).Keeps s :=
  .next (.zcpStep h fun _ h₁ => h₁)

theorem Out.Keeps.execCartLedgerRead {r b} (h : Machine.Keeps s t) : (execCartLedgerRead r b t).Keeps s :=
  .next (.zcpStep h fun _ h₁ => .ite h₁ h₁)

theorem Out.Keeps.execCartDrain {r b} (h : Machine.Keeps s t) : (execCartDrain r b t).Keeps s :=
  .next (.zcpStep h fun _ h₁ => .ite h₁ (.ite h₁ (.drainBegins h₁)))

theorem Keeps.again {b} (h : Keeps s t) : Keeps s (t.again b) :=
  .writeCtrl (.modBay h)

theorem Out.Keeps.execCartResume {r b} (h : Machine.Keeps s t) : (execCartResume r b t).Keeps s :=
  .next (.zcpStep h fun _ h₁ => .ite h₁ (.ite h₁ (.again h₁)))

theorem Out.Keeps.execCartReauth {r b} (h : Machine.Keeps s t) : (execCartReauth r b t).Keeps s :=
  .next (.zcpStep h fun _ h₁ => .ite h₁ (.ite h₁ (.again h₁)))

end
end Sys2Proof.Machine
end

section
/-! SUPPORT. Invariant (O5, O8). What memory's events, the photonic engine, time and a tick keep. -/

-- Proofs are checked as they come: checked beside the rest, they hold their memory until the whole text is.
set_option Elab.async false

namespace Sys2Proof.Machine
section
variable {s t u : State}

theorem Out.Keeps.execWcbAgeFlush {m} (h : Machine.Keeps s t) : (execWcbAgeFlush m t).Keeps s :=
  .when_ h (.flushWhere h)

theorem Out.Keeps.execBankRefresh {m bank} (h : Machine.Keeps s t) : (execBankRefresh m bank t).Keeps s := by
  unfold Machine.execBankRefresh
  exact .when_ h h

theorem Out.Keeps.execEccCorrectedWriteback {m line} (h : Machine.Keeps s t) :
    (execEccCorrectedWriteback m line t).Keeps s := by
  unfold Machine.execEccCorrectedWriteback
  exact .when_ h (.activate h)

theorem Out.Keeps.execRowRepair {m bank row} (h : Machine.Keeps s t) : (execRowRepair m bank row t).Keeps s := by
  unfold Machine.execRowRepair
  exact .when_ h (.ite (.bump h) (.bump h))

theorem Out.Keeps.execProject {t' w} (h : Machine.Keeps s t) : (execProject t' w t).Keeps s := by
  unfold Machine.execProject
  refine .next ?_
  refine .decode h fun _ _ _ h₁ => ?_
  dsimp only
  split
  · exact trivial
  · exact .ite h₁ (.kickPpe h₁)

theorem Keeps.startBatch (h : Keeps s t) : Keeps s t.startBatch := by
  unfold State.startBatch
  dsimp only
  split
  · exact h
  · refine .ite (.reprogram h) ?_
    split
    · exact .enterMesh h
    · exact h

theorem Out.Keeps.execBatchStart (h : Machine.Keeps s t) : (execBatchStart t).Keeps s :=
  .when_ h (.startBatch h)

theorem Out.Keeps.execBatchComplete {dark} (h : Machine.Keeps s t) : (execBatchComplete dark t).Keeps s :=
  .when_ h (.leaveMesh h)

theorem Out.Keeps.execSlotTurn (h : Machine.Keeps s t) : (execSlotTurn t).Keeps s := by
  unfold Machine.execSlotTurn
  split
  · exact .next h
  · exact .when_ h (.reprogram h)

theorem Out.Keeps.execReprogramDone (h : Machine.Keeps s t) : (execReprogramDone t).Keeps s := by
  unfold Machine.execReprogramDone
  split
  · exact .when_ h (.modPpe h)
  · exact .next h

theorem Out.Keeps.execSlotLoadDone {slot} (h : Machine.Keeps s t) : (execSlotLoadDone slot t).Keeps s :=
  .when_ h (.modPpe h)

theorem Keeps.driftUpdate {est} (h : Keeps s t) : Keeps s (t.driftUpdate est) :=
  .ite (.calibrate (.bump (.bump (.modPpe h)))) (.bump (.modPpe h))

theorem Out.Keeps.execDriftUpdate {est} (h : Machine.Keeps s t) : (execDriftUpdate est t).Keeps s :=
  .when_ h (.driftUpdate h)

theorem Keeps.calibrated {pass dead} (h : Keeps s t) : Keeps s (t.calibrated pass dead) :=
  .ite (.finishZcp (.modPpe (.modPpe (.bump h)))) (.ite (.ppeOffline (.ite (.modPpe (.bump h)) (.bump (.modPpe
    (.bump h))))) (.modPpe (.ite (.modPpe (.bump h)) (.bump (.modPpe (.bump h))))))

theorem Out.Keeps.execCalibrationDone {pass dead} (h : Machine.Keeps s t) : (execCalibrationDone pass dead t).Keeps s :=
  .when_ h (.calibrated h)

theorem Out.Keeps.execSwitchover (h : Machine.Keeps s t) : (execSwitchover t).Keeps s :=
  .when_ h (.ppeSwitchover h)

theorem Out.Keeps.execSwitchoverLight (h : Machine.Keeps s t) : (execSwitchoverLight t).Keeps s :=
  .when_ h (.modPpe h)

theorem Out.Keeps.execPpeSlotLoad {r slot p} (h : Machine.Keeps s t) : (execPpeSlotLoad r slot p t).Keeps s := by
  unfold Machine.execPpeSlotLoad
  refine .next ?_
  refine .zcpStep h fun _ h₁ => ?_
  split
  · exact h₁
  · exact .modPpe h₁

theorem Out.Keeps.execPpeSlotClear {r slot} (h : Machine.Keeps s t) : (execPpeSlotClear r slot t).Keeps s :=
  .next (.zcpStep h fun _ h₁ => .ite h₁ (.modPpe h₁))

theorem Out.Keeps.execPpeStatus {r slot} (h : Machine.Keeps s t) : (execPpeStatus r slot t).Keeps s :=
  .next (.zcpStep h fun _ h₁ => h₁)

theorem Out.Keeps.execPpeCalibrate {r} (h : Machine.Keeps s t) : (execPpeCalibrate r t).Keeps s :=
  .next (.zcpStep h fun _ h₁ => .ite h₁ (.ite h₁ (.calibrate h₁)))

theorem Keeps.leaveSync (h : Keeps s t) : Keeps s t.leaveSync :=
  .ite (.setFlag h) h

theorem Keeps.newUpstream (h : Keeps s t) : Keeps s t.newUpstream := by
  unfold State.newUpstream
  split
  · exact h
  · exact .leaveSync h

theorem Keeps.correct {theta} (h : Keeps s t) : Keeps s (t.correct theta) :=
  .ite (.ite h (.bump h)) h

theorem Out.Keeps.execTimeExchange (h : Machine.Keeps s t) : (execTimeExchange t).Keeps s := by
  unfold Machine.execTimeExchange
  refine .when_ h ?_
  split
  · dsimp only
    split
    · exact .ite (.newUpstream h) h
    · exact .bump (.ite (.newUpstream h) h)
  · exact h

theorem Out.Keeps.execPingReply {t1 t2 state stratum} (h : Machine.Keeps s t) :
    (execPingReply t1 t2 state stratum t).Keeps s := by
  unfold Machine.execPingReply
  split
  · exact .next h
  · exact .when_ h (.ite (.ite h h) (.ite (.newUpstream (.ite h h)) (.ite (.newUpstream (.ite h h)) (.correct (.ite h h)))))

theorem Out.Keeps.execMissedExchange (h : Machine.Keeps s t) : (execMissedExchange t).Keeps s := by
  unfold Machine.execMissedExchange
  split
  · exact .when_ h (.ite (.newUpstream (.bump h)) (.bump h))
  · exact .when_ h (.ite (.leaveSync (.bump h)) (.bump h))
  · exact .next h

theorem Out.Keeps.execPtpSync {offset} (h : Machine.Keeps s t) : (execPtpSync offset t).Keeps s := by
  unfold Machine.execPtpSync
  split
  · exact .when_ h (.ite (.leaveSync (.bump h)) (.correct (.bump h)))
  · exact .next h

theorem Out.Keeps.execTimeRead {r} (h : Machine.Keeps s t) : (execTimeRead r t).Keeps s :=
  .next (.zcpStep h fun _ h₁ => h₁)

theorem Out.Keeps.execTimeConfig {r src initial} (h : Machine.Keeps s t) : (execTimeConfig r src initial t).Keeps s := by
  unfold Machine.execTimeConfig
  refine .next ?_
  refine .zcpStep h fun _ h₁ => ?_
  split
  · refine .ite h₁ ?_
    split
    · exact .bump h₁
    · exact h₁
  · exact Machine.Keeps.ite h₁ (.leaveSync h₁)

theorem Keeps.tickTime (h : Keeps s t) : Keeps s t.tickTime := by
  unfold State.tickTime
  extract_lets d
  clear_value d
  exact .same (t := t) rfl rfl rfl h

theorem Keeps.tickSteps (h : Keeps s t) : Keeps s t.tickSteps := by
  unfold State.tickSteps
  extract_lets ts
  generalize (Vector.ofFn fun k : Fin 96 => t.steps[k] + t.regionSteps k.val) = v
  clear_value ts
  exact .same (t := t) rfl rfl rfl h

theorem Keeps.countNs {c id i} (h : Keeps s t) : Keeps s (t.countNs c id i) :=
  .bump h

theorem Keeps.tickTiles (h : Keeps s t) : Keeps s t.tickTiles :=
  .foldl (fun _ _ h₁ => .bump (.bump (.bump h₁))) h

theorem Keeps.tickWaited (h : Keeps s t) : Keeps s t.tickWaited := by
  unfold State.tickWaited
  extract_lets n add t₁ t₂ t₃
  have hadd : ∀ u id i v, Keeps s u → Keeps s (add u id i v) := fun u _ _ _ h₁ => .same (t := u) rfl rfl rfl h₁
  clear_value n add
  have h₁ : Keeps s t₁ := .foldl (fun _ _ h₁ => hadd _ _ _ _ (hadd _ _ _ _ (hadd _ _ _ _ h₁))) h
  have h₂ : Keeps s t₂ := .foldl (fun _ _ => hadd _ _ _ _) h₁
  have h₃ : Keeps s t₃ := .foldl (fun _ _ => hadd _ _ _ _) h₂
  exact hadd _ _ _ _ h₃

theorem Keeps.tickOrt (h : Keeps s t) : Keeps s t.tickOrt :=
  .ite h (.countNs (.countNs h))

theorem Keeps.tickAtomics (h : Keeps s t) : Keeps s t.tickAtomics :=
  .ite h (.drainAtomics (.bump h))

theorem Keeps.tickPort {q} (h : Keeps s t) : Keeps s (t.tickPort q) :=
  .countNs (.countNs (.countNs h))

theorem Keeps.tickHolds (h : Keeps s t) : Keeps s t.tickHolds :=
  .countNs (.countNs (.countNs (.foldl (fun _ _ h₁ => .countNs h₁) (.foldl (fun _ _ h₁ => .countNs (.countNs h₁)) h))))

theorem Keeps.tickPilots (h : Keeps s t) : Keeps s t.tickPilots :=
  .ite h (.bump h)

theorem Keeps.tickPreempt (h : Keeps s t) : Keeps s t.tickPreempt :=
  .foldl (fun _ _ h₁ => .ite (.bump h₁) h₁) h

theorem Keeps.tickBoot (h : Keeps s t) : Keeps s t.tickBoot :=
  .ite h h

theorem Keeps.tick (h : Keeps s t) : Keeps s t.tick := by
  unfold State.tick
  extract_lets t₁ t₂ t₃ t₄ t₅
  have h₁ : Keeps s t₁ := .same (t := t) rfl rfl rfl h
  have h₂ : Keeps s t₂ := .tickTime h₁
  have h₃ : Keeps s t₃ := by
    unfold t₃
    split
    · exact .upset h₂
    · exact h₂
  have h₄ : Keeps s t₄ := .countNs (.tickAtomics (.tickOrt (.ite h₃ (.tickWaited (.tickTiles h₃)))))
  have h₅ : Keeps s t₅ := .foldl (fun _ _ h₁ => .auditTry (.tickFrame (.tickPort h₁))) h₄
  exact .ite h₁ (.ite h₃ (.tickDrains (.tickBoot (.tickPreempt (.tickSteps (.tickPilots (.tickHolds h₅)))))))

end
end Sys2Proof.Machine
end

section
/-! SUPPORT. Invariant (O5, O8). Every command and every step: the proofs of O5 and O8. -/

-- Proofs are checked as they come: checked beside the rest, they hold their memory until the whole text is.
set_option Elab.async false

namespace Sys2Proof.Machine

/-- No command but READY touches the queue or the fuses, and none breaks memory's canonical form. -/
theorem exec_keeps {c : Instr} (s : State) (h : c ≠ .ready) : Out.Keeps s (exec c s) := by
  cases c with
  | powerUp => exact .execPowerUp (.refl s)
  | inputUndervoltage => exact .execInputUndervoltage (.refl s)
  | inputOvervoltage => exact .execInputOvervoltage (.refl s)
  | railFault => exact .execRailFault (.refl s)
  | resetNAssert => exact .execResetNAssert (.refl s)
  | resetNRelease => exact .execResetNRelease (.refl s)
  | bootWatchdog => exact .execBootWatchdog (.refl s)
  | ready => exact absurd rfl h
  | freezeInNFall => exact .execFreezeInNFall (.refl s)
  | jtagBypass => exact .execJtagBypass (.refl s)
  | jtagIdcode => exact .execJtagIdcode (.refl s)
  | jtagSamplePreload => exact .execJtagSamplePreload (.refl s)
  | jtagExtest => exact .execJtagExtest (.refl s)
  | jump => exact .execJump (.refl s)
  | branch => exact .execBranch (.refl s)
  | loop => exact .execLoop (.refl s)
  | call => exact .execCall (.refl s)
  | return_ => exact .execReturn (.refl s)
  | halt => exact .execHalt (.refl s)
  | parkWake => exact .execParkWake (.refl s)
  | waitTally => exact .execWaitTally (.refl s)
  | waitSatisfied => exact .execWaitSatisfied (.refl s)
  | waitTimeout => exact .execWaitTimeout (.refl s)
  | waitEpoch => exact .execWaitEpoch (.refl s)
  | yield_ => exact .execYield (.refl s)
  | salu => exact .execSalu (.refl s)
  | tset => exact .execTset (.refl s)
  | tadd => exact .execTadd (.refl s)
  | scmp => exact .execScmp (.refl s)
  | sldi => exact .execSldi (.refl s)
  | sld => exact .execSld (.refl s)
  | sst => exact .execSst (.refl s)
  | sread => exact .execSread (.refl s)
  | moveReservedOpcode => exact .execMoveReservedOpcode (.refl s)
  | loadStationary => exact .execLoadStationary (.refl s)
  | loadStallEnd => exact .execLoadStallEnd (.refl s)
  | pass => exact .execPass (.refl s)
  | passSplit => exact .execPassSplit (.refl s)
  | passStart => exact .execPassStart (.refl s)
  | attemptOverflow => exact .execAttemptOverflow (.refl s)
  | arrayFault => exact .execArrayFault (.refl s)
  | handshakeTimeout => exact .execHandshakeTimeout (.refl s)
  | passCommit => exact .execPassCommit (.refl s)
  | quadrantCommit => exact .execQuadrantCommit (.refl s)
  | drain => exact .execDrain (.refl s)
  | clear => exact .execClear (.refl s)
  | castle => exact .execCastle (.refl s)
  | uncastle => exact .execUncastle (.refl s)
  | mvPass => exact .execMvPass (.refl s)
  | vop => exact .execVop (.refl s)
  | reduce => exact .execReduce (.refl s)
  | copy => exact .execCopy (.refl s)
  | put => exact .execPut (.refl s)
  | get => exact .execGet (.refl s)
  | atomic => exact .execAtomic (.refl s)
  | signal => exact .execSignal (.refl s)
  | fence => exact .execFence (.refl s)
  | project => exact .execProject (.refl s)
  | collIssue => exact .execCollIssue (.refl s)
  | periodMark => exact .execPeriodMark (.refl s)
  | trace => exact .execTrace (.refl s)
  | break_ => exact .execBreak (.refl s)
  | moveCompletion => exact .execMoveCompletion (.refl s)
  | granuleWritten => exact .execGranuleWritten (.refl s)
  | walkComplete => exact .execWalkComplete (.refl s)
  | holdTimeout => exact .execHoldTimeout (.refl s)
  | wcbAgeFlush => exact .execWcbAgeFlush (.refl s)
  | bankRefresh => exact .execBankRefresh (.refl s)
  | eccCorrectedWriteback => exact .execEccCorrectedWriteback (.refl s)
  | rowRepair => exact .execRowRepair (.refl s)
  | tilePrepared => exact .execTilePrepared (.refl s)
  | saveComplete => exact .execSaveComplete (.refl s)
  | restoreComplete => exact .execRestoreComplete (.refl s)
  | periodStart => exact .execPeriodStart (.refl s)
  | check => exact .execCheck (.refl s)
  | flagFall => exact .execFlagFall (.refl s)
  | lend => exact .execLend (.refl s)
  | reclaim => exact .execReclaim (.refl s)
  | requestPut => exact .execRequestPut (.refl s)
  | requestGet => exact .execRequestGet (.refl s)
  | requestAtomic => exact .execRequestAtomic (.refl s)
  | requestSignal => exact .execRequestSignal (.refl s)
  | getData => exact .execGetData (.refl s)
  | atomicReply => exact .execAtomicReply (.refl s)
  | receipt => exact .execReceipt (.refl s)
  | nak src => exact .execNak (_src := src) (.refl s)
  | lost reporter rport => exact .execLost (_reporter := reporter) (_rport := rport) (.refl s)
  | lowMark => exact .execLowMark (.refl s)
  | control => exact .execControl (.refl s)
  | congMap => exact .execCongMap (.refl s)
  | grant => exact .execGrant (.refl s)
  | refuse => exact .execRefuse (.refl s)
  | result => exact .execResult (.refl s)
  | released => exact .execReleased (.refl s)
  | headFlit => exact .execHeadFlit (.refl s)
  | vcAllocation => exact .execVcAllocation (.refl s)
  | credit => exact .execCredit (.refl s)
  | creditInit => exact .execCreditInit (.refl s)
  | freezeFlit => exact .execFreezeFlit (.refl s)
  | reservedLinkControl => exact .execReservedLinkControl (.refl s)
  | ack => exact .execAck (.refl s)
  | retry => exact .execRetry (.refl s)
  | swap => exact .execSwap (.refl s)
  | swapAck => exact .execSwapAck (.refl s)
  | swapAt => exact .execSwapAt (.refl s)
  | laneBlock => exact .execLaneBlock (.refl s)
  | retryRepeat => exact .execRetryRepeat (.refl s)
  | ackTimer => exact .execAckTimer (.refl s)
  | creditTimer => exact .execCreditTimer (.refl s)
  | laneFailure => exact .execLaneFailure (.refl s)
  | toneRecheck => exact .execToneRecheck (.refl s)
  | laneRecovery => exact .execLaneRecovery (.refl s)
  | peerPresent => exact .execPeerPresent (.refl s)
  | ringLock => exact .execRingLock (.refl s)
  | trainTimeout => exact .execTrainTimeout (.refl s)
  | peerRetrain => exact .execPeerRetrain (.refl s)
  | portDown => exact .execPortDown (.refl s)
  | stalemate => exact .execStalemate (.refl s)
  | ceWait => exact .execCeWait (.refl s)
  | occupancyUpdate => exact .execOccupancyUpdate (.refl s)
  | histogramSample => exact .execHistogramSample (.refl s)
  | congMapSend => exact .execCongMapSend (.refl s)
  | receiptFlush => exact .execReceiptFlush (.refl s)
  | retransmitTimeout => exact .execRetransmitTimeout (.refl s)
  | backoffExpiry => exact .execBackoffExpiry (.refl s)
  | abandon => exact .execAbandon (.refl s)
  | lowMarkTimer => exact .execLowMarkTimer (.refl s)
  | rateRaise => exact .execRateRaise (.refl s)
  | hotJoin => exact .execHotJoin (.refl s)
  | i3cPoll => exact .execI3cPoll (.refl s)
  | wdogWrite => exact .execWdogWrite (.refl s)
  | authentication => exact .execAuthentication (.refl s)
  | authTimeout => exact .execAuthTimeout (.refl s)
  | rampingEnd => exact .execRampingEnd (.refl s)
  | commissioning => exact .execCommissioning (.refl s)
  | fadeSample => exact .execFadeSample (.refl s)
  | failureSample => exact .execFailureSample (.refl s)
  | ledgerCommit => exact .execLedgerCommit (.refl s)
  | drainComplete => exact .execDrainComplete (.refl s)
  | batchStart => exact .execBatchStart (.refl s)
  | batchComplete => exact .execBatchComplete (.refl s)
  | slotTurn => exact .execSlotTurn (.refl s)
  | reprogramDone => exact .execReprogramDone (.refl s)
  | slotLoadDone => exact .execSlotLoadDone (.refl s)
  | driftUpdate => exact .execDriftUpdate (.refl s)
  | calibrationDone => exact .execCalibrationDone (.refl s)
  | switchover => exact .execSwitchover (.refl s)
  | switchoverLight => exact .execSwitchoverLight (.refl s)
  | collComplete => exact .execCollComplete (.refl s)
  | collTimeout => exact .execCollTimeout (.refl s)
  | escWaitExpiry => exact .execEscWaitExpiry (.refl s)
  | escrowBackoff => exact .execEscrowBackoff (.refl s)
  | escTimeout => exact .execEscTimeout (.refl s)
  | frameReceived => exact .execFrameReceived (.refl s)
  | ptpMessage => exact .execPtpMessage (.refl s)
  | controlFrame => exact .execControlFrame (.refl s)
  | roceRequest => exact .execRoceRequest (.refl s)
  | roceAck => exact .execRoceAck (.refl s)
  | cnp => exact .execCnp (.refl s)
  | pfcFrame => exact .execPfcFrame (.refl s)
  | pfcWatchdog => exact .execPfcWatchdog (.refl s)
  | doorbellPoll => exact .execDoorbellPoll (.refl s)
  | localAckTimeout => exact .execLocalAckTimeout (.refl s)
  | rnrTimer => exact .execRnrTimer (.refl s)
  | rateTimer => exact .execRateTimer (.refl s)
  | addressChange => exact .execAddressChange (.refl s)
  | sensorSample => exact .execSensorSample (.refl s)
  | thermalLimitStep => exact .execThermalLimitStep (.refl s)
  | hubThrottleStep => exact .execHubThrottleStep (.refl s)
  | opticalRetrainStep => exact .execOpticalRetrainStep (.refl s)
  | powerSample => exact .execPowerSample (.refl s)
  | overcurrent => exact .execOvercurrent (.refl s)
  | overcurrentRelease => exact .execOvercurrentRelease (.refl s)
  | voltageStepDone => exact .execVoltageStepDone (.refl s)
  | timeExchange => exact .execTimeExchange (.refl s)
  | pingReply => exact .execPingReply (.refl s)
  | missedExchange => exact .execMissedExchange (.refl s)
  | ptpSync => exact .execPtpSync (.refl s)
  | triggerFire => exact .execTriggerFire (.refl s)
  | freezeStart => exact .execFreezeStart (.refl s)
  | scanOutComplete => exact .execScanOutComplete (.refl s)
  | releaseTest => exact .execReleaseTest (.refl s)
  | zcpFragment => exact .execZcpFragment (.refl s)
  | reassemblyTimeout => exact .execReassemblyTimeout (.refl s)
  | interimReply => exact .execInterimReply (.refl s)
  | lockExpiry => exact .execLockExpiry (.refl s)
  | deviceInfo => exact .execDeviceInfo (.refl s)
  | capRead => exact .execCapRead (.refl s)
  | ping => exact .execPing (.refl s)
  | eventRegister => exact .execEventRegister (.refl s)
  | eventDeregister => exact .execEventDeregister (.refl s)
  | eventRead => exact .execEventRead (.refl s)
  | hostConfig => exact .execHostConfig (.refl s)
  | hostStatus => exact .execHostStatus (.refl s)
  | mgmtLock => exact .execMgmtLock (.refl s)
  | mgmtUnlock => exact .execMgmtUnlock (.refl s)
  | sourceFilter => exact .execSourceFilter (.refl s)
  | sourceFilterRead => exact .execSourceFilterRead (.refl s)
  | jobLoad => exact .execJobLoad (.refl s)
  | jobStart => exact .execJobStart (.refl s)
  | jobStop => exact .execJobStop (.refl s)
  | jobUnload => exact .execJobUnload (.refl s)
  | jobResume => exact .execJobResume (.refl s)
  | jobPreempt => exact .execJobPreempt (.refl s)
  | jobStatus => exact .execJobStatus (.refl s)
  | faultRead => exact .execFaultRead (.refl s)
  | periodReportRead => exact .execPeriodReportRead (.refl s)
  | breakArm => exact .execBreakArm (.refl s)
  | mapRange => exact .execMapRange (.refl s)
  | unmapRange => exact .execUnmapRange (.refl s)
  | protectRange => exact .execProtectRange (.refl s)
  | mapRead => exact .execMapRead (.refl s)
  | memFlush => exact .execMemFlush (.refl s)
  | memStatus => exact .execMemStatus (.refl s)
  | mrRegister r job base len rights =>
    exact .execMrRegister (r := r) (job := job) (base := base) (len := len) (rights := rights) (.refl s)
  | mrDeregister => exact .execMrDeregister (.refl s)
  | qpCreate => exact .execQpCreate (.refl s)
  | qpModify => exact .execQpModify (.refl s)
  | qpDestroy => exact .execQpDestroy (.refl s)
  | qpDoorbell => exact .execQpDoorbell (.refl s)
  | qpQuery => exact .execQpQuery (.refl s)
  | planLoad => exact .execPlanLoad (.refl s)
  | planRead => exact .execPlanRead (.refl s)
  | planAccept => exact .execPlanAccept (.refl s)
  | fabricConfig => exact .execFabricConfig (.refl s)
  | portStatus => exact .execPortStatus (.refl s)
  | portRetrain => exact .execPortRetrain (.refl s)
  | routeWrite => exact .execRouteWrite (.refl s)
  | routeRead => exact .execRouteRead (.refl s)
  | windowOpen => exact .execWindowOpen (.refl s)
  | windowClose => exact .execWindowClose (.refl s)
  | windowRead => exact .execWindowRead (.refl s)
  | fabricCongRead => exact .execFabricCongRead (.refl s)
  | topoLoad => exact .execTopoLoad (.refl s)
  | groupDefine => exact .execGroupDefine (.refl s)
  | groupDelete => exact .execGroupDelete (.refl s)
  | groupRead => exact .execGroupRead (.refl s)
  | collStatus => exact .execCollStatus (.refl s)
  | cartStatus => exact .execCartStatus (.refl s)
  | cartLedgerRead => exact .execCartLedgerRead (.refl s)
  | cartDrain => exact .execCartDrain (.refl s)
  | cartResume => exact .execCartResume (.refl s)
  | cartReauth => exact .execCartReauth (.refl s)
  | ppeSlotLoad => exact .execPpeSlotLoad (.refl s)
  | ppeSlotClear => exact .execPpeSlotClear (.refl s)
  | ppeStatus => exact .execPpeStatus (.refl s)
  | ppeCalibrate => exact .execPpeCalibrate (.refl s)
  | thermalStatus => exact .execThermalStatus (.refl s)
  | powerStatus => exact .execPowerStatus (.refl s)
  | powerCapSet => exact .execPowerCapSet (.refl s)
  | timeRead => exact .execTimeRead (.refl s)
  | timeConfig => exact .execTimeConfig (.refl s)
  | freeze => exact .execFreeze (.refl s)
  | thaw => exact .execThaw (.refl s)
  | freezeTrigger => exact .execFreezeTrigger (.refl s)
  | dumpConfig => exact .execDumpConfig (.refl s)
  | dumpRead => exact .execDumpRead (.refl s)
  | counterCatalogue => exact .execCounterCatalogue (.refl s)
  | counterRead => exact .execCounterRead (.refl s)
  | counterSnapshot => exact .execCounterSnapshot (.refl s)
  | snapshotRead => exact .execSnapshotRead (.refl s)
  | flagRead => exact .execFlagRead (.refl s)
  | flagClear => exact .execFlagClear (.refl s)
  | audit => exact .execAudit (.refl s)
  | attest => exact .execAttest (.refl s)
  | certRead => exact .execCertRead (.refl s)
  | measureRead => exact .execMeasureRead (.refl s)
  | fwStatus => exact .execFwStatus (.refl s)
  | fwWrite => exact .execFwWrite (.refl s)
  | fwVerify => exact .execFwVerify (.refl s)
  | fwActivate => exact .execFwActivate (.refl s)
  | moduleRestart => exact .execModuleRestart (.refl s)
  | zcpUnknownOpcode => exact .execZcpUnknownOpcode (.refl s)
  | inputBackInRange => exact .execInputBackInRange (.refl s)
  | slotIdChange => exact .execSlotIdChange (.refl s)
  | trainingSequence => exact .execTrainingSequence (.refl s)
  | equaliseComplete => exact .execEqualiseComplete (.refl s)
  | trainingRetry => exact .execTrainingRetry (.refl s)
  | hostLinkChange => exact .execHostLinkChange (.refl s)

/-- READY keeps memory and the queue; the fuses it blows stay within the 64 there are (R470). -/
theorem State.becomeReady_inv (s : State) :
    (Memory.wf s.mem = true → Memory.wf s.becomeReady.mem = true) ∧ s.becomeReady.pending = s.pending ∧
    s.flash.rollback ≤ s.becomeReady.flash.rollback ∧ (s.flash.rollback ≤ 64 → s.becomeReady.flash.rollback ≤ 64) := by
  obtain ⟨hmem, hpending, hfuses⟩ := Keeps.becomeReady s
  have hcleared : s.cleared.flash.rollback = s.flash.rollback := Flash.setAttempts_rollback ..
  rw [State.advanceRollback_mem] at hmem
  rw [hpending, hfuses, ← hcleared]
  exact ⟨hmem, State.advanceRollback_pending _, State.advanceRollback_rollback _⟩

/-- What every command keeps: the queue, memory's canonical form, and blown fuses blown, at most 64 of them (R470). -/
theorem exec_inv {c : Instr} {s t : State} (e : exec c s = .next t) :
    (Memory.wf s.mem = true → Memory.wf t.mem = true) ∧ t.pending = s.pending ∧
    s.flash.rollback ≤ t.flash.rollback ∧ (s.flash.rollback ≤ 64 → t.flash.rollback ≤ 64) := by
  have hkept {u : State} (h : Keeps s u) :
      (Memory.wf s.mem = true → Memory.wf u.mem = true) ∧ u.pending = s.pending ∧
      s.flash.rollback ≤ u.flash.rollback ∧ (s.flash.rollback ≤ 64 → u.flash.rollback ≤ 64) := by
    obtain ⟨hmem, hpending, hfuses⟩ := h
    exact ⟨hmem, hpending, hfuses.ge, hfuses.le.trans⟩
  by_cases hc : c = .ready
  · subst hc
    obtain rfl := Host.Outcome.next.inj e
    split
    · exact State.becomeReady_inv s
    · exact hkept (.refl s)
  · exact hkept (exec_keeps s hc t e)

/-- What a step does: a nanosecond on an empty queue, else the command in front of its rest. -/
theorem step_eq_next_iff {s t : State} :
    step s = .next t ↔
      (s.pending = [] ∧ t = s.tick) ∨ ∃ c cs, s.pending = c :: cs ∧ exec c { s with pending := cs } = .next t := by
  unfold step
  split <;> simp_all [eq_comm]

/-- Settles O5: a tick and every command but READY keep memory, the queue's rest and the fuses; READY blows them up to 64. -/
theorem stepKeepsInvariant : Obligations.StepKeepsInvariant := by
  intro s t ⟨hmem, hqueue, hfuses⟩ h
  obtain ⟨-, rfl⟩ | ⟨c, cs, hp, h⟩ := step_eq_next_iff.mp h
  · obtain ⟨hm, hq, hf⟩ := Keeps.tick (.refl s)
    exact ⟨hm hmem, hq ▸ hqueue, hf ▸ hfuses⟩
  · obtain ⟨hm, hq, -, hf⟩ := exec_inv h
    rw [hp, List.all_cons, Bool.and_eq_true] at hqueue
    exact ⟨hm hmem, hq ▸ hqueue.2, hf hfuses⟩

/-- Settles O8: the counter stands still in a tick and in every command but READY, which only raises it. -/
theorem fusesNeverUnblown : Obligations.FusesNeverUnblown := by
  intro s t _ h
  obtain ⟨hp, rfl⟩ | ⟨c, cs, hp, h⟩ := step_eq_next_iff.mp h
  · obtain ⟨-, -, hf⟩ := Keeps.tick (.refl s)
    exact ⟨hf.ge, fun c cs hp' => absurd (hp.symm.trans hp') (by simp)⟩
  · obtain ⟨-, -, hle, -⟩ := exec_inv h
    refine ⟨hle, fun c' cs' hp' hc => ?_⟩
    obtain ⟨rfl, -⟩ := List.cons.inj (hp'.symm.trans hp)
    exact (exec_keeps _ hc t h).2.2

end Sys2Proof.Machine
end

section
/-! SUPPORT. Proof of spec/16_control_protocol.md for the commands of the control processor itself: what each command's own body
answers where its conditions hold. -/

-- Proofs are checked as they come: checked beside the rest, they hold their memory until the whole text is.
set_option Elab.async false

namespace Sys2Proof.Machine

/-- The first place that passes a test. -/
theorem find?_finRange_of_first {n : Nat} {p : Fin n → Bool} {i : Fin n} (hi : p i = true) (hlt : ∀ k, k < i → p k = false) :
    (List.finRange n).find? p = some i := by
  refine List.find?_eq_some_iff_getElem.2 ⟨hi, i.val, by simp, by simp, fun k hk => ?_⟩
  simpa using hlt ⟨k, hk.trans i.isLt⟩ hk

/-- What a command's conditions say of its parameters alone may be used to check them. -/
theorem Answers.of_imp {c : Instr} {s : State} {ok : State → Prop} {f : State → State} {vs : State → List (List Byte)} {P : Prop}
    (hp : ∀ s, ok s → P) (h : P → Answers c s ok f vs) : Answers c s ok f vs :=
  fun u s₀ w hu hr hok => h (hp s₀ hok) u s₀ w hu hr hok

/-- A lease of 1 to 600 s (R448). -/
theorem leaseRange {n : Nat} (h1 : 1 ≤ n) (hmax : n ≤ 600) : (decide (n < 1) || decide (n > 600)) = false := by
  rw [Bool.or_eq_false_iff, decide_eq_false_iff_not, decide_eq_false_iff_not]; omega

/-- FLAG_CLEAR names a flag and a target that there are (R454). -/
theorem flagNamed {code : BitVec 16} {tgt : Target} {f : FlagId} (hf : FlagId.ofCode code = some f)
    (hkind : f.kinds.contains tgt.kind.toNat = true) (hindex : tgt.index.toNat < kindSize tgt.kind.toNat) :
    ((FlagId.ofCode code).map fun f =>
      f.kinds.contains tgt.kind.toNat && decide (tgt.index.toNat < kindSize tgt.kind.toNat)).getD false = true := by
  rw [hf, Option.map_some, Option.getD_some, hkind, decide_eq_true hindex]; rfl

/-- Settles O15: each command's body, where its conditions hold, has the effect and the items that are claimed. -/
theorem controlProcessorCommands : Obligations.ControlProcessorCommands := by
  intro s r
  refine ⟨?info, ?cap, ?ping, ?register, ?deregister, ?log, ?flags, ?clear, ?lock, ?renew, ?unlock, ?force, ?filter, ?filterRead,
    ?unknown⟩
  case info =>
    exact answers_of_body rfl rfl ⟨rfl, rfl, rfl, rfl, rfl, rfl, rfl⟩ fun s _ => rfl
  case cap =>
    intro offset len
    refine answers_of_body rfl rfl ⟨rfl, rfl, rfl, rfl, rfl, rfl, rfl⟩ fun s ⟨h8, hmin, hmax, hend⟩ => ?_
    have hlen : (decide (len < 8) || decide (len > 1024) || decide (offset + len > (capList 0 s.capBodies).length)) = false := by
      simp only [Bool.or_eq_false_iff, decide_eq_false_iff_not]; omega
    simp only [h8, hlen]; rfl
  case ping =>
    intro data stamp
    refine answers_of_body rfl rfl ⟨rfl, rfl, rfl, rfl, rfl, rfl, rfl⟩ fun s hlen => ?_
    simp only [gt_iff_lt, Nat.not_lt.mpr hlen, if_false]
    cases s.time.state <;> rfl
  case register =>
    intro l mask i
    refine answers_of_body rfl rfl ⟨rfl, rfl, rfl, rfl, rfl, rfl, rfl⟩ fun s ⟨hi, hlt⟩ => ?_
    have hfirst : (List.finRange 8).find? (fun i => s.zcp.listeners[i].isNone) = some i :=
      find?_finRange_of_first (Option.isNone_iff_eq_none.2 hi) fun k hk => by
        rw [Option.isNone_eq_false_iff, Option.isSome_iff_ne_none]; exact hlt k hk
    simp only [hfirst]
  case deregister =>
    intro i
    have hbad : (if i.val ≥ 8 then some Status.reservedValue else none) = none := if_neg (Nat.not_le.mpr i.isLt)
    refine answers_of_body rfl rfl ⟨rfl, rfl, rfl, rfl, rfl, rfl, hbad⟩ fun s _ => ?_
    simp only [setIfInBounds_fin]
  case log =>
    intro first count
    refine answers_of_body rfl rfl ⟨rfl, rfl, rfl, rfl, rfl, rfl, rfl⟩ fun s ⟨h1, h64⟩ => ?_
    simp only [countRange h1 h64]; rfl
  case flags =>
    exact answers_of_body rfl rfl ⟨rfl, rfl, rfl, rfl, rfl, rfl, rfl⟩ fun s _ => rfl
  case clear =>
    intro tgt code f
    refine Answers.of_imp (fun s ⟨hf, hkind, hindex⟩ => flagNamed hf hkind hindex) fun hbad => ?_
    refine answers_of_body rfl rfl ⟨rfl, rfl, rfl, rfl, rfl, rfl, if_pos hbad⟩ fun s ⟨hf, _⟩ => ?_
    simp only [hf]
  case lock =>
    intro lease
    refine Answers.of_imp (fun s ⟨h1, hmax, _⟩ => leaseRange h1 hmax) fun hbad => ?_
    refine answers_of_body rfl rfl ⟨rfl, rfl, rfl, rfl, rfl, rfl, if_neg (Bool.not_eq_true _ ▸ hbad)⟩ fun s ⟨_, _, hlock⟩ => ?_
    simp only [hlock]; rfl
  case renew =>
    intro lease till
    refine Answers.of_imp (fun s ⟨h1, hmax, _⟩ => leaseRange h1 hmax) fun hbad => ?_
    refine answers_of_body rfl rfl ⟨rfl, rfl, rfl, rfl, rfl, rfl, if_neg (Bool.not_eq_true _ ▸ hbad)⟩ fun s ⟨_, _, hlock⟩ => ?_
    simp only [hlock]; rfl
  case unlock =>
    intro force till
    refine answers_of_body rfl rfl ⟨rfl, rfl, rfl, rfl, rfl, rfl, rfl⟩ fun s hlock => ?_
    simp only [hlock, if_true]
  case force =>
    intro h till
    refine answers_of_body rfl rfl ⟨rfl, rfl, rfl, rfl, rfl, rfl, rfl⟩ fun s ⟨hlock, hne⟩ => ?_
    simp only [hlock, hne, if_false]
  case filter =>
    intro es
    refine answers_of_body rfl rfl ⟨rfl, rfl, rfl, rfl, rfl, rfl, rfl⟩ fun s ⟨hself, hlen⟩ => ?_
    simp only [hself, gt_iff_lt, Nat.not_lt.mpr hlen]; rfl
  case filterRead =>
    exact answers_of_body rfl rfl ⟨rfl, rfl, rfl, rfl, rfl, rfl, rfl⟩ fun s _ => rfl
  case unknown =>
    rintro op u s₀ w ⟨⟩ hr
    rw [exec, execZcpUnknownOpcode, hr.heard.refused rfl rfl _ (t := s₀) (st := .opcodeUnknown) (p := none) (i := []) rfl]
    rfl

end Sys2Proof.Machine
end

section
/-! SUPPORT. Proof of spec/15_host_ethernet.md for the commands of host interfaces, memory regions and queue pairs: what each
command's own body answers where its conditions hold. -/

-- Proofs are checked as they come: checked beside the rest, they hold their memory until the whole text is.
set_option Elab.async false

namespace Sys2Proof.Machine

/-- Settles O20: each command's body, where its conditions hold, has the effect and the items that are claimed. -/
theorem hostCommands : Obligations.HostCommands := by
  intro s r
  refine ⟨?config, ?status, ?register, ?deregister, ?create, ?modify, ?destroy, ?doorbell, ?query⟩
  case config =>
    intro i c hcfg
    have hbad : (if hostCfgBad c then some Status.reservedValue else none) = none := if_neg (by simp [hcfg])
    exact answers_of_body rfl rfl ⟨rfl, rfl, rfl, rfl, rfl, rfl, hbad⟩ fun s _ => rfl
  case status =>
    exact fun i => answers_of_body rfl rfl ⟨rfl, rfl, rfl, rfl, rfl, rfl, rfl⟩ fun s _ => rfl
  case register =>
    intro job base len rights j k
    refine answers_of_body rfl rfl ⟨rfl, rfl, rfl, rfl, rfl, rfl, rfl⟩ fun s ⟨hj, hroom, hlen, hspace, hk⟩ => ?_
    have hrange : (decide (len < 1) || decide (base + len > 2 ^ 48)) = false := by
      rw [Bool.or_eq_false_iff, decide_eq_false_iff_not, decide_eq_false_iff_not]; omega
    simp only [hj, ge_iff_le, Nat.not_le.mpr hroom, hrange, hk]; rfl
  case deregister =>
    intro job rkey j m
    refine answers_of_body rfl rfl ⟨rfl, rfl, rfl, rfl, rfl, rfl, rfl⟩ fun s ⟨hj, hm⟩ => ?_
    simp only [hj, hm]; rfl
  case create =>
    intro job p j n
    refine answers_of_body rfl rfl ⟨rfl, rfl, rfl, rfl, rfl, rfl, rfl⟩ fun s ⟨hj, hcheck, hroom, hn⟩ => ?_
    simp only [hj, hcheck, ge_iff_le, Nat.not_le.mpr hroom, if_false, hn]
  case modify =>
    intro qpn st attr q j
    refine answers_of_body rfl rfl ⟨rfl, rfl, rfl, rfl, rfl, rfl, rfl⟩ fun s ⟨hq, hj, hmoves, hattr⟩ => ?_
    simp only [hq, hj, hmoves, hattr]; rfl
  case destroy =>
    intro qpn q
    refine answers_of_body rfl rfl ⟨rfl, rfl, rfl, rfl, rfl, rfl, rfl⟩ fun s hq => ?_
    simp only [hq]; rfl
  case doorbell =>
    intro qpn q
    refine answers_of_body rfl rfl ⟨rfl, rfl, rfl, rfl, rfl, rfl, rfl⟩ fun s hq => ?_
    simp only [hq]; rfl
  case query =>
    intro qpn q
    refine answers_of_body rfl rfl ⟨rfl, rfl, rfl, rfl, rfl, rfl, rfl⟩ fun s hq => ?_
    simp only [hq, id]

end Sys2Proof.Machine
end

section
/-! SUPPORT. Proof of spec/14_collectives.md for the commands of topologies, groups and contexts: what each command's own body
answers where its conditions hold. -/

-- Proofs are checked as they come: checked beside the rest, they hold their memory until the whole text is.
set_option Elab.async false

namespace Sys2Proof.Machine

/-- A part of a topology of 1 to 16,384 positions (R379). -/
theorem topoRange {n : Nat} (h1 : 1 ≤ n) (hmax : n ≤ 16384) : (decide (n < 1) || decide (n > 16384)) = false := by
  rw [Bool.or_eq_false_iff, decide_eq_false_iff_not, decide_eq_false_iff_not]; omega

/-- Settles O24: each command's body, where its conditions hold, has the effect and the items that are claimed. -/
theorem groupCommands : Obligations.GroupCommands := by
  intro s r
  refine ⟨?topo, ?define, ?delete, ?read, ?status⟩
  case topo =>
    intro job naxes sizes first fids j t hsizes h1 hmax
    have hbad : (if topoBad job naxes sizes then some Status.reservedValue else none) = none := if_neg (by simp [hsizes])
    refine answers_of_body rfl rfl ⟨rfl, rfl, rfl, rfl, rfl, rfl, hbad⟩ fun s ⟨hj, ht, hlen, honce, hroom, hgroups⟩ => ?_
    have hmember : (t.complete && decide ((t.fids.filter fun f => s.fid == some f).length ≠ 1)) = false := by
      cases hc : t.complete with
      | false => rfl
      | true => simpa using honce hc
    have hbusy : (decide (first = 0) && s.coll.groups.any fun g => g.job == job) = false := by
      by_cases hf : first = 0
      · simpa [hf] using hgroups hf
      · simp [hf]
    simp only [hj, topoRange h1 hmax, ht, gt_iff_lt, Nat.not_lt.mpr hlen, if_false, hmember, Nat.not_lt.mpr hroom, hbusy]
    rfl
  case define =>
    intro g rank fids hres
    have hbad : (if groupReserved g then some Status.reservedValue else none) = none := if_neg (by simp [hres])
    refine answers_of_body rfl rfl ⟨rfl, rfl, rfl, rfl, rfl, rfl, hbad⟩ fun s hcheck => ?_
    simp only [hcheck]
  case delete =>
    intro g x
    refine answers_of_body rfl rfl ⟨rfl, rfl, rfl, rfl, rfl, rfl, rfl⟩ fun s ⟨hg, hidle⟩ => ?_
    have hbusy : (s.coll.ctxs.any fun x => x.group == g) = false := by simpa using hidle
    simp only [hg, hbusy]; rfl
  case read =>
    intro g x
    refine answers_of_body rfl rfl ⟨rfl, rfl, rfl, rfl, rfl, rfl, rfl⟩ fun s hg => ?_
    simp only [hg, id]
  case status =>
    intro g count hcount
    refine answers_of_body rfl rfl ⟨rfl, rfl, rfl, rfl, rfl, rfl, rfl⟩ fun s hg => ?_
    have hknown : (g.map fun g => (s.group g).isNone).getD false = false := by
      cases g with
      | none => rfl
      | some k => simpa [Option.isSome_iff_ne_none] using hg k rfl
    simp only [gt_iff_lt, Nat.not_lt.mpr hcount, hknown]; rfl

end Sys2Proof.Machine
end

section
/-! SUPPORT. Proof of spec/18_thermal_power_time.md for the commands of temperature, power and time: what each
command's own body answers where its conditions hold. -/

-- Proofs are checked as they come: checked beside the rest, they hold their memory until the whole text is.
set_option Elab.async false

namespace Sys2Proof.Machine

/-- A power cap of 1,500 W to 3,600 W (R492). -/
theorem capRange {n : Nat} (hmin : 1500 ≤ n) (hmax : n ≤ 3600) : (decide (n < 1500) || decide (n > 3600)) = false := by
  rw [Bool.or_eq_false_iff, decide_eq_false_iff_not, decide_eq_false_iff_not]; omega

/-- No setpoint lies above the highest (R488). -/
theorem setpoints_ok {v : Vector (BitVec 8) 6} (h : ∀ k : Fin 6, v[k].toNat ≤ 25) :
    (v.toList.any fun x => decide (x.toNat > 25)) = false := by
  rw [List.any_eq_false]
  intro x hx
  obtain ⟨i, hi, rfl⟩ := Vector.mem_iff_getElem.mp (Vector.mem_toList_iff.mp hx)
  simpa using h ⟨i, hi⟩

/-- Settles O26: each command's body, where its conditions hold, has the effect and the items that are claimed. -/
theorem thermalPowerTimeCommands : Obligations.ThermalPowerTimeCommands := by
  intro s r
  refine ⟨?thermal, ?power, ?cap, ?setpoints, ?time, ?free, ?initial, ?source, ?sameSource⟩
  case thermal =>
    intro tgt ks hks
    have hbad : (if (statusRegions tgt).isNone then some Status.reservedValue else none) = none := if_neg (by simp [hks])
    refine answers_of_body rfl rfl ⟨rfl, rfl, rfl, rfl, rfl, rfl, hbad⟩ fun s _ => ?_
    simp only [hks, Option.getD_some, id]
  case power =>
    exact answers_of_body rfl rfl ⟨rfl, rfl, rfl, rfl, rfl, rfl, rfl⟩ fun s _ => rfl
  case cap =>
    intro cap
    refine answers_of_body rfl rfl ⟨rfl, rfl, rfl, rfl, rfl, rfl, rfl⟩ fun s ⟨hmin, hmax⟩ => ?_
    simp only [capRange hmin hmax]; rfl
  case setpoints =>
    intro cap v hv
    have hbad : (if ((some v).map fun v => v.toList.any fun x => decide (x.toNat > 25)).getD false then some Status.reservedValue
        else none) = none := by rw [Option.map_some, setpoints_ok hv]; rfl
    refine answers_of_body rfl rfl ⟨rfl, rfl, rfl, rfl, rfl, rfl, hbad⟩ fun s ⟨hmin, hmax⟩ => ?_
    simp only [capRange hmin hmax]; rfl
  case time =>
    exact answers_of_body rfl rfl ⟨rfl, rfl, rfl, rfl, rfl, rfl, rfl⟩ fun s _ => rfl
  case free =>
    exact answers_of_body rfl rfl ⟨rfl, rfl, rfl, rfl, rfl, rfl, rfl⟩ fun s _ => rfl
  case initial =>
    intro v
    refine answers_of_body rfl rfl ⟨rfl, rfl, rfl, rfl, rfl, rfl, rfl⟩ fun s hp => ?_
    simp only [hp]; rfl
  case source =>
    intro src x hfree hbad
    refine answers_of_body rfl rfl ⟨rfl, rfl, rfl, rfl, rfl, rfl, hbad⟩ fun s hne => ?_
    cases src with
    | freeRunning => exact absurd rfl hfree
    | ptp _ => simp only [hne, if_false]
    | mfp _ => simp only [hne, if_false]
  case sameSource =>
    intro src x hfree hbad
    refine answers_of_body rfl rfl ⟨rfl, rfl, rfl, rfl, rfl, rfl, hbad⟩ fun s heq => ?_
    cases src with
    | freeRunning => exact absurd rfl hfree
    | ptp _ => simp only [← heq, if_true, id]
    | mfp _ => simp only [← heq, if_true, id]

end Sys2Proof.Machine
end

section
/-! SUPPORT. Proof of spec/19_debug_and_books.md for the commands of freezes, dumps, triggers, counters and snapshots: what each
command's own body answers where its conditions hold. -/

-- Proofs are checked as they come: checked beside the rest, they hold their memory until the whole text is.
set_option Elab.async false

namespace Sys2Proof.Machine

/-! ## What a reply leaves of the boot and of the freeze (R439, R441, R475) -/

theorem SameBut.boot {s t : State} (h : SameBut s t) : t.boot = s.boot := by
  obtain ⟨z, o, c, i, rfl⟩ := (sameBut_iff s t).mp h
  rfl

theorem SameBut.dbg {s t : State} (h : SameBut s t) : t.dbg = s.dbg := by
  obtain ⟨z, o, c, i, rfl⟩ := (sameBut_iff s t).mp h
  rfl

/-- A final reply is the control processor's, but for the configuration chain that it may extend. -/
theorem State.reply_boot_dbg (s : State) (w : Waiting) (change : Bool) (st : Status) (body : List Byte) :
    (s.reply w change st body).boot = s.boot ∧ (s.reply w change st body).dbg = s.dbg := by
  unfold State.reply
  generalize (if body.length > 65536 then (Status.lengthRange, []) else (st, body)) = final
  dsimp only
  rw [(SameBut.startQueued _).boot, (SameBut.cacheReply _ _ _).boot, (SameBut.sendReply _ _ _ _ _ _).boot,
    (SameBut.startQueued _).dbg, (SameBut.cacheReply _ _ _).dbg, (SameBut.sendReply _ _ _ _ _ _).dbg]
  split
  · exact ⟨State.bump_boot .., State.bump_dbg ..⟩
  · exact ⟨rfl, rfl⟩

/-! ## The commands -/

/-- A scope of 1 to n bytes or values. -/
theorem readRange {n most len last : Nat} (h1 : 1 ≤ n) (hmost : n ≤ most) (hlast : len ≤ last) :
    (decide (n < 1) || decide (n > most) || decide (len > last)) = false := by
  simp only [Bool.or_eq_false_iff, decide_eq_false_iff_not]; omega

/-- THAW of a module that is not frozen (R519). -/
theorem answers_thaw {r : ZcpReq} {at_ : Option (BitVec 64)} {s : State} :
    Answers (.thaw r at_) s (fun s => s.dbg.frozen = false) (fun s => s.bump .dbgThawNotFrozen) (fun _ => []) := by
  rintro _ s₀ w ⟨⟩ hr hok
  have hdbg : ((s₀.bump .dbgThawNotFrozen).reply w true .success (items [])).dbg.thaws = s.dbg.thaws := by
    rw [(State.reply_boot_dbg ..).2, State.bump_dbg, hr.heard.sameBut.dbg]
  rw [exec, execThaw, hr.ok ⟨rfl, rfl, rfl, rfl, rfl, rfl, rfl⟩ (if_pos (by rw [hok]; rfl))]
  exact congrArg _ (if_pos hdbg)

/-- THAW of a frozen module waits for its time, and is tested at once (R519, R520). -/
theorem answersLater_thaw {r : ZcpReq} {at_ : Option (BitVec 64)} {s : State} :
    AnswersLater (.thaw r at_) s
      (fun s => s.dbg.frozen = true ∧ ∀ t, at_ = some t → s.now.toNat ≤ t.toNat ∧ t.toNat ≤ s.now.toNat + 160000000000)
      (fun s => { s with dbg := { s.dbg with thaws := s.dbg.thaws ++ [(r.src, r.seq, at_)] } }) State.releaseTest := by
  rintro _ s₀ w ⟨⟩ hr ⟨hfrozen, hat⟩
  have hin : (at_.map fun t => decide (t.toNat < s₀.now.toNat) || decide (s₀.now.toNat + 160000000000 < t.toNat)).getD false
      = false := by
    cases at_ with
    | none => rfl
    | some t => simpa [Nat.not_lt] using hat t rfl
  have hne : s₀.dbg.thaws ++ [(r.src, r.seq, at_)] ≠ s.dbg.thaws := by
    rw [hr.heard.sameBut.dbg]; exact fun h => by simpa using congrArg List.length h
  rw [exec, execThaw, hr.later ⟨rfl, rfl, rfl, rfl, rfl, rfl, rfl⟩
    ((if_neg (by rw [hfrozen]; decide)).trans (if_neg (by rw [hin]; decide)))]
  exact congrArg _ (if_neg hne)

/-- Settles O27: each command's body, where its conditions hold, has the effect and the items that are claimed. -/
theorem debugCommands : Obligations.DebugCommands := by
  intro s r
  refine ⟨?freeze, ?thaw, ?thawLater, ?arm, ?disarm, ?dump, ?dumpRead, ?dumpWaits, ?catalogue, ?counters, ?snapshot, ?snapshotRead⟩
  case freeze =>
    exact fun tag => answers_of_body rfl rfl ⟨rfl, rfl, rfl, rfl, rfl, rfl, rfl⟩ fun s _ => rfl
  case thaw => exact fun at_ => answers_thaw
  case thawLater => exact fun at_ => answersLater_thaw
  case arm =>
    intro c k hbad hcmp hk
    refine answers_of_body rfl rfl ⟨rfl, rfl, rfl, rfl, rfl, rfl, hbad⟩ fun s _ => ?_
    simp only [hk, Nat.ne_of_lt hcmp, if_false, setIfInBounds_fin]
  case disarm =>
    intro c k hbad hcmp hk
    refine answers_of_body rfl rfl ⟨rfl, rfl, rfl, rfl, rfl, rfl, hbad⟩ fun s _ => ?_
    simp only [hk, hcmp, if_true, setIfInBounds_fin]
  case dump =>
    intro c hprop hmask
    have hbad : (if (c.propagate.getD 0 > 15 || (c.faultMask.getD 0).toNat ≥ 256 : Bool) then some Status.reservedValue else none)
        = none := if_neg (by simpa using ⟨hprop, hmask⟩)
    refine answers_of_body rfl rfl ⟨rfl, rfl, rfl, rfl, rfl, rfl, hbad⟩ fun s ⟨hrange, hunit, hmax, hneeds, halign⟩ => ?_
    have hsize : (decide (c.size % 2 ^ 20 ≠ 0) || decide (c.size > 2 ^ 33) || decide (c.size < dumpNeeds c.accs c.sram)) = false := by
      simp only [hunit, Bool.or_eq_false_iff, decide_eq_false_iff_not, Nat.not_lt, gt_iff_lt]
      exact ⟨⟨by decide, hmax⟩, hneeds⟩
    simp only [hrange, hsize, halign]; rfl
  case dumpRead =>
    intro offset len base size a b h1 hmax hend
    refine answers_of_body rfl rfl ⟨rfl, rfl, rfl, rfl, rfl, rfl, rfl⟩ fun s ⟨hdump, hopen, hclean⟩ => ?_
    have hwait : (s.dbg.frozen && !s.scanOver) = false := by rcases hopen with h | h <;> simp [h]
    simp only [hdump, readRange h1 hmax hend, hwait, State.dumpAnswer]
    generalize s.checkRead (base + offset) len = x at hclean ⊢
    obtain ⟨t, bad⟩ := x
    obtain rfl : bad = none := hclean
    rfl
  case dumpWaits =>
    intro offset len base size a b h1 hmax hend
    refine answersLater_of_body rfl rfl ⟨rfl, rfl, rfl, rfl, rfl, rfl, rfl⟩ fun s ⟨hdump, hfrozen, hscan⟩ => ?_
    simp only [hdump, readRange h1 hmax hend, hfrozen, hscan]; rfl
  case catalogue =>
    intro first count hids
    refine answers_of_body rfl rfl ⟨rfl, rfl, rfl, rfl, rfl, rfl, rfl⟩ fun s _ => ?_
    simp only [hids, id]
  case counters =>
    intro first count hids
    refine answers_of_body rfl rfl ⟨rfl, rfl, rfl, rfl, rfl, rfl, rfl⟩ fun s _ => ?_
    simp only [hids]
  case snapshot =>
    exact answers_of_body rfl rfl ⟨rfl, rfl, rfl, rfl, rfl, rfl, rfl⟩ fun s _ => rfl
  case snapshotRead =>
    intro first count x hids
    refine answers_of_body rfl rfl ⟨rfl, rfl, rfl, rfl, rfl, rfl, rfl⟩ fun s hx => ?_
    simp only [hids, hx]

end Sys2Proof.Machine
end

section
/-! SUPPORT. Proof of spec/17_boot_and_security.md for attestation, measurements, firmware and restart: what each command's own
body answers where its conditions hold. -/

-- Proofs are checked as they come: checked beside the rest, they hold their memory until the whole text is.
set_option Elab.async false

namespace Sys2Proof.Machine

/-- A counter's ID is known where it lies among the IDs there are (R522). -/
theorem State.counterById_isNone_eq_false {s : State} {k : Nat} (h : k < Config.numCounters) : (s.counterById k).isNone = false := by
  rw [State.counterById, if_neg (Nat.not_le.mpr h)]; rfl

/-- Bytes that FW_WRITE takes: 1 to 32,768, within the bank (R469). -/
theorem fwRange {offset : Nat} {data : List Byte} (hne : data ≠ []) (hmax : data.length ≤ 32768)
    (hend : offset + data.length ≤ 117440512) :
    (data.isEmpty || decide (data.length > 32768) || decide (offset + data.length > 117440512)) = false := by
  rw [List.isEmpty_eq_false_iff.mpr hne, decide_eq_false (Nat.not_lt.mpr hmax), decide_eq_false (Nat.not_lt.mpr hend)]; rfl

/-- A request whose command's own body refuses it, with no counter of its own and nothing more to say. -/
theorem exec_of_err {c : Instr} {z : ZcpRow} {u : Use} {body : State → Ans} {s s₀ t : State} {w : Waiting} {st : Status}
    (hr : z.Runs s s₀ w) (hc : exec c s = .next (s.zcpStep z.req u body)) (hu : z.Fits u) (hchange : z.change = true)
    (hcount : u.count = none) (hb : body s₀ = .err t st) : exec c s = .next (t.reply w true st []) := by
  rw [hc, hr.err hu hb, hcount, hchange]; rfl

/-- What FW_VERIFY answers (R466, R471). -/
theorem exec_fwVerify_of_runs {s s₀ : State} {r : ZcpReq} {u : ZcpRow} {w : Waiting} (hu : zcpRow (.fwVerify r) = some u)
    (hr : u.Runs s s₀ w) :
    exec (.fwVerify r) s = .next (match s₀.flash.verify (!s₀.boot.running) with
      | none => (s₀.markBank .verified).reply w true .success []
      | some .fwRollback => ((s₀.markBank .rollback).bump .fwVerifyFailed).reply w true .fwRollback []
      | some e => ((s₀.markBank .invalid).bump .fwVerifyFailed).reply w true e []) := by
  have hok (h : s₀.flash.verify (!s₀.boot.running) = none) :=
    answers_of_body (ok := fun s => s.flash.verify (!s.boot.running) = none) (f := fun s => s.markBank .verified) (vs := fun _ => [])
      rfl rfl ⟨rfl, rfl, rfl, rfl, rfl, rfl, rfl⟩ (fun s h => by simp only [h]) u s₀ w hu hr h
  obtain rfl := Option.some.inj hu
  generalize hv : s₀.flash.verify (!s₀.boot.running) = v at hok ⊢
  split
  · exact hok rfl
  · exact exec_of_err hr rfl ⟨rfl, rfl, rfl, rfl, rfl, rfl, rfl⟩ rfl rfl (by simp only [hv])
  · exact exec_of_err hr rfl ⟨rfl, rfl, rfl, rfl, rfl, rfl, rfl⟩ rfl rfl (by simp only [hv])

/-- MODULE_RESTART replies, and then the module restarts (R462). -/
theorem exec_moduleRestart_of_runs {s s₀ : State} {r : ZcpReq} {u : ZcpRow} {w : Waiting}
    (hu : zcpRow (.moduleRestart r) = some u) (hr : u.Runs s s₀ w) (hs : s.boot.restart = false) :
    exec (.moduleRestart r) s =
      .next (let t := ({ s₀ with boot := { s₀.boot with restart := true } } : State).reply w true .success []
             t.resetLogic.bootUp t.retest) := by
  obtain rfl := Option.some.inj hu
  rw [exec, execModuleRestart, hr.ok ⟨rfl, rfl, rfl, rfl, rfl, rfl, rfl⟩ rfl]
  refine congrArg _ (if_neg ?_)
  rw [(State.reply_boot_dbg ..).1, hs]
  exact Bool.noConfusion

/-- Settles O28: each command's body, where its conditions hold, has the effect and the items that are claimed. -/
theorem securityCommands : Obligations.SecurityCommands := by
  intro s r
  refine ⟨?attest, ?cert, ?measure, ?status, ?write, ?verify, ?active, ?activate, ?restart⟩
  case attest =>
    intro nonce ids hnonce hlen hids
    refine answers_of_body rfl rfl ⟨rfl, rfl, rfl, rfl, rfl, rfl, rfl⟩ fun s _ => ?_
    have hknown : (ids.any fun k => (s.counterById k).isNone) = false := by
      rw [List.any_eq_false]
      exact fun k hk => Bool.eq_false_iff.mp (State.counterById_isNone_eq_false (hids k hk))
    simp only [hnonce, gt_iff_lt, Nat.not_lt.mpr hlen, hknown]; rfl
  case cert =>
    exact answers_of_body rfl rfl ⟨rfl, rfl, rfl, rfl, rfl, rfl, rfl⟩ fun s _ => rfl
  case measure =>
    exact answers_of_body rfl rfl ⟨rfl, rfl, rfl, rfl, rfl, rfl, rfl⟩ fun s _ => rfl
  case status =>
    exact answers_of_body rfl rfl ⟨rfl, rfl, rfl, rfl, rfl, rfl, rfl⟩ fun s _ => rfl
  case write =>
    intro offset data
    refine answers_of_body rfl rfl ⟨rfl, rfl, rfl, rfl, rfl, rfl, rfl⟩ fun s ⟨hat, hne, hmax, hend⟩ => ?_
    have hplace : (decide (offset ≠ 0) && (decide (offset ≠ (s.flash.bank (!s.boot.running)).ptr) ||
        (s.flash.bank (!s.boot.running)).manufactured)) = false := by
      rcases hat with h | ⟨h, hm⟩
      · rw [h]; rfl
      · rw [hm, ← h]; simp
    simp only [hplace, fwRange hne hmax hend]; rfl
  case verify => exact fun u s₀ w hu hr => exec_fwVerify_of_runs hu hr
  case active =>
    refine answers_of_body rfl rfl ⟨rfl, rfl, rfl, rfl, rfl, rfl, rfl⟩ fun s ⟨hv, hsel⟩ => ?_
    simp only [hv, hsel]; rfl
  case activate =>
    refine answers_of_body rfl rfl ⟨rfl, rfl, rfl, rfl, rfl, rfl, rfl⟩ fun s ⟨hv, hsel⟩ => ?_
    simp only [hv, hsel, Bool.eq_not_self, ne_eq, not_true_eq_false, if_false]
  case restart => exact fun u s₀ w hu hr hs => exec_moduleRestart_of_runs hu hr hs

end Sys2Proof.Machine
end

section
/-! SUPPORT. Proof of spec/19_debug_and_books.md for freezes, triggers, scan-out and the release test as events. What memory's
traffic, the links and the control processor leave of the board, the boot, the time base and the debug unit comes first, then
each event where its conditions hold. -/

-- Proofs are checked as they come: checked beside the rest, they hold their memory until the whole text is.
set_option Elab.async false

namespace Sys2Proof.Machine

/-! ## What leaves the board, the boot, the time base and the debug unit -/

/-- The board, the boot, the time base and the debug unit. -/
def State.core (s : State) : Board × Boot × TimeBase × Debug := (s.board, s.boot, s.time, s.dbg)

theorem State.core_eq_iff {s t : State} :
    t.core = s.core ↔ t.board = s.board ∧ t.boot = s.boot ∧ t.time = s.time ∧ t.dbg = s.dbg := by
  simp only [State.core, Prod.mk.injEq]

theorem SameBut.core {s t : State} (h : SameBut s t) : t.core = s.core := by
  obtain ⟨z, o, c, i, rfl⟩ := (sameBut_iff s t).mp h
  rfl

@[simp] theorem State.bump_core (s : State) (c : CtrId) (i j n : Nat) : (s.bump c i j n).core = s.core :=
  (SameBut.bump s c i j n).core

@[simp] theorem State.event_core (s : State) (c : EventCode) (t : Target) (d : List Byte) (a : Option (BitVec 64)) :
    (s.event c t d a).core = s.core :=
  (SameBut.event s c t d a).core

@[simp] theorem State.setFlag_core (s : State) (f : FlagId) (k i : Nat) : (s.setFlag f k i).core = s.core := by
  unfold State.setFlag
  dsimp only
  split
  · rw [State.event_core]; rfl
  · rfl

@[simp] theorem State.sendFreezeFlit_core (s : State) (p : PortIx) (f : FreezeFlit) (go : Bool) :
    (s.sendFreezeFlit p f go).core = s.core := by
  unfold State.sendFreezeFlit
  split
  · rfl
  · split
    · rfl
    · exact s.bump_core ..

@[simp] theorem State.spreadFreeze_core (s : State) (c : FreezeCause) (tag no : BitVec 32) (o : Option (PortIx × FreezeFlit)) :
    (s.spreadFreeze c tag no o).core = s.core := by
  unfold State.spreadFreeze
  split
  · exact State.foldl_keeps State.core _ (fun _ _ => State.sendFreezeFlit_core ..) _ _
  · split
    · rfl
    · refine State.foldl_keeps State.core _ (fun s p => ?_) _ _
      split
      · rfl
      · exact State.sendFreezeFlit_core ..

/-! ### The stacks (R203 to R210) -/

@[simp] theorem State.activate_core (s : State) (m : StackIx) (line : Nat) : (s.activate m line).core = s.core := by
  unfold State.activate State.free
  dsimp only
  split
  · rfl
  · split
    · rw [State.bump_core]; rfl
    · rfl

@[simp] theorem State.uncorrectable_core (s : State) (m : StackIx) (line : Nat) (c : Bool) :
    (s.uncorrectable m line c).core = s.core := by
  unfold State.uncorrectable
  extract_lets s₁ k pc u br fails s₂ s₃
  have h₃ : s₃.core = s.core := (State.bump_core _ .memEccUncorrectable _ _ _ : s₂.core = _)
  split
  · rw [State.setFlag_core, h₃]
  · exact h₃

/-- Each count of symbols in error: none, one that is corrected, one that is not, and one that may be miscorrected (R207). -/
@[simp] theorem State.dramRead_core (s : State) (m : StackIx) (line : Nat) : (s.dramRead m line).1.core = s.core := by
  rw [← s.activate_core m line]
  unfold State.dramRead
  dsimp only
  split
  · exact State.bump_core ..
  split
  · rfl
  split
  · exact State.bump_core ..
  split
  · exact State.uncorrectable_core _ m line true
  split
  · rfl
  · exact State.uncorrectable_core _ m line false

/-- A whole entry closes its line, any other reads it first (R206, R207). -/
@[simp] theorem State.flushEntry_core (s : State) (m : StackIx) (e : WcbEntry) (c : CtrId) : (s.flushEntry m e c).core = s.core := by
  have hdrop (k : Stack) : ((s.setStack m k).bump c m.val).core = s.core := State.bump_core ..
  unfold State.flushEntry
  dsimp only
  split
  · split
    · exact (State.activate_core ..).trans (hdrop _)
    · exact (State.activate_core ..).trans (hdrop _)
  · have hread (u : State) (n : Nat) : ((u.bump .memWcbRmw n).dramRead m e.line).1.core = u.core :=
      (State.dramRead_core ..).trans (State.bump_core ..)
    split
    · rw [State.bump_core]
      split
      · exact (hread _ _).trans (hdrop _)
      · exact (hread _ _).trans (hdrop _)
    · exact (hread _ _).trans (hdrop _)

@[simp] theorem State.flushWhere_core (s : State) (m : StackIx) (p : WcbEntry → Bool) (c : CtrId) :
    (s.flushWhere m p c).core = s.core :=
  State.foldl_keeps State.core _ (fun s e => s.flushEntry_core m e c) _ s

@[simp] theorem State.flushAll_core (s : State) : s.flushAll.core = s.core :=
  State.foldl_keeps State.core _ (fun s m => s.flushWhere_core m _ _) _ s

/-- The bytes reach memory, the line's entry of the write-combining buffer takes them, and an entry that is full, or that makes
room, is flushed (R206). -/
@[simp] theorem State.writeLine_core (s : State) (m : StackIx) (a : Nat) (bs : List Byte) (bad : Bool) :
    (s.writeLine m a bs bad).core = s.core := by
  unfold State.writeLine
  extract_lets line s₁ mask s₂ _ room _ s₃ s₄
  have h₂ : s₂.core = s.core := State.bump_core ..
  have hroom : room.core = s₂.core := by
    simp only [room]
    split
    · split
      · exact State.flushEntry_core ..
      · rfl
    · rfl
  have h₃ : s₃.core = s₂.core := by
    simp only [s₃]
    split
    · exact State.bump_core ..
    · exact hroom
  have h₄ : s₄.core = s₃.core := by
    simp only [s₄]
    split
    · exact State.flushEntry_core ..
    · rfl
  split
  · exact State.bump_core ..
  · split
    · exact (h₄.trans h₃).trans h₂
    · exact (h₄.trans h₃).trans h₂

@[simp] theorem State.writePhys_core (s : State) (a : Nat) (bs : List Byte) (bad : Bool) : (s.writePhys a bs bad).core = s.core := by
  unfold State.writePhys
  split
  next m _ =>
    refine State.foldl_keeps State.core _ (fun u p => ?_) _ s
    exact u.writeLine_core m p.1 _ bad
  · split
    · rfl
    · rfl

/-! ### Scan-out (R514 to R517) -/

@[simp] theorem State.writeDump_core (s : State) (a : Nat) (bs : List Byte) : (s.writeDump a bs).core = s.core :=
  s.writePhys_core a bs false

@[simp] theorem State.writeOpen_core (s : State) (a n : Nat) : (s.writeOpen a n).core = s.core :=
  State.writeDump_core _ a _

@[simp] theorem State.writeLines_core (s : State) (a : Nat) (bs : List Byte) (bad : Nat → Bool) :
    (s.writeLines a bs bad).core = s.core :=
  State.foldl_keeps State.core _ (fun u k => u.writePhys_core _ _ (bad k)) _ s

@[simp] theorem State.free_core (s : State) : s.free.2.core = s.core := rfl

/-- Scan-out ends DONE, and changes nothing else of the debug unit. -/
theorem State.scanOut_dbg (s : State) (base : Nat) (accs sram : Bool) :
    ∃ now, (s.scanOut base accs sram).dbg = { s.dbg with scanDone := true, doneT := now } := by
  unfold State.scanOut
  extract_lets +onlyGivenNames tiles s₁ s₂ s₃ s₄ s₅ s₆ s₇ s₈ s₉ s₁₀ s₁₁ s₁₂
  have h₁ : s₁.core = s.core := State.writeDump_core ..
  have h₂ : s₂.core = s₁.core := State.foldl_keeps State.core _ (fun u k => by rw [State.writeDump_core, State.free_core]) _ _
  have h₄ : s₄.core = s₂.core := (State.writeOpen_core ..).trans (State.writeDump_core ..)
  have h₅ : s₅.core = s₄.core := State.foldl_keeps State.core _ (fun u k => by rw [State.writeDump_core]) _ _
  have h₆ : s₆.core = s₅.core := State.foldl_keeps State.core _ (fun u k => by rw [State.writeDump_core]) _ _
  have h₇ : s₇.core = s₆.core := State.writeOpen_core ..
  have h₈ : s₈.core = s₇.core :=
    State.foldl_keeps State.core _ (fun u k => by simp only [State.writeOpen_core, State.writeDump_core]) _ _
  have h₉ : s₉.core = s₈.core := by
    simp only [s₉]
    split
    · rfl
    · exact State.foldl_keeps State.core _ (fun u k => by simp only [State.writeOpen_core, State.writeDump_core]) _ _
  have h₁₀ : s₁₀.core = s₉.core := by
    simp only [s₁₀]
    split
    · rfl
    · exact State.foldl_keeps State.core _ (fun u k => by rw [State.writeLines_core]) _ _
  have h₁₁ : s₁₁.core = s₁₀.core := State.writeDump_core ..
  have h₁₂ : s₁₂.core = s₁₁.core := by
    simp only [s₁₂]
    split
    · exact State.flushWhere_core ..
    · rfl
  have hdbg := (State.core_eq_iff.mp (h₁₂.trans (h₁₁.trans (h₁₀.trans (h₉.trans (h₈.trans (h₇.trans (h₆.trans
    (h₅.trans (h₄.trans (h₂.trans h₁))))))))))).2.2.2
  exact ⟨s₁₂.now, by rw [State.bump_dbg, ← hdbg]⟩

/-! ## Freezes (R503, R504) -/

/-- What a freeze records: its pin, whether there is one, its cause and tag, its number and the next, and its time. -/
def State.frost (s : State) : Bool × Bool × FreezeCause × BitVec 32 × BitVec 32 × BitVec 32 × BitVec 64 :=
  (s.board.freezeOutLow, s.dbg.frozen, s.dbg.cause, s.dbg.tag, s.dbg.number, s.dbg.freezeNo, s.dbg.freezeT)

theorem State.frost_of_core {s t : State} (h : t.core = s.core) : t.frost = s.frost := by
  obtain ⟨hboard, -, -, hdbg⟩ := State.core_eq_iff.mp h
  rw [State.frost, hboard, hdbg]; rfl

theorem State.takeSnapshot_frost (s : State) : s.takeSnapshot.frost = s.frost :=
  (State.frost_of_core (s.bump_core .dbgSnapshots 0 0 1) :)

/-- A module that is not frozen takes the cause. -/
theorem State.freeze_frost {s : State} (h : s.dbg.frozen = false) (c : FreezeCause) (tag : BitVec 32) :
    (s.freeze c tag).frost = (true, true, c, tag, s.dbg.freezeNo, s.dbg.freezeNo + 1, s.now) := by
  unfold State.freeze
  rw [if_neg (by rw [h]; decide)]
  extract_lets +onlyGivenNames s₁ d p b s₂ s₃ s₄ s₅
  obtain ⟨-, -, htime, hdbg⟩ := State.core_eq_iff.mp ((State.setFlag_core ..).trans (State.bump_core ..) : s₁.core = s.core)
  have h₂ : s₂.frost = (true, true, c, tag, s₁.dbg.freezeNo, s₁.dbg.freezeNo + 1, s₁.now) := rfl
  have h₃ : s₃.frost = s₂.frost := State.frost_of_core (State.spreadFreeze_core ..)
  have h₄ : s₄.frost = s₃.frost := (State.takeSnapshot_frost _).trans (State.frost_of_core s₃.flushAll_core)
  have h₅ : s₅.frost = s₄.frost := State.frost_of_core (State.event_core ..)
  have hall : s₅.frost = (true, true, c, tag, s.dbg.freezeNo, s.dbg.freezeNo + 1, s.now) := by
    rw [h₅, h₄, h₃, h₂, hdbg, State.now, htime]; rfl
  split
  · exact (State.frost_of_core (State.bump_core ..)).trans hall
  · exact hall

/-- A frozen module ignores a cause. -/
theorem State.freeze_of_frozen {s : State} (h : s.dbg.frozen = true) (c : FreezeCause) (tag : BitVec 32) :
    s.freeze c tag = s.bump .dbgFreezeIgnored := by
  rw [State.freeze, if_pos h]

/-! ## The events -/

section
variable {s : State} (hl : s.live = true)
include hl

theorem exec_triggerFire (ix : Fin 8) (x : Trigger) (hx : s.dbg.triggers[ix] = some x)
    (hmet : x.met (s.ctrNow x.id x.key) = true) :
    exec (.triggerFire ix) s = .next
      (let t := ({ s with dbg := { s.dbg with triggers := s.dbg.triggers.set ix none } } : State).bump .dbgTriggersFired
       if x.snapshot then t.takeSnapshot else t.freeze .trigger (BitVec.ofNat 32 ix.val)) := by
  rw [exec, execTriggerFire, hx]
  exact when_of_true _ (by rw [hl, hmet]; rfl)

theorem exec_freezeStart {cause : FreezeCause} (hpeer : cause ≠ .peer) (hpin : cause = .pin → s.boot.ready = true) (tag : BitVec 32) :
    exec (.freezeStart cause tag) s =
      .next ((if cause = .pin && !s.dbg.frozen then s.bump .boardFreezeInEvents else s).freeze cause tag) := by
  rw [exec, execFreezeStart, when_of_true _ (by
    rw [hl]
    by_cases hc : cause = .pin
    · simp [hpin hc]
    · simp [hc]), if_neg hpeer]

theorem exec_freezeStart_of_frozen (hf : s.dbg.frozen = true) (cause : FreezeCause) (tag : BitVec 32)
    (hpin : cause = .pin → s.boot.ready = true) (hpeer : cause ≠ .peer) :
    exec (.freezeStart cause tag) s = .next (s.bump .dbgFreezeIgnored) := by
  rw [exec_freezeStart hl hpeer hpin, hf, Bool.not_true, Bool.and_false, if_neg Bool.false_ne_true, State.freeze_of_frozen hf]

theorem exec_freezeStart_sets (cause : FreezeCause) (tag : BitVec 32) (hf : s.dbg.frozen = false) (hpeer : cause ≠ .peer)
    (hpin : cause = .pin → s.boot.ready = true) :
    Gives (.freezeStart cause tag) s fun t => t.dbg.frozen = true ∧ t.dbg.cause = cause ∧ t.dbg.tag = tag ∧
      t.board.freezeOutLow = true ∧ t.dbg.number = s.dbg.freezeNo ∧ t.dbg.freezeNo = s.dbg.freezeNo + 1 ∧ t.dbg.freezeT = s.now := by
  refine ⟨_, exec_freezeStart hl hpeer hpin tag, ?_⟩
  have hfrost {u : State} (h : u.core = s.core) :
      (u.freeze cause tag).frost = (true, true, cause, tag, s.dbg.freezeNo, s.dbg.freezeNo + 1, s.now) := by
    obtain ⟨-, -, htime, hdbg⟩ := State.core_eq_iff.mp h
    rw [State.freeze_frost (by rw [hdbg, hf]), State.now, hdbg, htime]; rfl
  generalize hu : (if cause = .pin && !s.dbg.frozen then s.bump .boardFreezeInEvents else s) = u
  have h := hfrost (u := u) (by rw [← hu]; split <;> [exact State.bump_core ..; rfl])
  simp only [State.frost, Prod.mk.injEq] at h
  obtain ⟨hlow, hfrozen, hcause, htag, hnumber, hno, ht⟩ := h
  exact ⟨hfrozen, hcause, htag, hlow, hnumber, hno, ht⟩

theorem exec_freezeStart_peer_refused (tag : BitVec 32) (h : s.dbg.frozen = true ∨ s.dbg.accept = false) :
    exec (.freezeStart .peer tag) s = .next (s.bump .dbgFreezeFlitsIgnored) := by
  rw [exec, execFreezeStart, when_of_true _ (by rw [hl]; rfl), if_pos rfl, if_pos (by rcases h with h | h <;> simp [h])]

theorem exec_freezeStart_peer (tag : BitVec 32) (hf : s.dbg.frozen = false) (ha : s.dbg.accept = true) :
    exec (.freezeStart .peer tag) s = .next
      (let t := s.freeze .peer tag
       { t with dbg := { t.dbg with originFid := BitVec.ofNat 16 (tag.toNat / 2 ^ 16) } }) := by
  rw [exec, execFreezeStart, when_of_true _ (by rw [hl]; rfl), if_pos rfl, if_neg (by rw [hf, ha]; decide)]

theorem exec_scanOutComplete {base size : Nat} {accs sram : Bool} (hd : s.dbg.dump = some (base, size, accs, sram))
    (hf : s.dbg.frozen = true) (ho : s.scanOver = false) :
    exec .scanOutComplete s = .next (s.scanEnds base accs sram) := by
  rw [exec, execScanOutComplete, hd]
  exact when_of_true _ (by rw [hl, hf, ho]; rfl)

theorem exec_releaseTest : exec .releaseTest s = .next s.releaseTest := when_of_true _ hl

end

/-- No THAW waits: there is nothing to test. -/
theorem State.releaseTest_of_none {s : State} (h : s.dbg.thaws = []) : s.releaseTest = s := by
  rw [State.releaseTest, h]; rfl

/-- Scan-out with nothing that waits for it. -/
theorem State.scanEnds_of_none {s : State} {base : Nat} {accs sram : Bool} (hr : s.dbg.dumpReads = []) (ht : s.dbg.thaws = []) :
    s.scanEnds base accs sram =
      { s.scanOut base accs sram with dbg := { (s.scanOut base accs sram).dbg with dumpReads := [] } } := by
  obtain ⟨now, hdbg⟩ := s.scanOut_dbg base accs sram
  rw [State.scanEnds]
  generalize s.scanOut base accs sram = u at hdbg ⊢
  dsimp only
  rw [show u.dbg.dumpReads = [] from (congrArg Debug.dumpReads hdbg).trans hr, List.foldl_nil]
  exact State.releaseTest_of_none ((congrArg Debug.thaws hdbg).trans ht)

/-- The one THAW that waits is due, scan-out is over, and FREEZE_IN_N is high: the module is released (R519, R520). -/
theorem State.releaseTest_of_due {s : State} {src : ZcpSrc} {seq : BitVec 32} {at_ : Option (BitVec 64)}
    (ht : s.dbg.thaws = [(src, seq, at_)]) (hdue : ∀ t, at_ = some t → t.toNat ≤ s.now.toNat) (hf : s.dbg.frozen = true)
    (ho : s.scanOver = true) (hlow : s.board.freezeInLow = false) :
    s.releaseTest = ({ s with dbg := { s.dbg with thaws := [] } } : State).release.answerLater src seq true .success [] := by
  have hdue : (at_.map fun t => decide (t.toNat ≤ s.now.toNat)).getD true = true := by
    cases at_ with
    | none => rfl
    | some t => exact decide_eq_true (hdue t rfl)
  have hboard : { s.board with freezeInLow := false } = s.board := by rw [← hlow]
  rw [State.releaseTest, ht]
  simp only [List.find?_cons, hdue]
  refine (if_neg (by rw [hf, ho]; decide)).trans ?_
  rw [hlow, Bool.false_and, if_neg Bool.false_ne_true, if_neg Bool.false_ne_true, hboard]
  simp

/-- Settles O14: each event, where its conditions hold, has the effect that is claimed. -/
theorem freezeEvents : Obligations.FreezeEvents := by
  intro s hl
  refine ⟨?trigger, ?start, ?pin, ?ignored, ?peer, ?scan, ?scanAlone, exec_releaseTest hl, ?release, exec_freezeStart_sets hl,
    exec_freezeStart_of_frozen hl⟩
  case trigger => exact exec_triggerFire hl
  case start =>
    intro cause tag hpin hpeer
    rw [exec_freezeStart hl hpeer (fun h => absurd h hpin), if_neg (by simp [hpin])]
  case pin =>
    intro tag hr hf
    rw [exec_freezeStart hl (by decide) (fun _ => hr), hf]; rfl
  case ignored => exact exec_freezeStart_peer_refused hl
  case peer => exact exec_freezeStart_peer hl
  case scan => exact fun base size accs sram hd hf ho => exec_scanOutComplete hl hd hf ho
  case scanAlone =>
    intro base size accs sram hd hf ho hr ht
    obtain ⟨now, hdbg⟩ := s.scanOut_dbg base accs sram
    exact ⟨by rw [exec_scanOutComplete hl hd hf ho, State.scanEnds_of_none hr ht], congrArg Debug.scanDone hdbg⟩
  case release =>
    intro src seq at_ ht hdue hf ho hlow
    rw [exec_releaseTest hl, State.releaseTest_of_due ht hdue hf ho hlow]

end Sys2Proof.Machine
end

section
/-! SUPPORT. Proof of spec/13_laser_cartridges.md for the events of the laser cartridges: each event where its conditions
hold. -/

-- Proofs are checked as they come: checked beside the rest, they hold their memory until the whole text is.
set_option Elab.async false

namespace Sys2Proof.Machine

/-! ## One bay written -/

theorem State.modBay_self (s : State) (b : BayIx) (f : Bay → Bay) : (s.modBay b f).bays[b] = f s.bays[b] :=
  Vector.getElem_set_self _

theorem State.i3cWrite_bays (s : State) (b : BayIx) (k : Nat) (bs : List Byte) : (s.i3cWrite b k bs).bays = s.bays := by
  unfold State.i3cWrite; split <;> rfl

/-- CTRL is written, and nothing else of the bay. -/
theorem State.writeCtrl_state (s : State) (b : BayIx) (f : BitVec 32 → BitVec 32) :
    (s.writeCtrl b f).bays[b].state = s.bays[b].state := by
  rw [State.writeCtrl, State.i3cWrite_bays, State.modBay_self]

/-- Updates none of which changes the state change nothing together. -/
theorem foldl_eq_self {α β : Type} {f : α → β → α} {a : α} {l : List β} (h : ∀ b ∈ l, f a b = a) : l.foldl f a = a := by
  induction l with
  | nil => rfl
  | cons b l ih =>
    rw [List.foldl_cons, h b List.mem_cons_self]
    exact ih fun c hc => h c (List.mem_cons_of_mem b hc)

/-! ## What the samples find -/

/-- A poll that finds neither trip nor error only keeps the status (R364). -/
theorem State.polled_of_quiet {s : State} {b : BayIx} {st : BitVec 32} (ht : s.board.tap ≠ .extest)
    (hp : s.bays[b].present = true) (h3 : st.getLsbD 3 = false) (h4 : st.getLsbD 4 = false) :
    s.polled b (some st) = s.modBay b fun x => { x with fails := 0, status := st &&& ~~~8 } := by
  simp only [State.polled, ht, hp, h3, h4, if_false, Bool.not_true, Bool.false_eq_true, Bool.not_false, if_true]

/-- Before a second of samples there is nothing to judge (R371). -/
theorem State.judgeLaser_of_few {s : State} {b : BayIx} {j : Fin 9} (h : s.bays[b].lasers[j].samples.length < 100) :
    s.judgeLaser b j = s := by
  rw [State.judgeLaser]
  exact if_pos (by rw [decide_eq_true h, Bool.or_true])

/-- Good readings of lasers that have fewer samples than a second's are only kept (R370, R371). -/
theorem State.fadeSample_of_few {s : State} {b : BayIx} (ls : List LaserReading) (temp : Int) (ha : s.bays[b].state = .active) :
    let u := s.modBay b fun x => { x with
      temp := temp, peakTemp := max x.peakTemp temp
      lasers := Vector.ofFn fun j => match ls[j.val]? with
        | some r => if j.val < bayLasers b && !x.lasers[j].failed then x.lasers[j].read r else x.lasers[j]
        | none => x.lasers[j] }
    (∀ j ∈ lasersOf b, (ls[j.val]?.map LaserReading.failed).getD false = false ∧ u.bays[b].lasers[j].samples.length < 100) →
    s.fadeSample b ls temp = u.judge b false := by
  intro u hgood
  unfold State.fadeSample
  extract_lets v w
  have hstate : v.bays[b].state = .active := by simp only [v, State.modBay_self, ha]
  have hw : w = v := foldl_eq_self fun j hj => by
    obtain ⟨hread, hfew⟩ := hgood j hj
    rw [if_neg (not_not.mpr hstate), hread, if_neg Bool.false_ne_true]
    exact State.judgeLaser_of_few hfew
  rw [hw]
  exact if_pos hstate

/-- Every laser delivers enough and has not faded before: none reaches spare-in as the ramp ends (R370, R541). -/
theorem State.rampEnds_of_good {s : State} {b : BayIx} (ls : List LaserReading) :
    let rd (j : Fin 9) : LaserReading := (ls[j.val]?).getD { d := 0, bias := 0, biasMax := 0, failed := true }
    (∀ j ∈ lasersOf b, (rd j).failed = false ∧ (bayPower b).1 ≤ (rd j).d ∧ s.bays[b].lasers[j].faded = false) →
    s.rampEnds b ls =
      let u := s.modBay b fun x => { x with
        state := .active, rampEnd := s.clock, lastCommit := s.clock
        commissioned := (lasersOf b).all fun j => x.lasers[j].c.isSome
        lasers := Vector.ofFn fun j =>
          if j.val < bayLasers b then
            { (x.lasers[j].read (rd j)) with
              samples := [], target := (rd j).d, state := if (rd j).failed then 3 else 2, faded := false, failed := false }
          else x.lasers[j] }
      let u := (u.bump .cartInsertions b.val).writeCtrl b (setLed (if s.bays[b].condition = 0 then 1 else 2))
      ((bayPorts b).foldl (fun s p => s.tryTrain p) (if bayKind b = 2 then u.calibrate else u)).cartEvent b := by
  intro rd hgood
  unfold State.rampEnds
  extract_lets low old u v w x y
  have hx : x = w := foldl_eq_self fun j hj => by
    obtain ⟨hread, hlow, hfaded⟩ := hgood j hj
    rw [if_neg (by rw [show (rd j).failed = false from hread]; decide), if_neg (not_lt.mpr hlow),
      if_neg (by rw [show old.lasers[j].faded = false from hfaded]; decide)]
  have hv : v.bays[b].state = .active := by
    simp only [v, State.writeCtrl_state, State.bump_bays, u, State.modBay_self]
  have hw : w.bays[b].state = .active := by
    simp only [w]
    split
    · exact hv
    · exact hv
  rw [if_neg (by rw [hx]; exact not_not.mpr hw)]
  simp only [y, hx]
  rfl

/-! ## The events -/

section
variable {s : State} {b : BayIx} (hl : s.live = true)
include hl

theorem exec_authentication (ht : s.board.tap ≠ .extest) (ha : s.bays[b].state = .authenticating) (c : CartId)
    (hin : s.clock < s.bays[b].authT + 5000000000) : exec (.authentication b c) s = .next (s.authenticate b c) := by
  rw [exec, execAuthentication, when_of_true]
  rw [hl, bne_iff_ne.mpr ht, beq_iff_eq.mpr ha, decide_eq_true hin]; rfl

theorem exec_rampingEnd (hr : s.bays[b].state = .ramping) (ls : List LaserReading) :
    exec (.rampingEnd b ls) s = .next (s.rampEnds b ls) := by
  rw [exec, execRampingEnd, when_of_true]
  rw [hl, beq_iff_eq.mpr hr]; rfl

theorem exec_fadeSample (ha : s.bays[b].state = .active) (ls : List LaserReading) (temp : Int) :
    exec (.fadeSample b ls temp) s = .next (s.fadeSample b ls temp) := by
  rw [exec, execFadeSample, when_of_true]
  rw [hl, beq_iff_eq.mpr ha]; rfl

theorem exec_failureSample (ha : s.bays[b].state = .active) {j : Fin 9} (d : Int) {c : Int} (hj : j.val < bayLasers b)
    (hlit : s.bays[b].lasers[j].state = 2) (hf : s.bays[b].lasers[j].failed = false) (hc : s.bays[b].lasers[j].c = some c) :
    exec (.failureSample b j d) s = .next
      (if d > (bayPower b).2.2 then (s.bump .cartInputHigh b.val).spareIn b j true
       else if d ≤ c - 600 then s.spareIn b j true else s) := by
  rw [exec, execFailureSample]
  refine (when_of_true _ (by rw [hl, beq_iff_eq.mpr ha, decide_eq_true hj, beq_iff_eq.mpr hlit, hf]; rfl)).trans ?_
  simp only [hc, Option.map_some, Option.getD_some, decide_eq_true_eq]

end

/-- Settles O51: each event, where its conditions hold, has the effect that is claimed. -/
theorem cartridgeEvents : Obligations.CartridgeEvents := by
  intro s b hl ht
  have htap : (s.board.tap != .extest) = true := bne_iff_ne.mpr ht
  refine ⟨?join, ?quiet, ?poll, ?dogs, ?authenticating, ?ramping, ?active, ?drain⟩
  case join =>
    intro hp
    rw [exec, execHotJoin, when_of_true _ (by rw [hl, htap, hp]; rfl)]; rfl
  case quiet =>
    intro st hp h3 h4
    rw [exec, execI3cPoll, when_of_true _ hl, State.polled_of_quiet ht hp h3 h4]
  case poll =>
    intro status
    rw [exec, execI3cPoll, when_of_true _ hl]
  case dogs =>
    rw [exec, execWdogWrite, when_of_true _ (by rw [hl, htap]; rfl)]; rfl
  case authenticating =>
    refine fun ha => ⟨fun c hin => ⟨exec_authentication hl ht ha c hin, ?_⟩, fun hdue => ?_⟩
    · rw [exec_authentication hl ht ha c hin]; rfl
    · rw [exec, execAuthTimeout, when_of_true _ (by rw [hl, beq_iff_eq.mpr ha, decide_eq_true hdue]; rfl)]; rfl
  case ramping =>
    refine fun hr ls => ⟨exec_rampingEnd hl hr ls, fun hgood => ?_⟩
    rw [exec_rampingEnd hl hr, State.rampEnds_of_good ls hgood]
  case active =>
    intro ha
    refine ⟨fun hc hdue => ?_, fun ls temp => ⟨exec_fadeSample hl ha ls temp, fun hgood => ?_⟩, ?_, fun hdue hlit => ?_⟩
    · rw [exec, execCommissioning, when_of_true _ (by rw [hl, beq_iff_eq.mpr ha, hc, decide_eq_true hdue]; rfl)]; rfl
    · rw [exec_fadeSample hl ha]
      exact congrArg _ (State.fadeSample_of_few ls temp ha hgood)
    · refine fun j d c hj hlit hf hc => ⟨fun hhigh => ?_, fun hd hdrop => ?_, fun hd hdrop => ?_⟩
      · rw [exec_failureSample hl ha d hj hlit hf hc, if_pos hhigh]
      · rw [exec_failureSample hl ha d hj hlit hf hc, if_neg (not_lt.mpr hd), if_pos hdrop]
      · rw [exec_failureSample hl ha d hj hlit hf hc, if_neg (not_lt.mpr hd), if_neg (not_le.mpr hdrop)]
    · have hany : ((lasersOf b).any fun j => s.bays[b].lasers[j].state == 2) = true := by simpa using hlit
      rw [exec, execLedgerCommit, when_of_true _ (by rw [hl, htap, beq_iff_eq.mpr ha, decide_eq_true hdue, hany]; rfl)]; rfl
  case drain =>
    intro hd hempty
    have hdone : ((bayPorts b).all s.portEmpty || decide (s.bays[b].drainT + 1000000 ≤ s.clock)) = true := by
      simpa using hempty
    rw [exec, execDrainComplete, when_of_true _ (by rw [hl, beq_iff_eq.mpr hd, hdone]; rfl)]; rfl

end Sys2Proof.Machine
end

section
/-! SUPPORT. Proof of spec/14_collectives.md for the completion and timeouts of collectives and the escrow of a switch: each event
where its conditions hold. -/

-- Proofs are checked as they come: checked beside the rest, they hold their memory until the whole text is.
set_option Elab.async false

namespace Sys2Proof.Machine

/-! ## The share that a message names (R397) -/

/-- The share that an ESCROW message names is one of an issued collective's. -/
theorem State.issue_of_escShare {s : State} {p : PortIx} {key : EscrowKey} {x : Ctx} {g : Group} {c : Issue} {y : Share}
    (h : s.escShare p key = some (x, g, c, y)) : x.issue = some c := by
  simp only [State.escShare, Option.bind_eq_some_iff, Option.ite_none_left_eq_some, Option.map_eq_some_iff, Prod.mk.injEq] at h
  obtain ⟨x', -, -, g', -, c', hc, y', -, rfl, -, rfl, -⟩ := h
  exact hc

/-! ## What falls back, and what is granted (R398, R400, R401) -/

/-- A share that was never refused falls back: what it has stands, the rest becomes a part. -/
theorem State.escFallback_of_unrefused (u : State) {x : Ctx} {c : Issue} {y : Share} (hc : x.issue = some c) (hr : y.refusals = 0) :
    u.escFallback x y =
      let keep := y.lo + y.result.length
      let part : Part := ⟨keep / c.eb, if c.op = 6 then keep / c.eb else y.hi / c.eb, 0, false, x.vals, false⟩
      ((u.escRelease x y).modCtx x.group x.seq fun x => { x with
        fellBack := true
        parts := x.parts ++ [part]
        shares := mapIf (fun z => z.port == y.port)
          (fun z => if z.result.isEmpty then { z with state := .fallback, held := false }
            else { z with state := .done, hi := keep, held := false }) x.shares }).collRun x.group x.seq := by
  rw [State.escFallback, hc]
  simp only [hr, gt_iff_lt, lt_irrefl, decide_false, Bool.false_and, Bool.false_eq_true, if_false]

/-- A whole, ordered grant at the first asking, whose rounds are few enough, is held and begins. -/
theorem State.granted_of_whole {s : State} {p : PortIx} {x : Ctx} {g : Group} {c : Issue} {y : Share} (hr : y.refusals = 0)
    (hrounds : ceilDiv (y.hi - y.lo) (max 1 (min 32 (ceilDiv (y.hi - y.lo) 4096)) * 4096) ≤ 256) :
    let slots := max 1 (min 32 (ceilDiv (y.hi - y.lo) 4096))
    let y' : Share := { y with slots := slots, ordered := true, held := true, state := .granted, round := 0 }
    let x' : Ctx := { x with shares := mapIf (fun z => z.port == p) (fun _ => y') x.shares }
    s.granted p x g c y slots true = (((s.bump .collEscGrants).modBook p fun b => { b with
      granted := b.granted + slots, held := b.held + slots }).modCtx x.group x.seq fun _ => x').escData g x' c y' := by
  simp only [State.granted, lt_irrefl, if_false, if_true, gt_iff_lt, Nat.not_lt.mpr hrounds, hr]

/-- A piece that leaves the round incomplete is kept. -/
theorem State.resultIn_of_partial {s : State} {p : PortIx} {x : Ctx} {g : Group} {c : Issue} {y : Share} {offset : Nat}
    {payload : List Byte}
    (h : (((32 * offset, payload) :: y.got).map fun z => z.2.length).sum <
      ceilDiv (min (y.slots * 4096) (y.hi - (y.lo + y.round * y.slots * 4096))) 32 * 32) :
    s.resultIn p x g c y offset payload =
      (s.bump .collRxBytes 0 0 payload.length).modCtx x.group x.seq fun x => { x with
        last := s.time.work
        shares := mapIf (fun z => z.port == p) (fun z => { z with got := (32 * offset, payload) :: y.got }) x.shares } := by
  rw [State.resultIn]
  refine (if_pos h).trans ?_
  rw [State.bump_time]

/-! ## The ends of a collective (R386, R405) -/

theorem State.completeColl_of_plain {s : State} {x : Ctx} {c : Issue} (hn : x.nondet = false) (hc : c.cten = false) :
    s.completeColl x c = ((((s.collRecord x c 0 0).dropCtx x).bump .collCompleted).modJobTile x.job c.tile fun t =>
      t.modFabMove c.id fun m => { m with state := .done }).collFrames := by
  simp only [State.completeColl, hn, hc, Bool.false_eq_true, if_false]

@[simp] theorem State.collRecord_time (s : State) (x : Ctx) (c : Issue) (flags : BitVec 8) (status : BitVec 16) :
    (s.collRecord x c flags status).time = s.time := by
  rw [State.collRecord, State.modColl_time]

@[simp] theorem State.collRecord_tiles (s : State) (x : Ctx) (c : Issue) (flags : BitVec 8) (status : BitVec 16) :
    (s.collRecord x c flags status).tiles = s.tiles := by
  rw [State.collRecord, State.modColl_tiles]

/-- A collective with no shares whose move was not resumed is held with a record, where its job's POLICY holds it (R224). -/
theorem State.collFault_of_hold {s : State} {x : Ctx} {c : Issue} {j : Job} {f : Suspend} (hc : x.issue = some c)
    (hj : s.job x.job = some j) (hp : j.p.policy ≠ 2) (hs : x.shares = [])
    (hr : ∀ t m, s.partOf j c.tile = some t → t.move c.id = some m → m.resumed = false) :
    s.collFault x f = ((((s.collRecord x c 4 f.status.code).modCtx x.group x.seq fun x =>
      { x with held := true, failing := some f.status.code }).modJobTile x.job c.tile fun t => t.modFabMove c.id fun m =>
        { m with state := .suspended { f with since := s.time.work } }).fault (f.record {
          status := f.status, unit := 7, job := x.job, flags := 0x10, mv := some (c.tile, c.id) })) := by
  have hagain (u : State) (hu : u.tiles = s.tiles) : ¬ (((u.partOf j c.tile).bind fun t => t.move c.id).any QMove.resumed) = true := by
    have hpart : u.partOf j c.tile = s.partOf j c.tile := by rw [State.partOf, State.partOf, State.tile, State.tile, hu]
    rw [hpart, Option.any_eq_true]
    rintro ⟨m, hm, hres⟩
    obtain ⟨t, ht, hm⟩ := Option.bind_eq_some_iff.mp hm
    exact Bool.false_ne_true ((hr t m ht hm).symm.trans hres)
  simp only [State.collFault, hc, hj, hs, List.foldl_nil, ne_eq, hp, not_false_eq_true, if_true]
  rw [if_neg (hagain _ ?_)]
  · rw [State.modCtx_time, State.collRecord_time]
  · rw [State.modCtx_tiles, State.collRecord_tiles]

/-! ## The events -/

section
variable {s : State} (hw : s.working = true)
include hw

theorem exec_collComplete {group : BitVec 16} {seq : BitVec 32} {x : Ctx} {c : Issue} (hx : s.ctx group seq = some x)
    (hc : x.issue = some c) (hwr : x.written = true) (hh : x.held = false) (ho : x.out = []) (hlive : s.collLive group seq = false)
    (hs : ∀ y ∈ x.shares, y.held = false) : exec (.collComplete group seq) s = .next (s.completeColl x c) := by
  have hshares : x.shares.any Share.held = false := by simpa using hs
  rw [exec, execCollComplete, hx]
  dsimp only
  rw [hc]
  exact when_of_true _ (by rw [hw, hwr, hh, ho, hlive, hshares]; rfl)

theorem exec_collTimeout {group : BitVec 16} {seq : BitVec 32} {x : Ctx} {g : Group} (hx : s.ctx group seq = some x)
    (hg : s.group group = some g) (hc : x.issue ≠ none) (hh : x.held = false) (hwr : x.written = false)
    (hdue : x.last + g.ctimeout ≤ s.time.work) :
    exec (.collTimeout group seq) s = .next ((s.bump .collTimeouts).collFault x { status := .collTimeout, addr := 0 }) := by
  rw [exec, execCollTimeout, hx, hg]
  exact when_of_true _ (by rw [hw, Option.isSome_iff_ne_none.mpr hc, hh, hwr, decide_eq_true hdue]; rfl)

section
variable {p : PortIx} (hu : s.ports[p].usable = true) (key : EscrowKey)
include hu

theorem exec_grant {slots : Nat} (ordered : Bool) (h1 : 1 ≤ slots) (h32 : slots ≤ 32) :
    exec (.grant p key slots ordered) s = .next (match s.escShare p key with
      | none => s.strayGrant p key slots ordered
      | some (x, g, c, y) =>
        if y.state == .requested && !x.held then s.granted p x g c y slots ordered
        else if !y.held && (y.state == .fallback || x.held) then s.lateGrant x y slots ordered
        else s) := by
  rw [exec, execGrant]
  exact when_of_true _ (by rw [hw, hu, decide_eq_true h1, decide_eq_true h32]; rfl)

theorem exec_released : exec (.released p key) s = .next (match s.coll.books[p].releasing.find? fun z => z.1 == key with
    | none => s.bump .collEscStale
    | some z => s.modBook p fun b => { b with
        granted := b.granted - z.2, requested := b.requested - z.2, releasing := b.releasing.erase z }) := by
  rw [exec, execReleased]
  exact when_of_true _ (by rw [hw, hu]; rfl)

end

section
variable {p : PortIx} {key : EscrowKey} {x : Ctx} {g : Group} {c : Issue} {y : Share}
  (hy : s.escShare p key = some (x, g, c, y)) (hh : x.held = false)
include hy hh

theorem exec_refuse (hu : s.ports[p].usable = true) {reason : BitVec 8} (hs : y.state = .requested) (h1 : 1 ≤ reason.toNat)
    (h3 : reason.toNat ≤ 3) : exec (.refuse p key reason) s = .next ((s.bump .collEscRefusals).escRefused x c y) := by
  rw [exec, execRefuse, hy]
  exact when_of_true _ (by rw [hw, hu, beq_iff_eq.mpr hs, hh, decide_eq_true h1, decide_eq_true h3]; rfl)

theorem exec_result (hu : s.ports[p].usable = true) {round : BitVec 8} {offset : Nat} {payload : List Byte} (hs : y.state = .granted)
    (hheld : y.held = true) (hround : y.round = round.toNat) (hnew : ∀ z ∈ y.got, z.1 ≠ 32 * offset) :
    exec (.result p key round offset payload) s = .next (s.resultIn p x g c y offset payload) := by
  have hnone : (y.got.any fun z => z.1 == 32 * offset) = false := by simpa using hnew
  rw [exec, execResult, hy]
  exact when_of_true _ (by rw [hw, hu, beq_iff_eq.mpr hs, hheld, hh, beq_iff_eq.mpr hround, hnone]; rfl)

theorem exec_escWaitExpiry (hp : c.policy = 0) (hs : y.state = .requested ∨ ∃ till, y.state = .backoff till)
    (hdue : y.first + g.escWait ≤ s.time.work) :
    exec (.escWaitExpiry p key) s = .next ((s.bump .collEscFallbacks).escFallback x y) := by
  rw [exec, execEscWaitExpiry, hy]
  rcases hs with hs | ⟨till, hs⟩
  · exact when_of_true _ (by rw [hw, hp, hh, hs, decide_eq_true hdue]; rfl)
  · exact when_of_true _ (by rw [hw, hp, hh, hs, decide_eq_true hdue]; rfl)

theorem exec_escrowBackoff {till : Nat} (hs : y.state = .backoff till) (hdue : till ≤ s.time.work) :
    exec (.escrowBackoff p key) s = .next ((s.modCtx key.group key.seq fun x => { x with
      shares := mapIf (fun z => z.port == p) (fun z => { z with state := .requested }) x.shares }).escRequest g x c y) := by
  rw [exec, execEscrowBackoff, hy]
  dsimp only
  rw [hs]
  exact when_of_true _ (by rw [hw, hh, decide_eq_true hdue]; rfl)

theorem exec_escTimeout (hs : y.state = .granted) (hheld : y.held = true) (hdue : y.sentAt + g.escTimeout ≤ s.time.work) :
    exec (.escTimeout p key) s = .next ((((s.modCtx key.group key.seq fun x => { x with fellBack := true }).bump
      .collEscTimeouts).bump .collEscFallbacks).escFallback x y) := by
  rw [exec, execEscTimeout, hy]
  exact when_of_true _ (by rw [hw, beq_iff_eq.mpr hs, hheld, hh, decide_eq_true hdue]; rfl)

end
end

/-- Settles O53: each event, where its conditions hold, has the effect that is claimed. -/
theorem escrowEvents : Obligations.EscrowEvents := by
  intro s hw
  refine ⟨?complete, ?plain, ?hold, ?timeout, ?share, ?port⟩
  case complete => exact fun group seq x c hx hc hwr hh ho hlive hs => exec_collComplete hw hx hc hwr hh ho hlive hs
  case plain =>
    intro group seq x c hx hc hwr hh ho hlive hs hn hcten
    rw [exec_collComplete hw hx hc hwr hh ho hlive hs, State.completeColl_of_plain hn hcten]
  case hold =>
    intro group seq x g c j hx hg hc hj hp hs hh hwr hdue hr f
    have hjob : (s.bump .collTimeouts).job x.job = some j := (congrArg (List.find? _) (State.bump_jobs ..)).trans hj
    have hpart : (s.bump .collTimeouts).partOf j c.tile = s.partOf j c.tile := by simp only [State.partOf, State.bump_tile]
    rw [exec_collTimeout hw hx hg (by rw [hc]; exact Option.some_ne_none c) hh hwr hdue,
      State.collFault_of_hold hc hjob hp hs fun t m ht => hr t m (hpart ▸ ht), State.bump_time]
  case timeout => exact fun group seq x g hx hg hc hh hwr hdue => exec_collTimeout hw hx hg hc hh hwr hdue
  case share =>
    intro p key x g c y hu hy hh
    have hc := State.issue_of_escShare hy
    refine ⟨?grant, ?whole, ?late, ?refuse, ?backoff, ?result, ?piece, ?fallback, ?waitedBackoff, ?waited, ?again, ?silent⟩
    case grant =>
      intro slots ordered hs h1 h32
      rw [exec_grant hw hu key ordered h1 h32, hy]
      exact congrArg _ (if_pos (by rw [hs, hh]; rfl))
    case whole =>
      intro hs hr slots hrounds y' x'
      have h1 : 1 ≤ slots := Nat.le_max_left ..
      have h32 : slots ≤ 32 := Nat.max_le.mpr ⟨by decide, Nat.min_le_left ..⟩
      rw [exec_grant hw hu key true h1 h32, hy]
      exact congrArg _ ((if_pos (by rw [hs, hh]; rfl)).trans (State.granted_of_whole hr hrounds))
    case late =>
      intro slots ordered hs hheld h1 h32
      rw [exec_grant hw hu key ordered h1 h32, hy]
      exact congrArg _ ((if_neg (by rw [hs, hh]; decide)).trans (if_pos (by rw [hheld, hs]; rfl)))
    case refuse => exact fun reason hs h1 h3 => exec_refuse hw hy hh hu hs h1 h3
    case backoff =>
      intro reason hs h1 h3 hp
      rw [exec_refuse hw hy hh hu hs h1 h3, State.escRefused]
      refine congrArg _ ((if_neg (by rw [hp]; decide)).trans ?_)
      rw [State.modCtx_time, State.bump_time]
    case result => exact fun round offset payload hs hheld hround hnew => exec_result hw hy hh hu hs hheld hround hnew
    case piece =>
      intro round offset payload hs hheld hround hnew got hsum
      rw [exec_result hw hy hh hu hs hheld hround hnew, State.resultIn_of_partial hsum]
    case fallback =>
      rintro u (⟨rfl, hp, hs, hdue⟩ | ⟨rfl, hs, hheld, hdue⟩) hr keep part
      · rw [if_neg (by rcases hs with hs | ⟨till, hs⟩ <;> rw [hs] <;> simp), exec_escWaitExpiry hw hy hh hp hs hdue,
          State.escFallback_of_unrefused _ hc hr]
      · rw [if_pos hs, exec_escTimeout hw hy hh hs hheld hdue, State.escFallback_of_unrefused _ hc hr]
    case waitedBackoff => exact fun till hp hs hdue => exec_escWaitExpiry hw hy hh hp (.inr ⟨till, hs⟩) hdue
    case waited => exact fun hp hs hdue => exec_escWaitExpiry hw hy hh hp (.inl hs) hdue
    case again => exact fun till hs hdue => exec_escrowBackoff hw hy hh hs hdue
    case silent => exact fun hs hheld hdue => exec_escTimeout hw hy hh hs hheld hdue
  case port =>
    intro p key hu
    refine ⟨fun hnone => ?_, fun z hz => ?_, fun slots hs h1 h32 => ?_⟩
    · have hfind : (s.coll.books[p].releasing.find? fun z => z.1 == key) = none := by simpa using hnone
      rw [exec_released hw hu, hfind]
    · rw [exec_released hw hu, hz]
    · rw [exec_grant hw hu key true h1 h32, hs]; rfl

end Sys2Proof.Machine
end

section
/-! SUPPORT. Proof of spec/15_host_ethernet.md for the events of the host interfaces: each event where its conditions hold. -/

-- Proofs are checked as they come: checked beside the rest, they hold their memory until the whole text is.
set_option Elab.async false

namespace Sys2Proof.Machine

/-! ## Frames (R409, R412) -/

/-- The counters of an arriving frame (R409, R432). -/
def State.countFrame (s : State) (h : Nat) (f : Frame) : State :=
  (((s.bump .hostRxFrames h).bump .hostRxBytes h 0 f.bytes).bump .hostFecCorrected h 0 f.fecCorrected).bump
    .hostFecUncorrectable h 0 f.fecUncorrectable

/-- What a counted frame of a class does (R409, R412, R430, R433). -/
def State.classified (u : State) (i : IfIx) (f : Frame) (k : FrameKind) : State :=
  let h := (portOfIf i).val
  match k with
  | .fragment => u.bump .hostRxFragment h
  | .pause => u.bump .hostRxPauseDiscarded h
  | .ptp => u.bump .hostRxPtp h
  | .control => u.bump .hostRxControl h
  | .roce => if (u.bump .hostRxRoce h).dbg.frozen then (u.bump .hostRxRoce h).holdFrame (portOfIf i) f else u.bump .hostRxRoce h
  | .zcp => (u.bump .hostRxZcp h).zcpPacketIn f.src f.data
  | .other => u.bump .hostRxUnclaimed h

/-- A frame whose FCS holds, and that is not too long, is counted and classified. -/
theorem State.ethFrameIn_of_sound {s : State} {i : IfIx} {f : Frame} (hfcs : f.fcsOk = true) (hlen : f.bytes ≤ 9216) :
    s.ethFrameIn i f = (s.countFrame (portOfIf i).val f).classified i f (frameKind s.host.mgmtPort f) := by
  simp only [State.ethFrameIn, State.countFrame, hfcs, Bool.not_true, Bool.false_eq_true, if_false, gt_iff_lt, Nat.not_lt.mpr hlen,
    State.bump_host]
  rfl

/-! ## PFC (R426) -/

/-- A pause of the one lossless priority, not paused yet and in no storm. -/
theorem State.pfcIn_of_pause {s : State} {h : HostIx} {k : Fin 8} {pause : BitVec 8} (hpfc : s.host.ports[h].pfc = [k])
    (hk : pause.getLsbD k.val = true) (hp : s.host.ports[h].paused[k] = none) (hs : s.host.ports[h].stormed[k] = false) :
    s.pfcIn h pause = ((s.modHostPort h fun p => { p with
      paused := p.paused.set k (some s.clock) }).bump .hostPfcRxXoff h.val).releaseTx h := by
  simp only [State.pfcIn, hpfc, List.foldl_cons, List.foldl_nil, hs, hk, hp, Bool.false_and, Bool.false_eq_true, if_false, if_true,
    Option.isSome_none]

/-! ## The events -/

section
variable {s : State} (hl : s.live = true)
include hl

section
variable {i : IfIx} (he : s.ifaceExists i = true)
include he

theorem exec_frameReceived (hu : s.host.ifaces[i].up = true) (f : Frame) :
    exec (.frameReceived i f) s = .next (s.ethFrameIn i f) := by
  rw [exec, execFrameReceived]
  exact when_of_true _ (by rw [hl, he, hu]; rfl)

theorem exec_ptpMessage (hu : s.host.ifaces[i].up = true) {stamp : BitVec 64}
    (hnear : ((stamp.toNat : Int) - s.now.toNat).natAbs ≤ 32) :
    exec (.ptpMessage i stamp) s = .next (s.modHostPort (portOfIf i) fun p => { p with ptpStamp := some stamp }) := by
  rw [exec, execPtpMessage]
  exact when_of_true _ (by rw [hl, he, hu, decide_eq_true hnear]; rfl)

theorem exec_controlFrame_dhcp (hu : s.host.ifaces[i].up = true) (h4 : s.host.ifaces[i].ipv4 = []) (a : BitVec 32) :
    exec (.controlFrame i (some a)) s = .next (s.setAddr i 0 (some (a.setWidth 128))) := by
  rw [exec, execControlFrame, when_of_true _ (by rw [hl, he, hu]; rfl)]
  dsimp only
  rw [h4]
  rfl

theorem exec_controlFrame_request (hu : s.host.ifaces[i].up = true)
    (hrate : (s.host.ports[portOfIf i].answered.filter fun t => s.clock < t + 1000000000).length < 10000) :
    exec (.controlFrame i none) s = .next ((s.modHostPort (portOfIf i) fun p => { p with
      answered := s.clock :: s.host.ports[portOfIf i].answered.filter fun t => s.clock < t + 1000000000 }).emit
      (.net i .controlReply)) := by
  rw [exec, execControlFrame, when_of_true _ (by rw [hl, he, hu]; rfl)]
  exact congrArg _ (if_neg (Nat.not_le.mpr hrate))

theorem exec_addressChange (ix : Fin 8) (addr : Option (BitVec 128)) :
    exec (.addressChange i ix addr) s = .next (s.setAddr i ix addr) := by
  rw [exec, execAddressChange]
  exact when_of_true _ (by rw [hl, he]; rfl)

theorem exec_hostLinkChange_down (hu : s.host.ifaces[i].up = true) (hd : s.host.ports[portOfIf i].dark = none) :
    exec (.hostLinkChange i false) s = .next (s.modIface i fun x => { x with up := false }) := by
  rw [exec, execHostLinkChange]
  exact when_of_true _ (by rw [hl, he, hu, hd]; rfl)

theorem exec_hostLinkChange_up (hu : s.host.ifaces[i].up = false)
    (hlit : s.bays[if (portOfIf i).val < 2 then (8 : BayIx) else 9].state = .active) :
    exec (.hostLinkChange i true) s = .next
      (let t := s.modIface i fun x => { x with up := true }
       (t.host.qps.filter fun q => q.p.iface == i).foldl (fun s q => s.workQp q.qpn) t) := by
  rw [exec, execHostLinkChange]
  exact when_of_true _ (by rw [hl, he, hu, hlit]; rfl)

end

theorem exec_pfcFrame {h : HostIx} (hpfc : s.host.ports[h].pfc ≠ []) (pause : BitVec 8) :
    exec (.pfcFrame h pause) s = .next (s.pfcIn h pause) := by
  rw [exec, execPfcFrame]
  exact when_of_true _ (by rw [hl, Bool.eq_false_iff.mpr (mt List.isEmpty_iff.mp hpfc)]; rfl)

theorem exec_pfcWatchdog {h : HostIx} {k : Fin 8} {t : Nat} (hp : s.host.ports[h].paused[k] = some t)
    (hdue : t + 1000000 * s.host.ports[h].watchdogMs < s.clock) (hs : s.host.ports[h].stormed[k] = false) :
    exec (.pfcWatchdog h k) s = .next ((((s.modHostPort h fun p => { p with stormed := p.stormed.set k true }).setFlag
      .hostPfcStorm 5 (4 * h.val)).bump .hostPfcWatchdog h.val).releaseTx h) := by
  rw [exec, execPfcWatchdog]
  exact when_of_true _ (by rw [hl, hp, hs, Option.map_some, decide_eq_true hdue]; rfl)

end

/-- Settles O54: each event, where its conditions hold, has the effect that is claimed. -/
theorem hostInterfaceEvents : Obligations.HostInterfaceEvents := by
  intro s i hl he
  refine ⟨fun hu => ?up, exec_addressChange hl he, exec_hostLinkChange_up hl he, fun h pause hpfc => exec_pfcFrame hl hpfc pause, ?paused,
    fun h k t => exec_pfcWatchdog hl⟩
  case up =>
    refine ⟨exec_frameReceived hl he hu, ?frames, fun stamp => exec_ptpMessage hl he hu, fun a h4 => exec_controlFrame_dhcp hl he hu h4 a,
      exec_controlFrame_request hl he hu, exec_hostLinkChange_down hl he hu⟩
    intro f hfcs hlen h u k
    rw [exec_frameReceived hl he hu, State.ethFrameIn_of_sound hfcs hlen]
    refine ⟨fun hk => ?pause, fun hk => ?ptp, fun hk => ?control, fun hk hf => ?roce, fun hk => ?zcp, fun hk => ?other,
      fun hk => ?fragment⟩
    case roce =>
      rw [show frameKind s.host.mgmtPort f = _ from hk]
      exact congrArg _ (if_neg (by simp [State.countFrame, hf]))
    all_goals rw [show frameKind s.host.mgmtPort f = _ from hk]; rfl
  case paused =>
    intro h k pause hpfc hk hp hs
    rw [exec_pfcFrame hl (by rw [hpfc]; exact List.cons_ne_nil _ _), State.pfcIn_of_pause hpfc hk hp hs]

end Sys2Proof.Machine
end

section
/-! SUPPORT. Proof of spec/15_host_ethernet.md for the events of queue pairs: each event where its conditions hold. -/

-- Proofs are checked as they come: checked beside the rest, they hold their memory until the whole text is.
set_option Elab.async false

namespace Sys2Proof.Machine

/-! ## Queue pairs by their numbers -/

theorem State.qpn_of_qp {s : State} {n : Nat} {q : Qp} (h : s.qp n = some q) : q.qpn = n :=
  beq_iff_eq.mp (List.find?_some (p := fun q : Qp => q.qpn == n) h)

/-- A change that keeps a queue pair's number is found under it. -/
theorem State.qp_modQp {s : State} {n : Nat} {q : Qp} {f : Qp → Qp} (hf : ∀ q, (f q).qpn = q.qpn) (h : s.qp n = some q) :
    (s.modQp n f).qp n = some (f q) := by
  have hn (q : Qp) : (if q.qpn == n then f q else q).qpn = q.qpn := by split; exacts [hf q, rfl]
  have hcomp : ((fun q : Qp => q.qpn == n) ∘ fun q => if q.qpn == n then f q else q) = fun q => q.qpn == n :=
    funext fun q => congrArg (· == n) (hn q)
  calc (s.modQp n f).qp n = (s.qp n).map fun q => if q.qpn == n then f q else q := by
        rw [State.qp, State.modQp, State.modHost, mapIf, List.find?_map, hcomp, State.qp]
    _ = some (f q) := by rw [h, Option.map_some, if_pos (beq_iff_eq.mpr (State.qpn_of_qp h))]

/-! ## Time -/

@[simp] theorem State.transmit_time (s : State) (x : TxWait) : (s.transmit x).time = s.time := by
  rw [State.transmit]
  split
  · rfl
  · dsimp only
    split
    · split <;> simp
    · simp

@[simp] theorem State.sendNet_time (s : State) (q : Qp) (o : NetOut) (packets bytes : Nat) :
    (s.sendNet q o packets bytes).time = s.time := by
  simp only [State.sendNet]
  split
  · rfl
  · exact State.transmit_time ..

/-! ## The responder (R417, R422) -/

/-- A WRITE in order, in a region that allows it, whose bytes are written, is acknowledged. -/
theorem State.roceIn_of_write {s u : State} {q : Qp} {r : RoceReq} {j : Job} (hop : r.op = .write) (hce : r.ce = false)
    (hpsn : r.psn = q.recvPsn) (hb : q.beyond = []) (hj : s.job q.job = some j)
    (hmr : ((s.memRegion q.job r.rkey).map fun m => m.allows r.va.toNat r.len 1) = some true)
    (hwr : s.hubWrite j r.va.toNat r.payload = (u, none)) :
    s.roceIn q r = (u.roceAck q r).modQp q.qpn fun q => { q with
      recvPsn := q.recvPsn + BitVec.ofNat 24 (psnsOf q.p r.len), gapNak := false } := by
  have happly : s.applyRoce q j r = (u.roceAck q r, true) := by
    simp only [State.applyRoce, hop, hmr, hwr, Option.getD_some, Bool.not_true, Bool.false_eq_true, if_false]
  simp only [State.roceIn, hce, Bool.false_eq_true, if_false, hj, hpsn, BitVec.sub_self, BitVec.toNat_zero, if_true, happly,
    Bool.not_true, hb, List.length_nil]
  rfl

/-! ## The requester (R421, R423) -/

/-- An ACK that covers the one outstanding WRITE, sent again and unsignalled. -/
theorem State.roceAnswer_of_ack {s : State} {n : Nat} {q : Qp} {w : SentWqe} (hq : s.qp n = some q) (hs : q.sent = [w])
    (hr : w.resent = true) (hop : w.op = .write) (hsig : w.signalled = false) {psn : BitVec 24}
    (hpsn : (psn - (w.psn + BitVec.ofNat 24 (w.psns - 1))).toNat < 2 ^ 23) (rtt : Nat) :
    s.roceAnswer n (.ack psn rtt) = (((s.modQp n fun q => { q with retries := 0, rnrs := 0 }).modQp n fun q => { q with
      sent := q.sent.filter fun x => x.index != w.index }).workQp n) := by
  have hold : ((q.sent.find? fun w => (psn - w.psn).toNat < w.psns).map fun w => !w.resent) ≠ some true := by
    rw [hs, List.find?_singleton]
    split <;> simp [hr]
  have hack : State.ackTo n psn q.sent.length s =
      (s.modQp n fun q => { q with retries := 0, rnrs := 0 }).endWqe n w .success := by
    simp only [hs, List.length_singleton, State.ackTo, hq, Option.map_some, hop, ge_iff_le, Nat.not_le.mpr hpsn, decide_false]
    rfl
  simp only [State.roceAnswer, hq, hold, if_false, hack, State.endWqe, hsig]
  rfl

/-- The doorbell word of a queue pair that sends is read: it goes on. -/
theorem State.doorbell_of_read {s u : State} {n : Nat} {q : Qp} {j : Job} {bs : List Byte} (hq : s.qp n = some q)
    (hj : s.job q.job = some j) (hs : q.state = .rts)
    (hr : (s.modQp n fun q => { q with polled := s.time.work }).hubRead j q.p.doorbell.toNat 8 = (u, .ok bs)) :
    s.doorbell n = (u.modQp n fun q => { q with sqProd := leNat bs % 2 ^ 32 }).workQp n := by
  simp only [State.doorbell, hq, hj, hr, hs, reduceCtorEq, if_false]

theorem State.retryQp_of_left {s : State} {n : Nat} {q : Qp} {w : SentWqe} (hq : s.qp n = some q) (hs : q.sent = [w])
    (hr : q.retries < q.p.retry.toNat) (psn : BitVec 24) (mask : Option (BitVec 256)) :
    s.retryQp n psn mask = (s.modQp n fun q => { q with retries := q.retries + 1 }).resendFrom n psn mask := by
  simp only [State.retryQp, hq, hs, ge_iff_le, Nat.not_le.mpr hr, if_false]

/-- A READ is asked for whole, in one packet. -/
theorem State.sendWqe_of_read (s : State) (q : Qp) (j : Job) {w : SentWqe} (hop : w.op = .read) (c : Nat) :
    s.sendWqe q j w 0 c =
      (s.sendNet q (.request q.p.dstQpn (w.psn + 0#24) .read w.rkey (w.raddr + 0#64) w.len w.imm []) 1 0, none) := by
  simp only [State.sendWqe, hop, Nat.zero_mul, Nat.min_zero, Nat.sub_zero, if_true]

/-- A READ is asked for again whole. -/
theorem State.resendWqe_of_read (s : State) (q : Qp) (j : Job) {w : SentWqe} (hop : w.op = .read) :
    s.resendWqe q j w w.psn none =
      ((s.bump .rdmaRetransmits 0 0 1).sendNet q
        (.request q.p.dstQpn (w.psn + 0#24) .read w.rkey (w.raddr + 0#64) w.len w.imm []) 1 0).modQp q.qpn fun q => { q with
          sent := mapIf (fun x => x.index == w.index) (fun x => { x with resent := true, last := s.time.work }) q.sent } := by
  have hk : (if (w.psn - w.psn).toNat < 2 ^ 23 then 0 else (w.psn - w.psn).toNat) = 0 := by simp
  simp only [State.resendWqe, hk, hop, if_true, List.isEmpty_cons, Bool.false_eq_true, if_false, List.foldl_cons, List.foldl_nil,
    Option.isSome_none, State.sendWqe_of_read _ _ _ hop, State.sendNet_time, State.bump_time]

/-- The one outstanding work request of a queue pair that sends is sent again from its first packet on. -/
theorem State.resendFrom_of_single {s : State} {n : Nat} {q : Qp} {j : Job} {w : SentWqe} (hq : s.qp n = some q)
    (hj : s.job q.job = some j) (hu : s.host.ifaces[q.p.iface].up = true) (hd : s.hostDrains q.p.iface = false)
    (hst : q.state = .rts) (hs : q.sent = [w]) (h1 : 1 ≤ w.psns) (h23 : w.psns ≤ 2 ^ 23) (mask : Option (BitVec 256)) :
    s.resendFrom n w.psn mask = s.resendWqe q j w w.psn mask := by
  have hreach : ¬ (w.psn + BitVec.ofNat 24 w.psns - 1 - w.psn).toNat ≥ 2 ^ 23 := by bv_omega
  simp only [State.resendFrom, hq, hu, hd, hj, hs, List.foldl_cons, List.foldl_nil, hreach, hst, Option.map_some]
  rfl

/-! ## The events -/

section
variable {s : State} {n : Nat} {q : Qp} (hw : s.working = true) (hq : s.qp n = some q)
include hw hq

theorem exec_roceRequest {r : RoceReq} (hn : r.qpn = n) (hu : s.host.ifaces[q.p.iface].up = true)
    (hst : q.state = .rtr ∨ q.state = .rts)
    (hlen : r.payload.length = if r.op = .read ∨ r.op = .atomic then 0 else r.len) :
    exec (.roceRequest q.p.iface r) s = .next (s.roceIn q r) := by
  have hready : (q.state == .rtr || q.state == .rts) = true := by
    rcases hst with h | h <;> rw [h] <;> rfl
  rw [exec, execRoceRequest, hn, hq]
  exact when_of_true _ (by rw [hw, hu, beq_self_eq_true, hready, hlen]; simp)

section
variable (hst : q.state = .rts)
include hst

/-- An event of a queue pair that sends, whose condition holds. -/
theorem State.onRts_of_true {c : Qp → Bool} (hc : c q = true) (f : State → Qp → State) : s.onRts n c f = .next (f s q) := by
  rw [State.onRts, hq]
  exact when_of_true _ (by rw [hw, hst, hc]; rfl)

theorem exec_roceAck (hu : s.host.ifaces[q.p.iface].up = true) (a : RoceAnswer) :
    exec (.roceAck n a) s = .next (s.roceAnswer n a) := by
  rw [exec, execRoceAck, State.onRts_of_true hw hq hst hu]

theorem exec_cnp (hu : s.host.ifaces[q.p.iface].up = true) : exec (.cnp n) s = .next (s.cnpIn n) := by
  rw [exec, execCnp, State.onRts_of_true hw hq hst hu]

theorem exec_doorbellPoll (hp : q.p.poll = true) (hdue : 64 * q.polled + max 256000 (1000 *
      (s.host.qps.filter fun x => x.p.poll && portOfIf x.p.iface == portOfIf q.p.iface).length) ≤ 64 * s.time.work) :
    exec (.doorbellPoll n) s = .next (s.doorbell n) := by
  rw [exec, execDoorbellPoll, State.onRts_of_true hw hq hst (by rw [hp]; exact decide_eq_true hdue)]

theorem exec_localAckTimeout {w : SentWqe} (ht : q.p.timeout ≠ 0) (hr : q.rnrWait = false) (hs : q.sent.head? = some w)
    (hdue : w.last + 4096 * 2 ^ q.p.timeout.toNat ≤ s.time.work) :
    exec (.localAckTimeout n) s = .next (s.retryQp n w.psn none) := by
  rw [exec, execLocalAckTimeout, State.onRts_of_true hw hq hst (by
    rw [decide_eq_true ht, hr, hs, Option.map_some, decide_eq_true hdue]; rfl), hs]
  rfl

theorem exec_rnrTimer (hr : q.rnrWait = true) :
    exec (.rnrTimer n) s = .next (((s.modQp n fun q => { q with rnrWait := false }).resendFrom n
      ((q.sent.head?.map SentWqe.psn).getD 0) none).workQp n) := by
  rw [exec, execRnrTimer, State.onRts_of_true hw hq hst hr]

theorem exec_rateTimer (hdue : q.lastCnpRx + 50000 ≤ s.time.work) : exec (.rateTimer n) s = .next (s.rateTick n) := by
  rw [exec, execRateTimer, State.onRts_of_true hw hq hst (decide_eq_true hdue)]

end
end

/-- Settles O55: each event, where its conditions hold, has the effect that is claimed. -/
theorem queuePairEvents : Obligations.QueuePairEvents := by
  intro s n q hw hq
  have hn := State.qpn_of_qp hq
  refine ⟨fun r hrn hu hst hlen => exec_roceRequest hw hq hrn hu hst hlen, ?write, fun hst => ?sends⟩
  case write =>
    intro r j u hrn hu hst hlen hop hce hpsn hb hj hmr hwr
    rw [exec_roceRequest hw hq hrn hu hst (by rw [hop]; simpa using hlen), State.roceIn_of_write hop hce hpsn hb hj hmr hwr, hn]
    rfl
  refine ⟨fun hu => ⟨exec_roceAck hw hq hst hu, exec_cnp hw hq hst hu⟩, ?ack, ?cnp, ?poll, exec_doorbellPoll hw hq hst,
    fun w => exec_localAckTimeout hw hq hst, ?resend, exec_rnrTimer hw hq hst, ?rate⟩
  case ack =>
    intro hu w psn rtt hs hr hop hsig hpsn
    rw [exec_roceAck hw hq hst hu, State.roceAnswer_of_ack hq hs hr hop hsig hpsn]
  case cnp =>
    intro hu g a
    rw [exec_cnp hw hq hst hu, State.cnpIn, hq]
  case poll =>
    intro j u bs hp hdue hj hr
    rw [exec_doorbellPoll hw hq hst hp hdue, State.doorbell_of_read hq hj hst hr]
  case resend =>
    intro w j ht hr hs hdue hleft hj hu hd hop h1 h23 u
    have hqu : u.qp n = some { q with retries := q.retries + 1 } := State.qp_modQp (fun _ => rfl) hq
    rw [exec_localAckTimeout hw hq hst ht hr (by rw [hs]; rfl) hdue, State.retryQp_of_left hq hs hleft,
      State.resendFrom_of_single hqu hj hu hd hst hs h1 h23, State.resendWqe_of_read _ _ _ hop, hn]
    rfl
  case rate =>
    intro hdue h g
    rw [exec_rateTimer hw hq hst hdue, State.rateTick, hq]

end Sys2Proof.Machine
end

section
/-! SUPPORT. Proof of spec/18_thermal_power_time.md for the events of sensors, limits, voltages and the input power: each event where
its conditions hold. -/

-- Proofs are checked as they come: checked beside the rest, they hold their memory until the whole text is.
set_option Elab.async false

namespace Sys2Proof.Machine

theorem State.rails_of_live {s : State} (hl : s.live = true) : s.board.rails = true := by
  simp only [State.live, Bool.and_eq_true] at hl
  obtain ⟨⟨hrails, -⟩, -⟩ := hl
  exact hrails

/-! ## Samples (R482 to R486, R491 to R494) -/

/-- A running region below its shutdown threshold has its thresholds judged. -/
theorem State.sampleRegion_of_below {s : State} {r : Region} {readings : List (Option Int)} {t : Int} :
    let k := regionIx r
    let v := s.modRegion k fun r => { r with
      sensors := r.sensors.zipIdx.map fun (x, i) => if x.state = .good then x.sample s.clock ((readings[i]?).getD none) else x }
    let u := (List.range (sensorsOf k)).foldl (fun u i =>
      u.judgeSensor k i (((s.region k).sensors[i]?.map Sensor.state).getD .failed) ((readings[i]?).getD none).isSome) v
    u.live = true → u.temp k = some t → t < (thresholds k).2.2 →
      s.sampleRegion r readings = (((u.judgeWarning k t).judgeThrottle k t).judgeRate k t).holdCheck k := by
  intro k v u hl ht hlt
  have hjudged : s.sampleRegion r readings = match u.temp k with
    | none => u
    | some t =>
      if t ≥ (thresholds k).2.2 then (u.thermalEvent k 2).thermalShutdown
      else if !u.live then u
      else (((u.judgeWarning k t).judgeThrottle k t).judgeRate k t).holdCheck k := rfl
  rw [hjudged, ht]
  dsimp only
  rw [if_neg (Int.not_le.mpr hlt), hl]
  rfl

/-- The state right after a sample of the input power, before the cap is judged (R491, R534). -/
def State.takeSample (s : State) (mw mv : Nat) : State :=
  let v := s.countInput mw mv
  { v with
    board := { v.board with vin := mv }
    power := { v.power with samples := (mw :: v.power.samples).take 10000, sampled := v.clock } }

/-- Above the cap, the limit falls (R492). -/
theorem State.samplePower_of_above {s : State} {mw : Nat} (hc : 1000 * s.power.cap < mw) (mv : Nat) :
    s.samplePower mw mv =
      let w := ((s.takeSample mw mv).bump .pwrCapActs).setFlag .powerCapped 0 0
      { w with power := { w.power with
          limit := min w.power.limit w.topVoltage - min 8 (ceilDiv (mw - 1000 * s.power.cap) 100000)
          overCount := w.power.overCount + 1, underCount := 0
          capHold := w.power.capHold || w.power.overCount + 1 ≥ 100 } } := by
  exact if_pos hc

/-- At most the cap and less than 100 W below it, the limit stands (R492). -/
theorem State.samplePower_of_near {s : State} {mw : Nat} (hc : mw ≤ 1000 * s.power.cap) (hn : 1000 * s.power.cap < mw + 100000)
    (mv : Nat) : s.samplePower mw mv =
      let u := s.takeSample mw mv
      { u with power := { u.power with overCount := 0, capHold := u.power.capHold && u.dbg.frozen, underCount := 0 } } := by
  refine (if_neg (Nat.not_lt.mpr hc)).trans ?_
  rw [if_neg (Nat.not_le.mpr hn)]
  rfl

/-! ## The events -/

section
variable {s : State} (hl : s.live = true)
include hl

theorem exec_sensorSample (r : Region) (readings : List (Option Int)) :
    exec (.sensorSample r readings) s = .next (s.sampleRegion r readings) := by
  rw [exec, execSensorSample]
  exact when_of_true _ (State.rails_of_live hl)

theorem exec_thermalLimitStep {d : DieIx} {i : Fin 16} (hdue : (s.region (16 * d.val + i.val)).stepped + 1000000 ≤ s.clock) :
    exec (.thermalLimitStep d i) s = .next ((s.modRegion (16 * d.val + i.val) fun r => { r with
      stepped := s.clock
      limit := if s.atThrottle (16 * d.val + i.val) then r.limit - 1 else if r.throttled || r.held then r.limit
        else min 25 (r.limit + 1) }).holdCheck (16 * d.val + i.val)) := by
  rw [exec, execThermalLimitStep]
  exact when_of_true _ (by rw [hl, decide_eq_true hdue]; rfl)

section
variable (hdue : s.power.hubStepped + 1000000 ≤ s.clock)
include hdue

theorem exec_hubThrottleStep_down (hhot : ((List.range 4).any fun q => s.atThrottle (120 + q)) = true) :
    exec .hubThrottleStep s = .next { s with power := { s.power with hubStepped := s.clock, hubDrop :=
      if 650 + 10 * (s.power.hubDrop + 1) ≤ Config.hubMv then s.power.hubDrop + 1 else s.power.hubDrop } } := by
  rw [exec, execHubThrottleStep, when_of_true _ (by rw [hl, decide_eq_true hdue]; rfl)]
  exact congrArg _ (if_pos hhot)

theorem exec_hubThrottleStep_up (hhot : ((List.range 4).any fun q => s.atThrottle (120 + q)) = false)
    (hthr : ((List.range 4).any fun q => (s.region (120 + q)).throttled) = false) :
    exec .hubThrottleStep s =
      .next { s with power := { s.power with hubStepped := s.clock, hubDrop := s.power.hubDrop - 1 } } := by
  rw [exec, execHubThrottleStep, when_of_true _ (by rw [hl, decide_eq_true hdue]; rfl)]
  exact congrArg _ ((if_neg (Bool.eq_false_iff.mp hhot)).trans (if_neg (Bool.eq_false_iff.mp hthr)))

end

theorem exec_voltageStepDone {d : DieIx} {r : Fin 16} {v : Nat} (hv : s.power.volt.toArray[16 * d.val + r.val]? = some v) :
    exec (.voltageStepDone d r) s = .next
      (let v' := if s.voltTarget (16 * d.val + r.val) < v then v - 1 else if v < s.voltTarget (16 * d.val + r.val) then v + 1 else v
       ({ s with power := { s.power with volt := s.power.volt.setIfInBounds (16 * d.val + r.val) v' } } : State).holdCheck
         (16 * d.val + r.val)) := by
  rw [exec, execVoltageStepDone, when_of_true _ hl]
  dsimp only
  rw [hv]
  rfl

theorem exec_powerSample (hdue : s.power.sampled + 100000 ≤ s.clock) (mw mv : Nat) :
    exec (.powerSample mw mv) s = .next (s.samplePower mw mv) := by
  rw [exec, execPowerSample]
  exact when_of_true _ (by rw [hl, decide_eq_true hdue]; rfl)

theorem exec_overcurrent_of_free (hf : s.power.ocHold = false) : exec .overcurrent s =
    .next (({ s with power := { s.power with ocHold := true, ocSince := s.clock } } : State).bump .pwrOvercurrentHolds) := by
  rw [exec, execOvercurrent, when_of_true _ hl]
  exact congrArg _ (if_neg (Bool.eq_false_iff.mp hf))

theorem exec_overcurrentRelease (hh : s.power.ocHold = true) (hf : s.dbg.frozen = false) (hdue : s.power.ocSince + 100000 ≤ s.clock) :
    exec .overcurrentRelease s = .next { s with power := { s.power with ocHold := false } } := by
  rw [exec, execOvercurrentRelease]
  exact when_of_true _ (by rw [hl, hh, hf, decide_eq_true hdue]; rfl)

end

/-- Settles O56: each event, where its conditions hold, has the effect that is claimed. -/
theorem thermalAndPowerEvents : Obligations.ThermalAndPowerEvents := by
  intro s hl
  refine ⟨exec_sensorSample hl, ?below, fun d i => exec_thermalLimitStep hl, exec_hubThrottleStep_down hl, exec_hubThrottleStep_up hl,
    fun d r v => exec_voltageStepDone hl, fun mw mv hdue => exec_powerSample hl hdue mw mv, ?sample, exec_overcurrent_of_free hl,
    exec_overcurrentRelease hl⟩
  case below =>
    intro r readings t k v u hlu ht hlt
    rw [exec_sensorSample hl, State.sampleRegion_of_below hlu ht hlt]
  case sample =>
    intro mw mv hdue v u
    rw [exec_powerSample hl hdue]
    exact ⟨fun hc => congrArg _ (State.samplePower_of_above hc mv), fun hc hn => congrArg _ (State.samplePower_of_near hc hn mv)⟩

end Sys2Proof.Machine
end

section
/-! SUPPORT. Proof of spec/18_thermal_power_time.md for the exchanges of time: each event where its conditions hold. -/

-- Proofs are checked as they come: checked beside the rest, they hold their memory until the whole text is.
set_option Elab.async false

namespace Sys2Proof.Machine

/-! ## What counting leaves -/

/-- Counting changes counters alone. -/
theorem State.bump_with_counters (s : State) (c : CtrId) (i j n : Nat) :
    s.bump c i j n = { s with counters := (s.bump c i j n).counters } := by
  unfold State.bump
  split <;> rfl

/-! ## The exchange asked (R497) -/

/-- The state once a PING has left a port. -/
def State.pinged (s : State) (p : PortIx) : State :=
  ((s.message 0xFFFF 8 0 0 (zcpPacket 2 0 ((s.ctr ⟨.timeExchanges, 0, 0, 0⟩).setWidth 32) 0x0003 0 0 0 0 1 []) 0 false none
    (some p)).modTime fun t => { t with pending := some (p, s.clock, t.global), asked := s.clock, probe := p.val }).bump .timeExchanges

theorem State.pinged_time (s : State) (p : PortIx) :
    (s.pinged p).time = { s.time with pending := some (p, s.clock, s.time.global), asked := s.clock, probe := p.val } := by
  rw [State.pinged, State.bump_time]
  rfl

theorem State.pinged_inject_length (s : State) (p : PortIx) : (s.pinged p).fab.inject.length = s.fab.inject.length + 1 := by
  rw [State.pinged, State.bump_fab]
  exact List.length_append ..

theorem State.pinged_frame (s : State) (p : PortIx) :
    { s.pinged p with time := s.time, fab := { (s.pinged p).fab with inject := s.fab.inject }, counters := s.counters } = s := by
  rw [State.pinged, State.bump_with_counters]
  rfl

/-! ## The events -/

section
variable {s : State} (hl : s.live = true)
include hl

theorem exec_timeExchange {mask : BitVec 16} {p : PortIx} (hs : s.time.source = .mfp mask) (hp : s.askPort = some p)
    (hdue : s.time.asked + 1000000 ≤ s.clock) : exec .timeExchange s = .next (s.pinged p) := by
  have hstays : (if s.time.upstream.isSome && s.askPort.isNone then s.newUpstream else s) = s := by
    rw [hp, Option.isNone_some, Bool.and_false]
    rfl
  rw [exec, execTimeExchange, when_of_true _ (by rw [hl, decide_eq_true hdue]; rfl)]
  dsimp only
  rw [hs]
  dsimp only
  rw [hstays, hp]
  rfl

theorem exec_pingReply_near {p : PortIx} {sent : Nat} {t1 t2 : BitVec 64} {stratum : BitVec 8}
    (hp : s.time.pending = some (p, sent, t1)) (hin : s.clock ≤ sent + 100000) (hup : s.time.upstream = some p)
    (hnear : ((t1.toNat : Int) + (s.ports[p].roundTrip / 2 : Nat) - t2.toNat).natAbs ≤ 1600) :
    exec (.pingReply t1 t2 1 stratum) s = .next
      (((s.modTime fun x => { x with
          pending := none, lastExchange := s.clock, miss := 0
          known := (p, 1, stratum) :: x.known.filter fun k => k.1 != p }).correct
            ((t1.toNat : Int) + (s.ports[p].roundTrip / 2 : Nat) - t2.toNat)).judgeSync
          ((t1.toNat : Int) + (s.ports[p].roundTrip / 2 : Nat) - t2.toNat) 32 8 (stratum.toNat + 1)) := by
  rw [exec, execPingReply, hp]
  dsimp only
  rw [when_of_true _ (by rw [hl, beq_self_eq_true, decide_eq_true hin]; rfl)]
  simp only [State.modTime, hup, Option.isNone_some, Bool.false_eq_true, if_false, ne_eq, not_true_eq_false, gt_iff_lt,
    Nat.not_lt.mpr hnear, decide_false, Bool.false_and]

section
variable {mask : BitVec 16} {p : PortIx} {sent : Nat} {t1 : BitVec 64} (hs : s.time.source = .mfp mask)
  (hp : s.time.pending = some (p, sent, t1)) (hdue : sent + 100000 ≤ s.clock)
include hs hp hdue

/-- An exchange that is missed is counted; the tenth in a row changes the upstream. -/
theorem exec_missedExchange :
    exec .missedExchange s = .next
      (let u := (s.modTime fun t => { t with pending := none, miss := t.miss + 1 }).bump .timeMissed
       if s.time.miss + 1 ≥ 10 then u.newUpstream else u) := by
  rw [exec, execMissedExchange, hs, hp]
  dsimp only
  rw [when_of_true _ (by rw [hl, decide_eq_true hdue]; rfl)]
  rw [State.bump_time]
  rfl

end

theorem exec_ptpSync_near {i : IfIx} {offset : Int} (hs : s.time.source = .ptp i) (hnear : offset.natAbs ≤ 1600) :
    exec (.ptpSync offset) s = .next ((((s.modTime fun t => { t with miss := 0, lastExchange := s.clock }).bump
      .timeExchanges).correct offset).judgeSync offset 320 16 0) := by
  rw [exec, execPtpSync, hs]
  dsimp only
  rw [when_of_true _ hl]
  simp only [gt_iff_lt, Nat.not_lt.mpr hnear, decide_false, Bool.false_and, Bool.false_eq_true, if_false]

end

/-- Settles O57: each event, where its conditions hold, has the effect that is claimed. -/
theorem timeEvents : Obligations.TimeEvents := by
  intro s hl
  refine ⟨?exchange, fun p sent t1 t2 stratum => exec_pingReply_near hl, ?missed, ?tenth, fun i offset => exec_ptpSync_near hl⟩
  case exchange =>
    intro mask p hs hp hdue
    have htime := State.pinged_time s p
    exact ⟨s.pinged p, exec_timeExchange hl hs hp hdue, by rw [htime], by rw [htime], by rw [htime], by rw [htime],
      State.pinged_inject_length s p, State.pinged_frame s p⟩
  case missed =>
    intro mask p sent t1 hs hp hdue hm
    rw [exec_missedExchange hl hs hp hdue]
    exact congrArg _ (if_neg (by omega))
  case tenth =>
    intro mask p sent t1 hs hp hdue hm
    rw [exec_missedExchange hl hs hp hdue]
    exact congrArg _ (if_pos (by omega))

end Sys2Proof.Machine
end

section
/-! SUPPORT. Proof of spec/16_control_protocol.md for the transport: packets, reassembly, the queue, interim replies and the end of the
lock's lease. -/

-- Proofs are checked as they come: checked beside the rest, they hold their memory until the whole text is.
set_option Elab.async false

namespace Sys2Proof.Machine

/-! ## Packets (R434 to R440) -/

/-- A packet that breaks no rule of its header is not refused as a packet. -/
theorem packetRefusal_eq_none {h : ZcpHead} (hv : h.ver = 1 ∨ h.ver = 2) (hf : h.flags / 8 = 0) (hlen : h.len = h.body.length)
    (hfrag : h.frag < h.nfrag) (hone : h.ver = 1 → h.nfrag = 1) : packetRefusal h = none := by
  rw [packetRefusal, if_neg (by rcases hv with hv | hv <;> simp [hv]), if_neg (not_not.mpr hf), if_neg (by simp [hlen, hfrag]),
    if_neg (by simpa using hone)]

section
variable {s : State} {src : ZcpSrc} {pkt : List Byte} (hl : s.live = true) (ha : s.accepts src = true)
include hl ha

theorem exec_zcpFragment_of_badMagic (hm : leNat (pkt.take 2) ≠ 0x5A4D ∨ pkt.length < 32) :
    exec (.zcpFragment src pkt) s = .next (s.bump .zcpRxBadMagic) := by
  rw [exec, execZcpFragment, State.zcpPacketIn, if_neg (by rw [hl, ha]; decide), if_pos (by simpa using hm)]

section
variable (hm : leNat (pkt.take 2) = 0x5A4D) (hlong : 32 ≤ pkt.length) (hreq : (zcpHead pkt).flags % 4 = 0)
include hm hlong hreq

/-- A packet with the magic, of a request, meets the source filter. -/
theorem State.zcpPacketIn_of_request : s.zcpPacketIn src pkt =
    if !filterAllows s.zcp.filter src then s.bump .zcpFiltered
    else match packetRefusal (zcpHead pkt) with
    | some st => s.answerPacket src (zcpHead pkt) (if opKnown (zcpHead pkt).op then st else .opcodeUnknown)
    | none => if (zcpHead pkt).nfrag = 1 then s.arrivesZcp src (zcpHead pkt) (zcpHead pkt).body else s.fragment src (zcpHead pkt) := by
  rw [State.zcpPacketIn, if_neg (by rw [hl, ha]; decide), if_neg (by simp [hm, hlong])]
  exact if_neg (not_not.mpr hreq)

theorem exec_zcpFragment_of_filtered (hf : filterAllows s.zcp.filter src = false) :
    exec (.zcpFragment src pkt) s = .next (s.bump .zcpFiltered) := by
  rw [exec, execZcpFragment, State.zcpPacketIn_of_request hl ha hm hlong hreq, hf]
  rfl

section
variable (hf : filterAllows s.zcp.filter src = true) (hr : packetRefusal (zcpHead pkt) = none)
include hf hr

/-- A packet that the filter lets pass, and that breaks no rule, is a message or a part of one. -/
theorem exec_zcpFragment_of_sound : exec (.zcpFragment src pkt) s = .next
    (if (zcpHead pkt).nfrag = 1 then s.arrivesZcp src (zcpHead pkt) (zcpHead pkt).body else s.fragment src (zcpHead pkt)) := by
  rw [exec, execZcpFragment, State.zcpPacketIn_of_request hl ha hm hlong hreq, hf, hr]
  rfl

theorem exec_zcpFragment_of_message (h1 : (zcpHead pkt).nfrag = 1) :
    exec (.zcpFragment src pkt) s = .next (s.arrivesZcp src (zcpHead pkt) (zcpHead pkt).body) := by
  rw [exec_zcpFragment_of_sound hl ha hm hlong hreq hf hr, if_pos h1]

theorem exec_zcpFragment_of_part (h1 : (zcpHead pkt).nfrag ≠ 1) :
    exec (.zcpFragment src pkt) s = .next (s.fragment src (zcpHead pkt)) := by
  rw [exec_zcpFragment_of_sound hl ha hm hlong hreq hf hr, if_neg h1]

end
end
end

/-! ## The queue and the reassembly (R440, R441, R444) -/

/-- A new request of a sound encoding, with room in the queue, waits until it may start. -/
theorem State.arrivesZcp_of_new {s : State} {src : ZcpSrc} {h : ZcpHead} {bytes : List Byte}
    (hh : s.zcp.inHand src h.seq = none) (hc : s.zcp.cached src h.seq = none) (hlen : bytes.length ≤ 65536)
    (hroom : (s.zcp.waiting.filter fun w => w.started.isNone).length < 64) :
    let w : Waiting :=
      { src := src, seq := h.seq, op := h.op, target := targetOf h.target, ver2 := h.ver == 2, tag := h.tag
        maxReply := h.maxReply, bytes := bytes, started := none }
    encodingRefusal w = none → s.arrivesZcp src h bytes =
      ({ s.touchSource src with zcp := { (s.touchSource src).zcp with
        waiting := (s.touchSource src).zcp.waiting ++ [w] } } : State).startQueued := by
  intro w henc
  have hroom' : ((s.touchSource src).zcp.waiting.filter fun w => w.started.isNone).length < 64 := hroom
  simp only [State.arrivesZcp, hh, hc, gt_iff_lt, Nat.not_lt.mpr hlen, decide_false, Bool.false_and, Bool.false_eq_true, if_false,
    ge_iff_le, Nat.not_le.mpr hroom']
  split
  next hsome => exact absurd (hsome.symm.trans henc) (Option.some_ne_none _)
  next => rfl

/-- The first fragment of a message is kept, with room for the message. -/
theorem State.fragment_of_first {s : State} {src : ZcpSrc} {h : ZcpHead} (hnew : ∀ x ∈ s.zcp.reassembly, x.src = src → x.seq ≠ h.seq)
    (hroom : s.zcp.reassembly.length < 16) : s.fragment src h = { s with zcp := { s.zcp with
      reassembly := s.zcp.reassembly ++ [{ src := src, seq := h.seq, op := h.op, target := BitVec.ofNat 32 h.target
                                           nfrag := h.nfrag, first := s.clock, frags := [(h.frag, h.body)] }] } } := by
  have hnone : (s.zcp.reassembly.find? fun x => x.src == src && x.seq == h.seq) = none := by
    simpa using hnew
  simp only [State.fragment, hnone, ge_iff_le, Nat.not_le.mpr hroom, if_false]

section
variable {s : State} {r : ZcpReq} {u : Use} {body : State → Ans} (hl : s.live = true) (ha : s.accepts r.src = true)
  (hf : filterAllows s.zcp.filter r.src = true) (hh : s.zcp.inHand r.src r.seq = none) (hc : s.zcp.cached r.src r.seq = none)
  (ht : s.zcp.takes (requestInHand r u s.clock) = false)
include hl ha hf hh hc ht

/-- A new request that may not start at once is answered BUSY where 64 wait. -/
theorem State.zcpStep_of_busy (hfull : 64 ≤ (s.zcp.waiting.filter fun x => x.started.isNone).length) :
    s.zcpStep r u body = ((s.touchSource r.src).bump .zcpBusy).sendReply r.src
      ((requestInHand r u s.clock).head .busy [] 0) r.maxReply 0 [] := by
  simp [State.zcpStep, hl, ha, hf, hh, hc, ht, hfull]

/-- A new request that may not start at once waits where fewer than 64 do. -/
theorem State.zcpStep_of_queued (hroom : (s.zcp.waiting.filter fun x => x.started.isNone).length < 64) :
    s.zcpStep r u body = { s.touchSource r.src with zcp := { (s.touchSource r.src).zcp with
      waiting := (s.touchSource r.src).zcp.waiting ++ [{ requestInHand r u s.clock with started := none }] } } := by
  simp [State.zcpStep, hl, ha, hf, hh, hc, ht, hroom]

end

/-- The request that a command's row holds is the one that the shared step takes. -/
theorem ZcpRow.Says.inHand_eq {z : ZcpRow} {u : Use} (h : z.Says u) (s : State) : requestInHand z.req u s.clock = z.inHand s := by
  rw [requestInHand, ZcpRow.inHand, h.op, h.target]

/-! ## Timers (R440, R445, R448) -/

/-- The reassemblies that are due of a source and a sequence number (R440). -/
def State.reassemblyDue (s : State) (src : ZcpSrc) (seq : BitVec 32) (x : Reassembly) : Bool :=
  x.src == src && x.seq == seq && x.first + 1000000000 ≤ s.clock

section
variable {s : State} (hl : s.live = true)
include hl

theorem exec_reassemblyTimeout {x : Reassembly} (hx : x ∈ s.zcp.reassembly) (hdue : x.first + 1000000000 ≤ s.clock) :
    exec (.reassemblyTimeout x.src x.seq) s = .next (({ s with zcp := { s.zcp with
      reassembly := s.zcp.reassembly.filter fun y => !s.reassemblyDue x.src x.seq y } } : State).bump .zcpRxReassemblyTimeout) := by
  have hany : s.zcp.reassembly.any (s.reassemblyDue x.src x.seq) = true :=
    List.any_eq_true.mpr ⟨x, hx, by simp [State.reassemblyDue, hdue]⟩
  rw [exec, execReassemblyTimeout]
  exact when_of_true _ (by rw [hl]; exact hany)

theorem exec_interimReply {src : ZcpSrc} {seq : BitVec 32} {w : Waiting} {t : Nat} (hw : s.zcp.inHand src seq = some w)
    (hs : w.started = some t) (hdue : t + 100000000 + 1000000000 * w.interims ≤ s.clock) :
    exec (.interimReply src seq) s = .next
      (let u := s.sendReply src (w.head .inProgress [] 0) w.maxReply 0 []
       let ws := mapIf (fun (x : Waiting) => x.src == src && x.seq == seq) (fun x => { x with interims := x.interims + 1 })
         u.zcp.waiting
       { u with zcp := { u.zcp with waiting := ws } }) := by
  rw [exec, execInterimReply, hw]
  exact when_of_true _ (by rw [hl, hs, Option.map_some, decide_eq_true hdue]; rfl)

theorem exec_lockExpiry {h : ZcpSrc} {till : Nat} (hk : s.zcp.lock = some (h, till)) (hdue : till ≤ s.clock) :
    exec .lockExpiry s = .next (({ s with zcp := { s.zcp with lock := none } } : State).event .lock {} [2]) := by
  rw [exec, execLockExpiry, hk]
  refine (when_of_true _ (by rw [hl, decide_eq_true hdue]; rfl)).trans ?_
  rw [State.dropLock, hk]
  exact congrArg _ (if_pos hdue)

end

/-- Settles O58: each packet, request and timer, where its conditions hold, has the effect that is claimed. -/
theorem controlTransport : Obligations.ControlTransport := by
  intro s hl
  refine ⟨fun src pkt => exec_zcpFragment_of_badMagic hl, ?message, ?new, fun src pkt => exec_zcpFragment_of_filtered hl, ?queue, ?timeout,
    fun src seq w t => exec_interimReply hl, fun h till => exec_lockExpiry hl⟩
  case message =>
    intro src pkt ha hm hlong hreq hf hv hflags hlen hfrag hn
    exact exec_zcpFragment_of_message hl ha hm hlong hreq hf
      (packetRefusal_eq_none hv hflags hlen (by rw [hfrag, hn]; exact Nat.one_pos) fun _ => hn) hn
  case new =>
    intro src pkt ha hm hlong hreq hflags hf h t hlen
    refine ⟨?whole, ?part⟩
    case whole =>
      intro hv hfrag hn hh hc hbody hroom w henc
      rw [exec_zcpFragment_of_message hl ha hm hlong hreq hf
        (packetRefusal_eq_none hv hflags hlen (by rw [hfrag, hn]; exact Nat.one_pos) fun _ => hn) hn,
        State.arrivesZcp_of_new hh hc hbody hroom henc]
    case part =>
      intro hv hfrag hn hnew hroom
      rw [exec_zcpFragment_of_part hl ha hm hlong hreq hf
        (packetRefusal_eq_none (.inr hv) hflags hlen hfrag fun h1 => absurd (hv.symm.trans h1) (by decide))
          fun h1 => absurd (hn.trans_eq h1) (by decide),
        State.fragment_of_first hnew hroom]
  case queue =>
    intro c z hz ha hf hh hc ht t queued
    obtain ⟨u, body, hexec, hu⟩ := exec_zcp c z s hz
    rw [← hu.inHand_eq] at ht
    refine ⟨fun hfull => ?_, fun hroom => ?_⟩
    · rw [State.zcpStep_of_busy hl ha hf hh hc ht hfull, hu.inHand_eq] at hexec
      exact hexec (((SameBut.touch _ _).trans (SameBut.bump _ _ _ _ _)).trans (SameBut.sendReply _ _ _ _ _ _))
    · rw [State.zcpStep_of_queued hl ha hf hh hc ht hroom, hu.inHand_eq] at hexec
      exact hexec rfl
  case timeout =>
    rintro _ _ x hx rfl rfl hdue
    refine ⟨_, exec_reassemblyTimeout hl hx hdue, ?_, State.ctr_bump_same _ _ _ _, ?_⟩
    · rw [State.bump_zcp]
      simp [State.reassemblyDue, hdue]
    · rw [State.bump_with_counters]

end Sys2Proof.Machine
end
